-- ==== Sys2Proof/Word.lean ====
section
/-! DEFINITION. The plainest types of the SX-4 model: bytes, the keys of its tables, and a value held for each hoist. -/

namespace Sys2Proof

/-- A byte of either serial line (spec/11 R193). -/
abbrev Byte := BitVec 8

/-- A hoist number, 0 to 3 (spec/00, the installation's dimensions). -/
abbrev HoistId := Fin 4

/-- A bay number, 0 to 63 (spec/02 R25). -/
abbrev BayId := Fin 64

/-- A slot of the Mass Table: slot `m` holds the record of mass number `m + 1` (spec/01 R1). -/
abbrev MassId := Fin 96

/-- The mass number of a slot, 1 to 96 (spec/01 R1). -/
def massNumber (m : MassId) : Nat := m.val + 1

/-- One value for each of the four hoists. -/
structure Quad (α : Type) where
  h0 : α
  h1 : α
  h2 : α
  h3 : α
  deriving DecidableEq, Repr

/-- The value held for hoist `h`. -/
def Quad.get {α : Type} (q : Quad α) (h : HoistId) : α :=
  match h with
  | 0 => q.h0
  | 1 => q.h1
  | 2 => q.h2
  | 3 => q.h3

/-- The four values with that of hoist `h` replaced. -/
def Quad.set {α : Type} (q : Quad α) (h : HoistId) (x : α) : Quad α :=
  match h with
  | 0 => { q with h0 := x }
  | 1 => { q with h1 := x }
  | 2 => { q with h2 := x }
  | 3 => { q with h3 := x }

/-- The same value for every hoist. -/
def Quad.all {α : Type} (x : α) : Quad α := ⟨x, x, x, x⟩

/-- A value for each hoist, given by its number. -/
def Quad.tab {α : Type} (f : HoistId → α) : Quad α := ⟨f 0, f 1, f 2, f 3⟩

/-- The four hoist numbers, in increasing order. -/
def hoistList : List HoistId := [0, 1, 2, 3]

/-- Both levels of a hoist's encoder pair (spec/04 R63, R64). -/
structure Channels where
  a : Bool
  b : Bool
  deriving DecidableEq, Repr

end Sys2Proof
end

