-- ==== Sys2Proof/Syntax.lean ====
section
/-! DEFINITION. The commands of the SX-4: one constructor of `Instr` for each row of spec/opcode_table.json.
Rows that name an event at one hoist carry the hoist; rows that name a character received carry its byte; rows that
name a plant command carry the fields of its payload (spec/11 R194), as unsigned numbers, or signed where R194 says so. -/

namespace Sys2Proof

/-- The level of the shaft safety interlock line, and the accepted interlock level (spec/03 R57). -/
inductive Interlock where
  | opened
  | closed
  deriving DecidableEq, Repr

/-- The levels of the lines of one filter group at a sample instant (spec/03 R48, R53): for group BAY bit b is 1 where
bay b's line reads OCCUPIED, for group LATCH bit h is 1 where hoist h's line reads CLOSED. -/
inductive GroupSample where
  | bay (levels : BitVec 64)
  | latch (levels : BitVec 4)
  deriving DecidableEq, Repr

/-- The commands of the block, in the table's order. -/
inductive Instr where
  /-- POWER_ON_RESET: the setting the strap pins give (R181) and the levels of the first encoder sample (R63). -/
  | powerOnReset (straps : BitVec 2) (channels : Quad Channels)
  /-- MILLISECOND_MARK: the level at which the interlock line is sampled at the mark (R57). -/
  | millisecondMark (line : Interlock)
  | segmentEvent (h : HoistId)
  | linkTimeout (h : HoistId)
  /-- HOIST_LINK_REPLY: the seventh byte of a reply (R197). -/
  | hoistLinkReply (h : HoistId) (byte : Byte)
  | replyPartialTimeout (h : HoistId)
  | filterSampleInstant (sample : GroupSample)
  | interlockClosedAcceptance
  | interlockHalt (h : HoistId)
  | interlockClosedTaken (h : HoistId)
  | markerPulse (h : HoistId)
  /-- ENCODER_EDGE: the levels of the encoder pair at the sample (R64). -/
  | encoderEdge (h : HoistId) (levels : Channels)
  | phaseTimerExpiry (h : HoistId)
  | dwellLimitExpiry (h : HoistId)
  | servingStart
  | tryHoist
  | eligibilityReevaluation (h : HoistId)
  | endTripsOfAnotherKind (h : HoistId)
  /-- FRAME_COMPLETE: the 32nd byte of a frame (R182, R183). -/
  | frameComplete (byte : Byte)
  | frameGapTimeout
  | characterError
  | replyEnd
  | getMass (mass : Nat)
  | nextMass (start filter : Nat)
  | getBay (bay : Nat)
  | nextBay (start filter : Nat)
  | getHoist (hoist page : Nat)
  | getOrder (position : Nat)
  | getEnergy (page : Nat)
  | getParam (identifier hoist : Nat)
  | getPlant (page : Nat)
  | snapshot
  | admitMass (mass nominal bay : Nat)
  | amendMass (mass nominal : Nat)
  | retireMass (mass : Nat)
  | foundMass (mass bay : Nat)
  | surveyBay (bay elevation access service : Nat)
  | barBay (bay : Nat)
  | unbarBay (bay : Nat)
  | orderMove (mass destination hoist : Nat)
  | cancelOrder (mass : Nat)
  | setPower (kW : Int)
  | holdHoist (hoist mode : Nat)
  | resume (hoist : Nat)
  | abandonTrip (hoist : Nat)
  | retarget (hoist bay : Nat)
  | referenceHoist (hoist bay : Nat)
  | clearFault (hoist : Nat)
  | enableHoist (hoist setting : Nat)
  | setParam (identifier hoist : Nat) (value : Int)
  | restart
  | restartOrderQueue
  | restartPowerAllocator
  | restartHoist (h : HoistId)
  /-- PLANT_LINK_BYTE: a byte other than the 32nd of a frame (R182). -/
  | plantLinkByte (byte : Byte)
  /-- HOIST_LINK_REPLY_BYTE: a byte other than the seventh of a reply (R197). -/
  | hoistLinkReplyByte (h : HoistId) (byte : Byte)
  deriving DecidableEq, Repr

/-- A Plant Link frame: the bytes received, byte 0 first (spec/11 R194). A complete frame has 32. -/
structure Frame where
  bytes : List Byte
  deriving DecidableEq, Repr

/-- The originators of a command frame (spec/10 R184, R185). -/
inductive Originator where
  | dispatch
  | service
  | monitor
  deriving DecidableEq, Repr

end Sys2Proof
end

