-- ==== Sys2Proof/WellFormed.lean ====
section
/-! DEFINITION. Which commands a sender can put on the wires: every payload field fits the bytes that spec/11 R194 gives it.
The commands that are events or characters are well formed whatever their operands, whose types bound them. -/

namespace Sys2Proof

/-- A number that one payload byte can carry. -/
def fitsByte (n : Nat) : Bool := n < 256

/-- A number that three payload bytes can carry: a nominal or an elevation (R194). -/
def fitsThreeBytes (n : Nat) : Bool := n < 16777216

/-- A signed number that four payload bytes can carry (R193, R194). -/
def fitsSignedFourBytes (x : Int) : Bool := -2147483648 ≤ x && x ≤ 2147483647

/-- Every field of the command fits its place in the frame (R194). -/
def Instr.wellFormed (i : Instr) : Bool :=
  match i with
  | .getMass m => fitsByte m
  | .nextMass n f => fitsByte n && fitsByte f
  | .getBay b => fitsByte b
  | .nextBay n f => fitsByte n && fitsByte f
  | .getHoist h p => fitsByte h && fitsByte p
  | .getOrder p => fitsByte p
  | .getEnergy p => fitsByte p
  | .getParam i h => fitsByte i && fitsByte h
  | .getPlant p => fitsByte p
  | .admitMass m n b => fitsByte m && fitsThreeBytes n && fitsByte b
  | .amendMass m n => fitsByte m && fitsThreeBytes n
  | .retireMass m => fitsByte m
  | .foundMass m b => fitsByte m && fitsByte b
  | .surveyBay b e a s => fitsByte b && fitsThreeBytes e && fitsByte a && fitsByte s
  | .barBay b => fitsByte b
  | .unbarBay b => fitsByte b
  | .orderMove m d h => fitsByte m && fitsByte d && fitsByte h
  | .cancelOrder m => fitsByte m
  | .setPower x => fitsSignedFourBytes x
  | .holdHoist h m => fitsByte h && fitsByte m
  | .resume h => fitsByte h
  | .abandonTrip h => fitsByte h
  | .retarget h b => fitsByte h && fitsByte b
  | .referenceHoist h b => fitsByte h && fitsByte b
  | .clearFault h => fitsByte h
  | .enableHoist h s => fitsByte h && fitsByte s
  | .setParam i h x => fitsByte i && fitsByte h && fitsSignedFourBytes x
  | .powerOnReset _ _ | .millisecondMark _ | .segmentEvent _ | .linkTimeout _ | .hoistLinkReply _ _
  | .replyPartialTimeout _ | .filterSampleInstant _ | .interlockClosedAcceptance | .interlockHalt _
  | .interlockClosedTaken _ | .markerPulse _ | .encoderEdge _ _ | .phaseTimerExpiry _ | .dwellLimitExpiry _
  | .servingStart | .tryHoist | .eligibilityReevaluation _ | .endTripsOfAnotherKind _ | .frameComplete _
  | .frameGapTimeout | .characterError | .replyEnd | .snapshot | .restart | .restartOrderQueue
  | .restartPowerAllocator | .restartHoist _ | .plantLinkByte _ | .hoistLinkReplyByte _ _ => true

end Sys2Proof
end

