-- ==== Sys2Proof/Decode.lean ====
section
/-! DEFINITION. Reading a command from a complete Plant Link frame, and writing one into a frame (spec/11 R193, R194).
No row of spec/opcode_table.json has bits, so the host's table words decode to nothing. -/

namespace Sys2Proof

/-- Byte `i` of a frame; 0 where the frame is shorter (a complete frame has 32 bytes). -/
def Frame.byte (f : Frame) (i : Nat) : Nat := (f.bytes.getD i 0).toNat

/-- The number in `n` bytes from byte `i`, most significant byte first (R193). -/
def Frame.number (f : Frame) (i n : Nat) : Nat :=
  match n with
  | 0 => 0
  | n + 1 => f.number i n * 256 + f.byte (i + n)

/-- A number of `n` bytes read as two's complement (R193). -/
def signedOf (n v : Nat) : Int := if v < 2 ^ (8 * n - 1) then v else (v : Int) - 2 ^ (8 * n)

/-- `n` bytes that carry the number `v`, most significant byte first (R193); what lies beyond them is not carried. -/
def bigEndian (n v : Nat) : List Byte :=
  match n with
  | 0 => []
  | n + 1 => bigEndian n (v / 256) ++ [BitVec.ofNat 8 v]

/-- `n` bytes that carry the signed number `x` in two's complement (R193). -/
def bigEndianSigned (n : Nat) (x : Int) : List Byte := bigEndian n (x % (2 ^ (8 * n) : Int)).toNat

/-- The originator a frame's byte 1 names (R184, R194). -/
def Originator.ofCode (n : Nat) : Option Originator :=
  match n with
  | 1 => some .dispatch
  | 2 => some .service
  | 3 => some .monitor
  | _ => none

/-- The command a complete frame carries, by its command code and the places of its payload fields (R194);
none where the code names no command, which the port refuses UNKNOWN (R184). -/
def Frame.command (f : Frame) : Option Instr :=
  match f.byte 2 with
  | 0x01 => some (.getMass (f.byte 4))
  | 0x02 => some (.nextMass (f.byte 4) (f.byte 5))
  | 0x03 => some (.getBay (f.byte 4))
  | 0x04 => some (.nextBay (f.byte 4) (f.byte 5))
  | 0x05 => some (.getHoist (f.byte 4) (f.byte 5))
  | 0x06 => some (.getOrder (f.byte 4))
  | 0x07 => some (.getEnergy (f.byte 4))
  | 0x08 => some (.getParam (f.byte 4) (f.byte 5))
  | 0x09 => some (.getPlant (f.byte 4))
  | 0x0A => some .snapshot
  | 0x20 => some (.admitMass (f.byte 4) (f.number 5 3) (f.byte 8))
  | 0x21 => some (.amendMass (f.byte 4) (f.number 5 3))
  | 0x22 => some (.retireMass (f.byte 4))
  | 0x23 => some (.foundMass (f.byte 4) (f.byte 5))
  | 0x28 => some (.surveyBay (f.byte 4) (f.number 5 3) (f.byte 8) (f.byte 9))
  | 0x29 => some (.barBay (f.byte 4))
  | 0x2A => some (.unbarBay (f.byte 4))
  | 0x30 => some (.orderMove (f.byte 4) (f.byte 5) (f.byte 6))
  | 0x31 => some (.cancelOrder (f.byte 4))
  | 0x38 => some (.setPower (signedOf 4 (f.number 4 4)))
  | 0x40 => some (.holdHoist (f.byte 4) (f.byte 5))
  | 0x41 => some (.resume (f.byte 4))
  | 0x42 => some (.abandonTrip (f.byte 4))
  | 0x43 => some (.retarget (f.byte 4) (f.byte 5))
  | 0x48 => some (.referenceHoist (f.byte 4) (f.byte 5))
  | 0x49 => some (.clearFault (f.byte 4))
  | 0x4A => some (.enableHoist (f.byte 4) (f.byte 5))
  | 0x50 => some (.setParam (f.byte 4) (f.byte 5) (signedOf 4 (f.number 6 4)))
  | 0x5F => some .restart
  | _ => none

/-- The command code and payload bytes of a plant command (R194); none for an event, which no frame carries. -/
def Instr.payload (i : Instr) : Option (Nat × List Byte) :=
  match i with
  | .getMass m => some (0x01, bigEndian 1 m)
  | .nextMass n f => some (0x02, bigEndian 1 n ++ bigEndian 1 f)
  | .getBay b => some (0x03, bigEndian 1 b)
  | .nextBay n f => some (0x04, bigEndian 1 n ++ bigEndian 1 f)
  | .getHoist h p => some (0x05, bigEndian 1 h ++ bigEndian 1 p)
  | .getOrder p => some (0x06, bigEndian 1 p)
  | .getEnergy p => some (0x07, bigEndian 1 p)
  | .getParam i h => some (0x08, bigEndian 1 i ++ bigEndian 1 h)
  | .getPlant p => some (0x09, bigEndian 1 p)
  | .snapshot => some (0x0A, [])
  | .admitMass m n b => some (0x20, bigEndian 1 m ++ bigEndian 3 n ++ bigEndian 1 b)
  | .amendMass m n => some (0x21, bigEndian 1 m ++ bigEndian 3 n)
  | .retireMass m => some (0x22, bigEndian 1 m)
  | .foundMass m b => some (0x23, bigEndian 1 m ++ bigEndian 1 b)
  | .surveyBay b e a s => some (0x28, bigEndian 1 b ++ bigEndian 3 e ++ bigEndian 1 a ++ bigEndian 1 s)
  | .barBay b => some (0x29, bigEndian 1 b)
  | .unbarBay b => some (0x2A, bigEndian 1 b)
  | .orderMove m d h => some (0x30, bigEndian 1 m ++ bigEndian 1 d ++ bigEndian 1 h)
  | .cancelOrder m => some (0x31, bigEndian 1 m)
  | .setPower x => some (0x38, bigEndianSigned 4 x)
  | .holdHoist h m => some (0x40, bigEndian 1 h ++ bigEndian 1 m)
  | .resume h => some (0x41, bigEndian 1 h)
  | .abandonTrip h => some (0x42, bigEndian 1 h)
  | .retarget h b => some (0x43, bigEndian 1 h ++ bigEndian 1 b)
  | .referenceHoist h b => some (0x48, bigEndian 1 h ++ bigEndian 1 b)
  | .clearFault h => some (0x49, bigEndian 1 h)
  | .enableHoist h s => some (0x4A, bigEndian 1 h ++ bigEndian 1 s)
  | .setParam i h x => some (0x50, bigEndian 1 i ++ bigEndian 1 h ++ bigEndianSigned 4 x)
  | .restart => some (0x5F, [])
  | .powerOnReset _ _ | .millisecondMark _ | .segmentEvent _ | .linkTimeout _ | .hoistLinkReply _ _
  | .replyPartialTimeout _ | .filterSampleInstant _ | .interlockClosedAcceptance | .interlockHalt _
  | .interlockClosedTaken _ | .markerPulse _ | .encoderEdge _ _ | .phaseTimerExpiry _ | .dwellLimitExpiry _
  | .servingStart | .tryHoist | .eligibilityReevaluation _ | .endTripsOfAnotherKind _ | .frameComplete _
  | .frameGapTimeout | .characterError | .replyEnd | .restartOrderQueue
  | .restartPowerAllocator | .restartHoist _ | .plantLinkByte _ | .hoistLinkReplyByte _ _ => none

/-- One bit of data shifted into the CRC register of R183. -/
def crcBit (crc : BitVec 16) (bit : Bool) : BitVec 16 :=
  let shifted := crc <<< 1
  if crc.getLsbD 15 != bit then shifted ^^^ 0x1021#16 else shifted

/-- One byte shifted into the CRC register, most significant bit first (R183). -/
def crcByte (crc : BitVec 16) (b : Byte) : BitVec 16 :=
  [7, 6, 5, 4, 3, 2, 1, 0].foldl (fun c i => crcBit c (b.getLsbD i)) crc

/-- The CRC-16 of R183: polynomial 0x1021, initial value 0xFFFF, no final inversion. -/
def crc16 (bytes : List Byte) : BitVec 16 := bytes.foldl crcByte 0xFFFF#16

/-- The bytes with the two bytes of their CRC after them, the most significant first (R183). -/
def withCrc (bytes : List Byte) : List Byte := bytes ++ bigEndian 2 (crc16 bytes).toNat

/-- The CRC over bytes 0 to 29 agrees with bytes 30 and 31 (R183). -/
def Frame.crcAgrees (f : Frame) : Bool := (crc16 (f.bytes.take 30)).toNat == f.number 30 2

/-- The number an originator's byte carries (R194). -/
def Originator.code (o : Originator) : Nat :=
  match o with
  | .dispatch => 1
  | .service => 2
  | .monitor => 3

/-- The 32-byte frame that carries a plant command (R194), with payload bytes the command does not use 0. -/
def Instr.encode (i : Instr) (o : Originator) (tag : Byte) : Option Frame :=
  match i.payload with
  | some (code, fields) =>
    some ⟨withCrc (0xA5#8 :: BitVec.ofNat 8 o.code :: BitVec.ofNat 8 code :: tag ::
      (fields ++ List.replicate (26 - fields.length) 0#8))⟩
  | none => none

/-- A query: a command that asks and changes nothing of the records (R185). -/
def Instr.isQuery (i : Instr) : Bool :=
  match i with
  | .getMass _ | .nextMass _ _ | .getBay _ | .nextBay _ _ | .getHoist _ _ | .getOrder _ | .getEnergy _
  | .getParam _ _ | .getPlant _ | .snapshot => true
  | _ => false

/-- The commands the originator is permitted (the table of R185). -/
def Originator.permits (o : Originator) (i : Instr) : Bool :=
  match o with
  | .monitor => i.isQuery
  | .dispatch =>
    i.isQuery || (match i with
      | .setPower _ | .orderMove _ _ _ | .cancelOrder _ | .resume _ | .holdHoist _ _ => true
      | _ => false)
  | .service => (match i with | .setPower _ => false | _ => true)

/-- No row of the table gives bits, so no word spells a command. -/
def decodeTableWord (_nbits _w : Nat) : Option Instr := none

end Sys2Proof
end

