-- ==== Sys2Proof/Config.lean ====
section
/-! DEFINITION. What the spec leaves open: the free values, which have no body, so that no proof can see what they are. -/

namespace Sys2Proof

/-- FREE VALUE (log 19). The number that stands in a reply field of `width` bytes when the value to be reported does not
fit it. Every value within the ranges of the spec's rules fits its field; a value beyond them fits none that R195 lays out.
`draw` is the state's counter, so that each reply has a fresh value. -/
opaque Config.unfitting : (draw width : Nat) → (value : Int) → Nat

/-- FREE VALUE (log 20). The offset held after an act that gives an offset outside the range of spec/04 R63; the type keeps
the range. `draw` is the state's counter. -/
opaque Config.freeOffset : (draw : Nat) → (value : Int) → BitVec 32

end Sys2Proof
end

