-- ==== Sys2Proof/Machine/State.lean ====
section
/-! DEFINITION. The state of the SX-4: every record, register, count and flag the spec gives its blocks, as plain data, and the
queue of commands that are waiting. `Chip` is the part itself, with one field for each block of spec/00's block overview;
`State` is the part and the queue. -/

namespace Sys2Proof.Machine

/-! ### Mass Table (spec/01) -/

/-- The mass states, in the order of their codes (R1, R193). -/
inductive MassState where
  | absent
  | parked
  | assigned
  | aboard
  | retiring
  | missing
  deriving DecidableEq, Repr

/-- A mass record (R1). -/
structure MassRecord where
  state : MassState
  nominal : Option Nat
  measured : Option Nat
  bay : Option BayId
  lastBay : Option BayId
  hoist : Option HoistId
  weighHold : Bool
  lifts : Nat
  deriving DecidableEq, Repr

/-- The record of a slot that holds no mass (R2, R7). -/
def MassRecord.empty : MassRecord :=
  { state := .absent, nominal := none, measured := none, bay := none, lastBay := none, hoist := none,
    weighHold := false, lifts := 0 }

/-! ### Bay Table (spec/02) -/

/-- The bay states, in the order of their codes (R25, R193). `opened` is OPEN. -/
inductive BayState where
  | unsurveyed
  | opened
  | occupied
  | inbound
  | outbound
  | barred
  deriving DecidableEq, Repr

/-- Why a bay is barred (R25). -/
inductive BarredCause where
  | service
  | foreign
  | lost
  deriving DecidableEq, Repr

/-- The levels of an occupancy line (R25, R48). -/
inductive Occupancy where
  | empty
  | occupied
  deriving DecidableEq, Repr

/-- The trip slots of a hoist (R86, R193). -/
inductive Slot where
  | active
  | staged
  deriving DecidableEq, Repr

/-- A bay record (R25), with the hold a trip has on it: the hoist and slot (R44, R88). -/
structure BayRecord where
  state : BayState
  elevation : Option Nat
  access : Option (BitVec 4)
  service : Option Bool
  occupant : Option MassId
  cause : Option BarredCause
  sensor : Option Occupancy
  holder : Option (HoistId × Slot)
  deriving DecidableEq, Repr

/-- The record of a bay after power-on reset (R46). -/
def BayRecord.unsurveyed : BayRecord :=
  { state := .unsurveyed, elevation := none, access := none, service := none, occupant := none, cause := none,
    sensor := none, holder := none }

/-! ### Sensor Filter Bank (spec/03) -/

/-- The levels of a latch line (R48). `opened` is OPEN. -/
inductive Latch where
  | opened
  | closed
  deriving DecidableEq, Repr

/-- What the bank holds for one filtered line (R52). -/
structure LineFilter (α : Type) where
  accepted : Option α
  previous : Option α
  deriving DecidableEq, Repr

/-- What the bank holds for one filter group (R52, R53, R55, R56). The group's code is the plant parameter of its name.
`fresh` says that no sample instant has come since the group's start; `due` that its instant falls on the present mark and has
not been taken; `ahead` that the instant of the coming mark has been taken (log 2). -/
structure FilterGroup where
  since : Nat
  fresh : Bool
  due : Bool
  ahead : Bool
  deriving DecidableEq, Repr

/-- The interlock qualifier's states (R57). -/
inductive Qualifier where
  | opened
  | qualifying
  | closed
  deriving DecidableEq, Repr

/-- The Sensor Filter Bank: the latest mark (R49), the filters (R52) and the interlock qualifier (R57). -/
structure SensorBank where
  mark : Nat
  bayLines : Vector (LineFilter Occupancy) 64
  latchLines : Quad (LineFilter Latch)
  bayGroup : FilterGroup
  latchGroup : FilterGroup
  qualifier : Qualifier
  closing : Nat
  deriving DecidableEq, Repr

/-! ### Position Unit (spec/04) -/

/-- The states of an expected marker (R63, R80). -/
inductive MarkerState where
  | idle
  | armedBelow
  | armedAbove
  | met
  deriving DecidableEq, Repr

/-- A Position Unit (R63). `markers` lists, in increasing elevation, the expected markers whose state is not IDLE (log 26). -/
structure PositionUnit where
  channels : Channels
  count : Int
  illegal : Nat
  previousCount : Int
  elevation : Nat
  speed : Int
  offset : Int
  referenced : Bool
  drift : Int
  lastPulse : Option Nat
  markers : List (Nat × MarkerState)
  missRun : Nat
  encoderErrors : Nat
  rangeCount : Nat
  slipWarnings : Nat
  missedMarkers : Nat
  deriving DecidableEq, Repr

/-! ### Hoist Controller (spec/05, spec/07, spec/08) -/

/-- The hoist phases, in the order of their codes (R86, R193). -/
inductive Phase where
  | idle
  | travel
  | dwell
  | approach
  | engage
  | release
  | halted
  | faulted
  deriving DecidableEq, Repr

/-- The trip kinds (R87, R193). -/
inductive TripKind where
  | charge
  | discharge
  | directed
  deriving DecidableEq, Repr

/-- The legs of a trip (R87, R193). -/
inductive Leg where
  | empty
  | loaded
  deriving DecidableEq, Repr

/-- The direction of the loaded leg (R87, R193). -/
inductive Direction where
  | up
  | down
  deriving DecidableEq, Repr

/-- Why a hoist is halted (R87, R193). -/
inductive HaltCause where
  | interlock
  | destLost
  | noBay
  | restart
  deriving DecidableEq, Repr

/-- A trip record (R87). -/
structure Trip where
  kind : TripKind
  mass : MassId
  source : BayId
  destination : BayId
  leg : Leg
  direction : Direction
  orderTag : Option Byte
  measured : Option Nat
  retargets : Nat
  resumePhase : Option Phase
  haltCause : Option HaltCause
  deriving DecidableEq, Repr

/-- Hold modes (R86, R193). -/
inductive HoldMode where
  | none
  | hold
  | step
  deriving DecidableEq, Repr

/-- What becomes of a held order when its trip ends (R121). -/
inductive OrderFate where
  /-- it returns to the list at position 0 -/
  | returned
  /-- it is discarded, the orders-dropped count unchanged -/
  | discarded
  /-- it is discarded and counted as dropped -/
  | counted
  deriving DecidableEq, Repr

/-- The withdrawal of a trip in ENGAGE (R86). ABANDON carries the fate its asking gives the held order (R103, R121; log 12). -/
inductive Withdrawal where
  | none
  | mismatch
  | abandon (fate : OrderFate)
  deriving DecidableEq, Repr

/-- Brake commands (R93). -/
inductive Brake where
  | set
  | release
  deriving DecidableEq, Repr

/-- Latch commands (R93). `opened` is OPEN, `closed` is CLOSE. -/
inductive LatchCommand where
  | opened
  | closed
  deriving DecidableEq, Repr

/-- A running timer: the second marks counted since its start, and the seconds it was set to (R51). -/
structure Timer where
  counted : Nat
  limit : Nat
  deriving DecidableEq, Repr

/-- Fault causes, in the order of their codes (R164, R193). -/
inductive FaultCause where
  | link
  | drive
  | position
  | encoder
  | overspeed
  | latch
  | timeoutEngage
  | timeoutRelease
  | timeoutApproach
  deriving DecidableEq, Repr

/-- The fault record of a hoist (R164). Bit n of the further causes stands for the cause of code n (R193). -/
structure FaultRecord where
  first : Option FaultCause
  detail : Option Nat
  phaseAt : Option Phase
  further : Option (BitVec 9)
  count : Nat
  deriving DecidableEq, Repr

/-- A Hoist Controller: the items of R86, R145, R162 and R164; the interlock level as this controller last took it (R61, log 8);
and whether its segment event falls on the present mark, or that of the coming mark has been taken (R50, log 2). -/
structure HoistCtl where
  phase : Phase
  active : Option Trip
  staged : Option Trip
  holdMode : HoldMode
  withdrawal : Withdrawal
  speedRef : Int
  brake : Brake
  latchCommand : LatchCommand
  latchLevel : Option Latch
  phaseReply : Option Nat
  phaseTimer : Option Timer
  dwellTimer : Option Timer
  noBay : Bool
  lateApproach : Nat
  able : Bool
  interlockSeen : Interlock
  vLim : Nat
  shareRead : Nat
  served : Nat
  checkSpeed : Nat
  overspeedRun : Nat
  fault : FaultRecord
  segmentDue : Bool
  segmentAhead : Bool
  deriving DecidableEq, Repr

/-! ### Order Queue and Trip Selector (spec/06) -/

/-- A move order (R115). A hoist field of `none` is ANY. -/
structure Order where
  mass : MassId
  destination : BayId
  hoist : Option HoistId
  tag : Byte
  deriving DecidableEq, Repr

/-- The Order Queue (R115): the list, position 0 first; the held orders by hoist and slot; the orders-dropped count. -/
structure OrderQueue where
  queue : List Order
  heldActive : Quad (Option Order)
  heldStaged : Quad (Option Order)
  dropped : Nat
  deriving DecidableEq, Repr

/-- The Trip Selector (R125). The waiting set is the set of able hoists, held as `HoistCtl.able` (log 24). -/
structure Selector where
  pointer : HoistId
  request : Bool
  serving : List HoistId
  deriving DecidableEq, Repr

/-! ### Power Allocator (spec/07) -/

/-- Plant modes, in the order of their codes (R139, R193). -/
inductive PlantMode where
  | standby
  | charge
  | discharge
  deriving DecidableEq, Repr

/-- The Power Allocator (R137), with what the Hoist Controllers have handed to it and it has not taken (R141, log 32),
and the mode changes each Hoist Controller has been asked to act on and has not taken, the earliest first (R134, log 33). -/
structure PowerAllocator where
  setpoint : Int
  mode : PlantMode
  eligible : Quad Bool
  share : Quad Nat
  total : Nat
  unserved : Nat
  handed : Quad Bool
  modeRequests : Quad (List PlantMode)
  deriving DecidableEq, Repr

/-! ### Hoist Link Port (spec/08, spec/11) -/

/-- Link states, in the order of their codes (R156, R193). -/
inductive LinkState where
  | down
  | proving
  | up
  | lost
  deriving DecidableEq, Repr

/-- A drive's reply (R158). -/
structure DriveReply where
  ready : Bool
  code : Nat
  load : Nat
  deriving DecidableEq, Repr

/-- A reference message (R157). -/
structure RefMessage where
  hoist : HoistId
  speed : Int
  brake : Brake
  latch : LatchCommand
  deriving DecidableEq, Repr

/-- A Hoist Link Port: the items of R156, the reply being assembled (R197), the latest reference message sent (R157), and whether
LINK_TIMEOUT has closed the segment whose segment event is still to be taken (log 6). -/
structure LinkPort where
  enabled : Bool
  state : LinkState
  proving : Nat
  missed : Nat
  segmentReply : Bool
  last : Option DriveReply
  replyErrors : Nat
  linkLosses : Nat
  buffer : List Byte
  gap : Nat
  sent : Option RefMessage
  closedAhead : Bool
  deriving DecidableEq, Repr

/-! ### Plant Link Port (spec/10) -/

/-- Line rates, by the setting of the strap pins (R181). -/
inductive LineRate where
  | baud115200
  | baud230400
  | baud460800
  | baud921600
  deriving DecidableEq, Repr

/-- The attention conditions present (R190). -/
structure Attention where
  faultedHoist : Bool
  haltedHoist : Bool
  barredBay : Bool
  missingMass : Bool
  unserved : Bool
  linkLost : Bool
  deriving DecidableEq, Repr

/-- Refusal reasons, in the order of their codes 1 to 12 (R184, R193). -/
inductive Reason where
  | origin
  | unknown
  | denied
  | range
  | noSuch
  | state
  | locked
  | conflict
  | full
  | sensor
  | unreachable
  | stopped
  deriving DecidableEq, Repr

/-- The status of a reply, with the reason of a refusal (R184). -/
inductive Status where
  | done
  | adjusted
  | refused (reason : Reason)
  deriving DecidableEq, Repr

/-- A reply frame but for its start byte and CRC (R184, R194): the first four fields, and the 24 result bytes. -/
structure Reply where
  originator : Byte
  code : Byte
  tag : Byte
  status : Status
  result : List Byte
  deriving DecidableEq, Repr

/-- A RESTART under way: which of the six have still to take it, and what its reply will report (R189). -/
structure RestartWork where
  queueDue : Bool
  powerDue : Bool
  hoistDue : Quad Bool
  discarded : Nat
  stagedDropped : Nat
  abandoned : Nat
  waiting : Nat
  halted : Nat
  deriving DecidableEq, Repr

/-- The Plant Link Port (R180), with the reply being sent (R184) and the RESTART under way (R189). -/
structure PlantPort where
  rate : LineRate
  buffer : List Byte
  gap : Nat
  inHand : Option Frame
  nextFrame : Option Frame
  sending : Option Reply
  restart : Option RestartWork
  attention : Attention
  changed : Bool
  lengthErrors : Nat
  characterErrors : Nat
  checkErrors : Nat
  overruns : Nat
  answered : Nat
  refusals : Nat
  deriving DecidableEq, Repr

/-! ### Parameters (spec/11, section 11.5) -/

/-- The plant parameters. -/
structure PlantParams where
  gravity : Nat
  datum : Nat
  minLift : Nat
  weighTol : Nat
  engageTo : Nat
  releaseTo : Nat
  approachTo : Nat
  dwellLimit : Nat
  syncWindow : Nat
  slipLimit : Nat
  driftLimit : Nat
  clearHeight : Nat
  approachDist : Nat
  stopTol : Nat
  pPlantMax : Nat
  unservedThresh : Nat
  bayFilter : Nat
  latchFilter : Nat
  linkTimeout : Nat
  deriving DecidableEq, Repr

/-- The parameters of one hoist. -/
structure HoistParams where
  vRated : Nat
  accel : Nat
  pRated : Nat
  tare : Nat
  c : Nat
  num : Nat
  den : Nat
  zHead : Nat
  creep : Nat
  vReposition : Nat
  vTransfer : Nat
  gear : Nat
  overspeedMargin : Nat
  loadEmptyMax : Nat
  deriving DecidableEq, Repr

/-- The power-on values of the plant parameters (section 11.5). -/
def PlantParams.powerOn : PlantParams :=
  { gravity := 9807, datum := 0, minLift := 50000, weighTol := 30, engageTo := 20, releaseTo := 20, approachTo := 30,
    dwellLimit := 600, syncWindow := 40, slipLimit := 250, driftLimit := 2000, clearHeight := 1500,
    approachDist := 1000, stopTol := 10, pPlantMax := 6000, unservedThresh := 100, bayFilter := 3, latchFilter := 2,
    linkTimeout := 3 }

/-- The power-on values of a hoist's parameters (section 11.5). -/
def HoistParams.powerOn : HoistParams :=
  { vRated := 3000, accel := 400, pRated := 1500, tare := 9500, c := 11, num := 16, den := 25, zHead := 1020000,
    creep := 100, vReposition := 2500, vTransfer := 1000, gear := 0, overspeedMargin := 150, loadEmptyMax := 10500 }

/-! ### The part and the machine -/

/-- The SX-4, block by block (spec/00). The Energy Accounts hold no state. `draws` is the model's own counter, which picks fresh free
values (log 21). -/
structure Chip where
  masses : Vector MassRecord 96
  bays : Vector BayRecord 64
  sensors : SensorBank
  units : Quad PositionUnit
  hoists : Quad HoistCtl
  selector : Selector
  orders : OrderQueue
  power : PowerAllocator
  links : Quad LinkPort
  port : PlantPort
  params : PlantParams
  hoistParams : Quad HoistParams
  draws : Nat
  deriving DecidableEq, Repr

/-- The machine: the commands that are waiting, first in first out, and the part. -/
structure State where
  pending : List Instr
  chip : Chip
  deriving DecidableEq, Repr

/-- Nothing the part can be sent stops it: every rule gives its command an effect, and no rule calls a behaviour undefined.
So no fault has a name. -/
inductive Fault where
  deriving DecidableEq, Repr

/-- The refusals of the model. -/
inductive Refusal where
  /-- Raised by the dispatcher for a command whose meaning is not written yet; safe, since the machine stops. No arm raises it. -/
  | notModelled (mnemonic : String)
  deriving DecidableEq, Repr

/-! ### Reset -/

/-- A filter line after power-on reset (R52). -/
def LineFilter.initial {α : Type} : LineFilter α := ⟨none, none⟩

/-- A filter group as a start leaves it: its first sample instant is the next mark (R55, R56). DESIGN CHOICE (log 44): the count of marks
since the last instant (R52), which no rule gives before there is one, is 0. -/
def FilterGroup.started : FilterGroup := { since := 0, fresh := true, due := false, ahead := false }

/-- The Sensor Filter Bank after power-on reset (R49, R52, R58). -/
def SensorBank.initial : SensorBank :=
  { mark := 0, bayLines := Vector.replicate 64 LineFilter.initial, latchLines := Quad.all LineFilter.initial,
    bayGroup := FilterGroup.started, latchGroup := FilterGroup.started, qualifier := .opened, closing := 0 }

/-- A Position Unit after power-on reset, given the levels of the first encoder sample (R63, R72). -/
def PositionUnit.initial (first : Channels) : PositionUnit :=
  { channels := first, count := 0, illegal := 0, previousCount := 0, elevation := 1020000, speed := 0, offset := 0,
    referenced := false, drift := 0, lastPulse := none, markers := [], missRun := 0, encoderErrors := 0,
    rangeCount := 0, slipWarnings := 0, missedMarkers := 0 }

/-- The fault record after power-on reset (R164). -/
def FaultRecord.initial : FaultRecord := { first := none, detail := none, phaseAt := none, further := none, count := 0 }

/-- A Hoist Controller after power-on reset (R86, R145, R162). -/
def HoistCtl.initial : HoistCtl :=
  { phase := .idle, active := none, staged := none, holdMode := .none, withdrawal := .none, speedRef := 0, brake := .set,
    latchCommand := .opened, latchLevel := none, phaseReply := none, phaseTimer := none, dwellTimer := none,
    noBay := false, lateApproach := 0, able := false, interlockSeen := .opened, vLim := 3000, shareRead := 0,
    served := 0, checkSpeed := 0, overspeedRun := 0, fault := FaultRecord.initial, segmentDue := false,
    segmentAhead := false }

/-- The Trip Selector after power-on reset (R125). -/
def Selector.initial : Selector := { pointer := 3, request := false, serving := [] }

/-- The Order Queue after power-on reset (R115). -/
def OrderQueue.initial : OrderQueue :=
  { queue := [], heldActive := Quad.all none, heldStaged := Quad.all none, dropped := 0 }

/-- The Power Allocator after power-on reset (R137). -/
def PowerAllocator.initial : PowerAllocator :=
  { setpoint := 0, mode := .standby, eligible := Quad.all false, share := Quad.all 0, total := 0, unserved := 0,
    handed := Quad.all false, modeRequests := Quad.all [] }

/-- A Hoist Link Port after power-on reset (R156). DESIGN CHOICE (log 44): no message has been sent, and the count of marks since the latest
byte of a reply (R197) is 0. -/
def LinkPort.initial : LinkPort :=
  { enabled := true, state := .down, proving := 0, missed := 0, segmentReply := false, last := none, replyErrors := 0,
    linkLosses := 0, buffer := [], gap := 0, sent := none, closedAhead := false }

/-- No attention condition is present (R180). -/
def Attention.empty : Attention :=
  { faultedHoist := false, haltedHoist := false, barredBay := false, missingMass := false, unserved := false,
    linkLost := false }

/-- The Plant Link Port after power-on reset, at the line rate the straps select (R180). -/
def PlantPort.initial (rate : LineRate) : PlantPort :=
  { rate := rate, buffer := [], gap := 0, inHand := none, nextFrame := none, sending := none, restart := none,
    attention := Attention.empty, changed := false, lengthErrors := 0, characterErrors := 0, checkErrors := 0,
    overruns := 0, answered := 0, refusals := 0 }

/-- The part after power-on reset, given the line rate of its straps and the first encoder samples. -/
def Chip.powerOn (rate : LineRate) (first : Quad Channels) : Chip :=
  { masses := Vector.replicate 96 MassRecord.empty, bays := Vector.replicate 64 BayRecord.unsurveyed,
    sensors := SensorBank.initial, units := Quad.tab fun h => PositionUnit.initial (first.get h),
    hoists := Quad.all HoistCtl.initial, selector := Selector.initial, orders := OrderQueue.initial,
    power := PowerAllocator.initial, links := Quad.all LinkPort.initial, port := PlantPort.initial rate,
    params := PlantParams.powerOn, hoistParams := Quad.all HoistParams.powerOn, draws := 0 }

/-- The machine right after power-on reset, with nothing waiting. The straps and the first encoder sample come from outside;
here DESIGN CHOICE, unsafe (log 4): strap setting 0 and both channels of every pair low. -/
def State.reset : State :=
  { pending := [], chip := Chip.powerOn .baud115200 (Quad.all ⟨false, false⟩) }

end Sys2Proof.Machine
end

