-- ==== Sys2Proof/Machine/Ops.lean ====
section
/-! DEFINITION. The named operations over the part's tables: reading and changing one record, entering a mass state (spec/01 R3, R4),
holding and giving up bays (spec/02 R33 to R35, R42), the held orders (spec/06 R120, R121), selection requests (R126) and timers (R51). -/

namespace Sys2Proof.Machine

/-- A count that stops at the top of its range instead of wrapping (spec/00, Numbers). -/
def satInc (top n : Nat) : Nat := if n < top then n + 1 else n

/-- A count of range 0 to 65,535 raised by one, saturating. -/
def satInc16 (n : Nat) : Nat := satInc 65535 n

/-! ### One record -/

def Chip.mass (p : Chip) (m : MassId) : MassRecord := p.masses[m]

def Chip.bay (p : Chip) (b : BayId) : BayRecord := p.bays[b]

def Chip.hoist (p : Chip) (h : HoistId) : HoistCtl := p.hoists.get h

def Chip.unit (p : Chip) (h : HoistId) : PositionUnit := p.units.get h

def Chip.link (p : Chip) (h : HoistId) : LinkPort := p.links.get h

/-- The parameters of hoist `h`. -/
def Chip.hp (p : Chip) (h : HoistId) : HoistParams := p.hoistParams.get h

def Chip.updMass (p : Chip) (m : MassId) (f : MassRecord → MassRecord) : Chip :=
  { p with masses := p.masses.set m (f (p.mass m)) }

def Chip.updBay (p : Chip) (b : BayId) (f : BayRecord → BayRecord) : Chip :=
  { p with bays := p.bays.set b (f (p.bay b)) }

def Chip.updHoist (p : Chip) (h : HoistId) (f : HoistCtl → HoistCtl) : Chip :=
  { p with hoists := p.hoists.set h (f (p.hoist h)) }

def Chip.updUnit (p : Chip) (h : HoistId) (f : PositionUnit → PositionUnit) : Chip :=
  { p with units := p.units.set h (f (p.unit h)) }

def Chip.updLink (p : Chip) (h : HoistId) (f : LinkPort → LinkPort) : Chip :=
  { p with links := p.links.set h (f (p.link h)) }

/-- Every slot of the Mass Table, in increasing number. -/
def massList : List MassId := List.finRange 96

/-- Every bay, in increasing number. -/
def bayList : List BayId := List.finRange 64

/-- A selection request is raised at the Trip Selector (R126). -/
def Chip.request (p : Chip) : Chip := { p with selector := { p.selector with request := true } }

/-- The accepted interlock level: open in states OPEN and QUALIFYING, closed in CLOSED (R57). -/
def Chip.interlock (p : Chip) : Interlock :=
  match p.sensors.qualifier with
  | .closed => .closed
  | _ => .opened

/-! ### Timers (R51) -/

/-- A timer set to `n` seconds, started: a timer set to 0 does not run. -/
def startTimer (n : Nat) : Option Timer := if n = 0 then none else some ⟨0, n⟩

/-- A second mark counted by a timer, if it runs. -/
def countSecond (t : Option Timer) : Option Timer := t.map fun t => { t with counted := t.counted + 1 }

/-- The timer has expired: it has counted the marks it was set to. -/
def expired (t : Option Timer) : Bool :=
  match t with
  | some t => decide (t.limit ≤ t.counted)
  | none => false

/-! ### Orders (R115, R120, R121) -/

/-- The held order of hoist `h`'s trip in a slot. -/
def Chip.held (p : Chip) (h : HoistId) (slot : Slot) : Option Order :=
  match slot with
  | .active => p.orders.heldActive.get h
  | .staged => p.orders.heldStaged.get h

def Chip.setHeld (p : Chip) (h : HoistId) (slot : Slot) (o : Option Order) : Chip :=
  match slot with
  | .active => { p with orders := { p.orders with heldActive := p.orders.heldActive.set h o } }
  | .staged => { p with orders := { p.orders with heldStaged := p.orders.heldStaged.set h o } }

/-- The held orders, of either slot. -/
def Chip.heldOrders (p : Chip) : List Order :=
  (hoistList.filterMap fun h => p.held h .active) ++ (hoistList.filterMap fun h => p.held h .staged)

/-- A queued order names the mass. -/
def Chip.queued (p : Chip) (m : MassId) : Bool := p.orders.queue.any fun o => decide (o.mass = m)

/-- The Mass Table's notice that mass `m` has entered MISSING, RETIRING or ABSENT: a queued order naming it is removed and
the orders-dropped count rises by one (R4, R120). -/
def Chip.notifyOrders (p : Chip) (m : MassId) : Chip :=
  if p.queued m then
    { p with orders := { p.orders with
        queue := p.orders.queue.filter fun o => decide (o.mass ≠ m), dropped := satInc16 p.orders.dropped } }
  else p

/-- What becomes of the held order of hoist `h`'s trip in a slot (R121): it returns to position 0 and raises a selection
request, is discarded, or is discarded and counted. -/
def Chip.endHeld (p : Chip) (h : HoistId) (slot : Slot) (fate : OrderFate) : Chip :=
  match p.held h slot with
  | none => p
  | some o =>
    let p := p.setHeld h slot none
    match fate with
    | .returned => { p with orders := { p.orders with queue := o :: p.orders.queue } }.request
    | .discarded => p
    | .counted => { p with orders := { p.orders with dropped := satInc16 p.orders.dropped } }

/-! ### Entering a mass state (R3), with what R4 hands over at the same event -/

/-- into PARKED from ABSENT (admission). -/
def Chip.massAdmitted (p : Chip) (m : MassId) (nominal : Nat) (b : BayId) : Chip :=
  (p.updMass m fun _ =>
    { state := .parked, nominal := some nominal, measured := none, bay := some b, lastBay := none, hoist := none,
      weighHold := false, lifts := 0 }).request

/-- into PARKED from MISSING (recovery). -/
def Chip.massFound (p : Chip) (m : MassId) (b : BayId) : Chip :=
  (p.updMass m fun r => { r with state := .parked, bay := some b, lastBay := none }).request

/-- into PARKED from ASSIGNED (a trip's reservation released). -/
def Chip.massReleased (p : Chip) (m : MassId) : Chip := (p.updMass m fun r => { r with state := .parked }).request

/-- into PARKED from ASSIGNED after a weighing mismatch: measured and weigh hold are set (R21, R22). -/
def Chip.massMismatched (p : Chip) (m : MassId) (measured : Option Nat) : Chip :=
  (p.updMass m fun r => { r with state := .parked, measured := measured, weighHold := true }).request

/-- into PARKED from ABOARD (release at a destination). -/
def Chip.massDelivered (p : Chip) (m : MassId) (b : BayId) : Chip :=
  (p.updMass m fun r =>
    { r with state := .parked, bay := some b, hoist := none, lifts := satInc16 r.lifts }).request

/-- into ASSIGNED from PARKED (staging). -/
def Chip.massAssigned (p : Chip) (m : MassId) : Chip := p.updMass m fun r => { r with state := .assigned }

/-- into ABOARD from ASSIGNED (weighing matched). -/
def Chip.massAboard (p : Chip) (m : MassId) (h : HoistId) (measured : Nat) : Chip :=
  p.updMass m fun r => { r with state := .aboard, hoist := some h, measured := some measured, bay := none }

/-- into RETIRING from PARKED. -/
def Chip.massRetiring (p : Chip) (m : MassId) : Chip :=
  (p.updMass m fun r => { r with state := .retiring }).notifyOrders m

/-- into MISSING from PARKED or ASSIGNED (lost from a bay). DESIGN CHOICE (log 43): the measured field is left as R3 leaves it, also where
the trip that ends had been weighed with a mismatch and its latch had not reopened (R2, R22, R104). -/
def Chip.massLostFromBay (p : Chip) (m : MassId) : Chip :=
  (p.updMass m fun r => { r with state := .missing, lastBay := r.bay, bay := none }).notifyOrders m

/-- into MISSING from ABOARD (trip abandoned on its loaded leg). -/
def Chip.massLostAboard (p : Chip) (m : MassId) : Chip :=
  (p.updMass m fun r => { r with state := .missing, lastBay := none, hoist := none }).notifyOrders m

/-- into ABSENT from RETIRING or MISSING. A weigh hold that was yes becomes no, and that raises a selection request (R126). -/
def Chip.massAbsent (p : Chip) (m : MassId) : Chip :=
  let q := (p.updMass m fun _ => MassRecord.empty).notifyOrders m
  if (p.mass m).weighHold then q.request else q

/-! ### Entering a bay state -/

/-- A bay enters OPEN, with no occupant, no cause and no holder, and raises a selection request (R43). -/
def Chip.openBay (p : Chip) (b : BayId) : Chip :=
  (p.updBay b fun r => { r with state := .opened, occupant := none, cause := none, holder := none }).request

/-- A bay is barred with a cause and no occupant; a hold on it ends. -/
def Chip.barBay (p : Chip) (b : BayId) (cause : BarredCause) : Chip :=
  p.updBay b fun r => { r with state := .barred, occupant := none, cause := some cause, holder := none }

/-- A bay becomes OCCUPIED with a mass as its occupant; a barring with its cause, and a hold, end. -/
def Chip.occupyBay (p : Chip) (b : BayId) (m : MassId) : Chip :=
  p.updBay b fun r => { r with state := .occupied, occupant := some m, cause := none, holder := none }

/-! ### Holds (R33 to R36, R42, R88) -/

/-- Hoist `h`'s trip in the slot holds bay `b` as its source. -/
def Chip.holdsSource (p : Chip) (h : HoistId) (slot : Slot) (b : BayId) : Bool :=
  decide ((p.bay b).state = .outbound ∧ (p.bay b).holder = some (h, slot))

/-- Hoist `h`'s trip in the slot holds bay `b` as its destination. -/
def Chip.holdsDestination (p : Chip) (h : HoistId) (slot : Slot) (b : BayId) : Bool :=
  decide ((p.bay b).state = .inbound ∧ (p.bay b).holder = some (h, slot))

/-- An OCCUPIED bay becomes the held source of a trip, keeping its occupant (R33). -/
def Chip.holdSource (p : Chip) (h : HoistId) (slot : Slot) (b : BayId) : Chip :=
  p.updBay b fun r => { r with state := .outbound, holder := some (h, slot) }

/-- An OPEN bay becomes the held destination of a trip (R33). -/
def Chip.holdDestination (p : Chip) (h : HoistId) (slot : Slot) (b : BayId) : Chip :=
  p.updBay b fun r => { r with state := .inbound, occupant := none, holder := some (h, slot) }

/-- A held source with its occupant is given up: it becomes OCCUPIED with the same occupant (R35).
A bay the trip no longer holds, and a source without its occupant, are left. -/
def Chip.giveUpSource (p : Chip) (h : HoistId) (slot : Slot) (b : BayId) : Chip :=
  if p.holdsSource h slot b && (p.bay b).occupant.isSome then
    p.updBay b fun r => { r with state := .occupied, holder := none }
  else p

/-- A held destination is given up: OPEN where its sensor reads EMPTY, BARRED (FOREIGN) where it reads OCCUPIED (R35).
A bay the trip no longer holds is left. -/
def Chip.giveUpDestination (p : Chip) (h : HoistId) (slot : Slot) (b : BayId) : Chip :=
  if p.holdsDestination h slot b then
    if (p.bay b).sensor = some .occupied then p.barBay b .foreign else p.openBay b
  else p

/-- An active trip ends while it still holds its source without occupant: the source is barred FOREIGN (R42). -/
def Chip.barClearedSource (p : Chip) (h : HoistId) (b : BayId) : Chip :=
  if p.holdsSource h .active b && (p.bay b).occupant.isNone then p.barBay b .foreign else p

/-- The holds of hoist `h`'s staged trip pass to its active slot at a promotion (R88, R91). -/
def Chip.moveHold (p : Chip) (h : HoistId) (b : BayId) : Chip :=
  if (p.bay b).holder = some (h, .staged) then p.updBay b fun r => { r with holder := some (h, .active) } else p

/-- The surveyed elevation of a bay; 0 where the bay is UNSURVEYED, which no rule reads. -/
def Chip.elevationOf (p : Chip) (b : BayId) : Nat := (p.bay b).elevation.getD 0

/-- Hoist `h` is in the access set of bay `b`. -/
def Chip.reaches (p : Chip) (h : HoistId) (b : BayId) : Bool :=
  match (p.bay b).access with
  | some set => set.getLsbD h.val
  | none => false

/-- The bay is surveyed and its service flag is no. -/
def Chip.nonService (p : Chip) (b : BayId) : Bool := decide ((p.bay b).service = some false)

/-- The distance between two elevations. -/
def apart (a b : Nat) : Nat := ((a : Int) - b).natAbs

end Sys2Proof.Machine
end

