-- ==== Sys2Proof/Machine/Flags.lean ====
section
/-! DEFINITION. What the blocks keep true to the records at the end of every event: the able item of each hoist (spec/05 R89), its brake
command (R93), the changes handed to the Power Allocator (spec/07 R141), and the attention conditions with CHANGED (spec/10 R190). -/

namespace Sys2Proof.Machine

/-- The conditions of R89 under which hoist `h` is able, with the interlock level as its controller last took it (log 8). -/
def Chip.ableLaw (p : Chip) (h : HoistId) : Bool :=
  let c := p.hoist h
  decide ((p.link h).state = .up ∧ (p.link h).enabled = true ∧ (p.unit h).referenced = true ∧
    c.holdMode ≠ .hold ∧ c.phase ≠ .faulted ∧ c.phase ≠ .halted ∧ c.interlockSeen = .closed ∧ c.staged = none)

/-- The active trip is in leg LOADED. -/
def HoistCtl.loaded (c : HoistCtl) : Bool :=
  match c.active with
  | some t => decide (t.leg = .loaded)
  | none => false

/-- The brake law of R93, for hoist `h` in a given phase. -/
def Chip.brakeIn (p : Chip) (h : HoistId) (phase : Phase) : Brake :=
  let c := p.hoist h
  if (phase = .travel ∨ phase = .approach) ∧ (p.link h).state = .up ∧ p.interlock = .closed ∧
      (c.loaded = true ∨ c.latchLevel = some .opened) then .release else .set

/-- The brake command R93 gives hoist `h`. -/
def Chip.brakeLaw (p : Chip) (h : HoistId) : Brake := p.brakeIn h (p.hoist h).phase

/-- What of a hoist the Power Allocator is told of when it changes: the phase, and the leg, kind, direction and load of the
active trip (R91, R106, R141). -/
def HoistCtl.powerView (c : HoistCtl) : Phase × Option (Leg × TripKind × Direction × MassId) :=
  (c.phase, c.active.map fun t => (t.leg, t.kind, t.direction, t.mass))

/-- What Hoist Controller `h` keeps true at the end of an event that began in `before`: able, and a selection request when the
hoist joins the waiting set (R89, R126); the brake command, and the reference held at 0 while it is SET (R93, R152; log 9);
a change handed to the Power Allocator (R141). -/
def Chip.keep (before p : Chip) (h : HoistId) : Chip :=
  let c := p.hoist h
  let able := p.ableLaw h
  let brake := p.brakeLaw h
  let p' := p.updHoist h fun c =>
    { c with able := able, brake := brake, speedRef := if brake = .set then 0 else c.speedRef }
  { p' with
    selector := { p'.selector with request := p'.selector.request || (able && !c.able) }
    power := { p'.power with
      handed := p'.power.handed.set h
        (p'.power.handed.get h || decide ((before.hoist h).powerView ≠ c.powerView)) } }

/-- The attention conditions, true to the records (R190). -/
def Chip.conditions (p : Chip) : Attention :=
  { faultedHoist := hoistList.any fun h => decide ((p.hoist h).phase = .faulted)
    haltedHoist := hoistList.any fun h => decide ((p.hoist h).phase = .halted)
    barredBay := p.bays.toList.any fun r =>
      decide (r.state = .barred ∧ (r.cause = some .foreign ∨ r.cause = some .lost))
    missingMass := p.masses.toList.any fun r => decide (r.state = .missing)
    unserved := decide (0 < p.power.unserved ∧ p.params.unservedThresh ≤ p.power.unserved)
    linkLost := hoistList.any fun h => decide ((p.link h).state = .lost) }

/-- Some condition is in the second set and not in the first: it has become present. -/
def Attention.rises (old new : Attention) : Bool :=
  (new.faultedHoist && !old.faultedHoist) || (new.haltedHoist && !old.haltedHoist) ||
  (new.barredBay && !old.barredBay) || (new.missingMass && !old.missingMass) ||
  (new.unserved && !old.unserved) || (new.linkLost && !old.linkLost)

/-- The conditions reported to the port: the set follows them, and a rise sets CHANGED (R190). -/
def Chip.report (p : Chip) : Chip :=
  let now := p.conditions
  { p with port := { p.port with
      attention := now, changed := p.port.changed || p.port.attention.rises now } }

/-- The end of an event that began in `before`: the four Hoist Controllers and the port keep their items true. -/
def Chip.finish (before p : Chip) : Chip :=
  (hoistList.foldl (Chip.keep before) p).report

/-- The attention line is asserted while CHANGED is set (R191). -/
def Chip.attentionLine (p : Chip) : Bool := p.port.changed

end Sys2Proof.Machine
end

