-- ==== Sys2Proof/Machine/Operands.lean ====
section
/-! DEFINITION. The operand forms of the plant commands (ranges, flags, sets; spec/11 R193), the coding of every value a reply carries
(R193, R195), the replies themselves (spec/10 R184), and the two ways a plant command is taken by its owner. -/

namespace Sys2Proof.Machine

/-! ### Reading payload fields -/

/-- A hoist field: 0 to 3. -/
def hoistOf (n : Nat) : Option HoistId := if h : n < 4 then some ⟨n, h⟩ else none

/-- A bay field: 0 to 63. -/
def bayOf (n : Nat) : Option BayId := if h : n < 64 then some ⟨n, h⟩ else none

/-- A mass field: mass numbers 1 to 96. -/
def massOf (n : Nat) : Option MassId := if h : 1 ≤ n ∧ n ≤ 96 then some ⟨n - 1, by omega⟩ else none

/-- A flag field: 0 for no or off, 1 for yes or on. -/
def flagOf (n : Nat) : Option Bool :=
  match n with
  | 0 => some false
  | 1 => some true
  | _ => none

/-- A hoist field that admits ANY or ALL: `some none` is 0xFF (R193). -/
def hoistOrAllOf (n : Nat) : Option (Option HoistId) :=
  if n = 255 then some none else (hoistOf n).map some

/-- A hold mode field (R193). -/
def holdModeOf (n : Nat) : Option HoldMode :=
  match n with
  | 0 => some .none
  | 1 => some .hold
  | 2 => some .step
  | _ => none

/-- Bit `n` of a mask byte (R193). -/
def maskHas (mask n : Nat) : Bool := mask.testBit n

/-! ### Codes (R193) -/

def MassState.code (x : MassState) : Nat :=
  match x with
  | .absent => 0 | .parked => 1 | .assigned => 2 | .aboard => 3 | .retiring => 4 | .missing => 5

def BayState.code (x : BayState) : Nat :=
  match x with
  | .unsurveyed => 0 | .opened => 1 | .occupied => 2 | .inbound => 3 | .outbound => 4 | .barred => 5

def Phase.code (x : Phase) : Nat :=
  match x with
  | .idle => 0 | .travel => 1 | .dwell => 2 | .approach => 3 | .engage => 4 | .release => 5 | .halted => 6 | .faulted => 7

def FaultCause.code (x : FaultCause) : Nat :=
  match x with
  | .link => 0 | .drive => 1 | .position => 2 | .encoder => 3 | .overspeed => 4 | .latch => 5
  | .timeoutEngage => 6 | .timeoutRelease => 7 | .timeoutApproach => 8

def BarredCause.code (x : BarredCause) : Nat :=
  match x with
  | .service => 0 | .foreign => 1 | .lost => 2

def HoldMode.code (x : HoldMode) : Nat :=
  match x with
  | .none => 0 | .hold => 1 | .step => 2

def TripKind.code (x : TripKind) : Nat :=
  match x with
  | .charge => 0 | .discharge => 1 | .directed => 2

def LinkState.code (x : LinkState) : Nat :=
  match x with
  | .down => 0 | .proving => 1 | .up => 2 | .lost => 3

def PlantMode.code (x : PlantMode) : Nat :=
  match x with
  | .standby => 0 | .charge => 1 | .discharge => 2

def Leg.code (x : Leg) : Nat :=
  match x with
  | .empty => 0 | .loaded => 1

def Direction.code (x : Direction) : Nat :=
  match x with
  | .up => 0 | .down => 1

def Slot.code (x : Slot) : Nat :=
  match x with
  | .active => 0 | .staged => 1

def Withdrawal.code (x : Withdrawal) : Nat :=
  match x with
  | .none => 0 | .mismatch => 1 | .abandon _ => 2

def HaltCause.code (x : HaltCause) : Nat :=
  match x with
  | .interlock => 0 | .destLost => 1 | .noBay => 2 | .restart => 3

def Occupancy.code (x : Occupancy) : Nat :=
  match x with
  | .empty => 0 | .occupied => 1

def Latch.code (x : Latch) : Nat :=
  match x with
  | .opened => 0 | .closed => 1

/-- The accepted interlock level: 0 open, 1 closed. -/
def interlockCode (x : Interlock) : Nat :=
  match x with
  | .opened => 0 | .closed => 1

/-- Brake commands take the codes of the reference message (R197). -/
def Brake.code (x : Brake) : Nat :=
  match x with
  | .set => 0 | .release => 1

/-- Latch commands take the codes of the reference message (R197). -/
def LatchCommand.code (x : LatchCommand) : Nat :=
  match x with
  | .opened => 0 | .closed => 1

def Reason.code (x : Reason) : Nat :=
  match x with
  | .origin => 1 | .unknown => 2 | .denied => 3 | .range => 4 | .noSuch => 5 | .state => 6 | .locked => 7
  | .conflict => 8 | .full => 9 | .sensor => 10 | .unreachable => 11 | .stopped => 12

def Status.code (x : Status) : Nat :=
  match x with
  | .done => 0 | .adjusted => 1 | .refused _ => 2

/-- The reason byte: the reason of a refusal, and none otherwise (R184, R193). -/
def Status.reasonCode (x : Status) : Nat :=
  match x with
  | .refused r => r.code
  | _ => 0

def flagCode (b : Bool) : Nat := if b then 1 else 0

/-- A mask byte from its bits, bit 0 first. -/
def maskOf (bits : List Bool) : Nat :=
  match bits with
  | [] => 0
  | b :: bs => flagCode b + 2 * maskOf bs

/-- The attention mask (R193). -/
def Attention.mask (a : Attention) : Nat :=
  maskOf [a.faultedHoist, a.haltedHoist, a.barredBay, a.missingMass, a.unserved, a.linkLost]

/-! ### Result bytes -/

/-- An unsigned field of `n` bytes; a value that does not fit stands as a free value (log 19). -/
def Chip.field (p : Chip) (n v : Nat) : List Byte :=
  if v < 256 ^ n then bigEndian n v else bigEndian n (Config.unfitting p.draws n v)

/-- A signed field of `n` bytes; a value that does not fit stands as a free value (log 19). -/
def Chip.signedField (p : Chip) (n : Nat) (x : Int) : List Byte :=
  if -(2 ^ (8 * n - 1) : Int) ≤ x ∧ x < 2 ^ (8 * n - 1) then bigEndianSigned n x
  else bigEndian n (Config.unfitting p.draws n x)

/-- One byte of a result. -/
def byteField (v : Nat) : List Byte := [BitVec.ofNat 8 v]

/-- 24 result bytes: those of the fields, and 0 where the layout gives no field (R195). -/
def resultBytes (l : List Byte) : List Byte := (l ++ List.replicate 24 0).take 24

/-! ### Replies (R184, R194) -/

/-- What an owning block answers: a status, and the result bytes of a command that was carried out. -/
structure Answer where
  status : Status
  result : List Byte
  deriving DecidableEq, Repr

/-- A refusal: its result bytes are 0 (R184). -/
def refuse (r : Reason) : Answer := ⟨.refused r, resultBytes []⟩

/-- The command is carried out. -/
def answerDone (fields : List Byte) : Answer := ⟨.done, resultBytes fields⟩

/-- DONE where the value was taken as given, DONE_ADJUSTED where it was changed. -/
def answerTaken (adjusted : Bool) (fields : List Byte) : Answer :=
  ⟨if adjusted then .adjusted else .done, resultBytes fields⟩

/-- The 32 bytes of a reply on the line (R184, R194). -/
def Reply.bytes (r : Reply) : List Byte :=
  withCrc (0x5A#8 :: r.originator :: r.code :: r.tag :: BitVec.ofNat 8 r.status.code ::
    BitVec.ofNat 8 r.status.reasonCode :: r.result)

/-- A status is a refusal. -/
def Status.isRefusal (x : Status) : Bool :=
  match x with
  | .refused _ => true
  | _ => false

/-- The reply composed from an answer to a frame: originator, code and tag as received, with the answer's status and result (R184). -/
def replyOf (f : Frame) (a : Answer) : Reply :=
  { originator := BitVec.ofNat 8 (f.byte 1), code := BitVec.ofNat 8 (f.byte 2), tag := BitVec.ofNat 8 (f.byte 3),
    status := a.status, result := a.result }

/-- The reply to the frame in hand is composed and its sending begins (R184): the answered count rises, and the refusal count
where the status is REFUSED. -/
def Chip.reply (p : Chip) (a : Answer) : Chip :=
  match p.port.inHand with
  | none => p
  | some f =>
    { p with
      draws := p.draws + 1
      port := { p.port with
        sending := some (replyOf f a)
        answered := satInc16 p.port.answered
        refusals := if a.status.isRefusal then satInc16 p.port.refusals else p.port.refusals } }

/-- The command that the port has handed to its owning block and that has not been taken: the frame in hand passed the port's checks,
so that no reply to it is under way, and no RESTART is under way (R184, R189). -/
def Chip.handedCommand (p : Chip) : Option Instr :=
  match p.port.inHand, p.port.sending, p.port.restart with
  | some f, none, none => f.command
  | _, _, _ => none

/-! ### The ends of a meaning -/

/-- The next state, with the part changed and the queue as it stands. -/
def State.act (s : State) (p : Chip) : Host.Outcome State Fault Refusal := .next { s with chip := p }

/-- An event takes its effect where its conditions hold; where they do not, the event named has not come about and nothing is
taken (log 1). -/
def State.event (s : State) (arises : Bool) (effect : Chip) : Host.Outcome State Fault Refusal :=
  if arises then s.act (s.chip.finish effect) else .next s

/-- A query that the port has handed to its owner is answered, and nothing else changes (R185, R186). -/
def State.query (s : State) (i : Instr) (answer : Answer) : Host.Outcome State Fault Refusal :=
  if s.chip.handedCommand = some i then s.act (s.chip.reply answer) else .next s

/-- A command that the port has handed to its owner is taken: a refused one changes nothing but the port's own items, one carried
out has its effect, and the reply's sending begins (R184, R186). -/
def State.command (s : State) (i : Instr) (taken : Chip × Answer) : Host.Outcome State Fault Refusal :=
  if s.chip.handedCommand = some i then
    if taken.2.status.isRefusal then s.act (s.chip.reply taken.2)
    else s.act ((s.chip.finish taken.1).reply taken.2)
  else .next s

end Sys2Proof.Machine
end

