-- ==== Sys2Proof/Machine/Position.lean ====
section
/-! DEFINITION. The Position Unit (spec/04): counting the drum, rope length, stretch and elevation, referencing, expected markers and
marker checks. What a fault does to the trip stands in Machine/Trips.lean. -/

namespace Sys2Proof.Machine

/-! ### Counting (R64 to R66) -/

/-- The place of a channel pair in the cycle (0,0), (1,0), (1,1), (0,1) of R64. -/
def channelPlace (c : Channels) : Nat :=
  match c.a, c.b with
  | false, false => 0
  | true, false => 1
  | true, true => 2
  | false, true => 3

/-- What a sample is, against the channel state (R64). -/
inductive Transition where
  | same
  | forward
  | backward
  | illegal
  deriving DecidableEq, Repr

def transitionOf (before sample : Channels) : Transition :=
  match (channelPlace sample + 4 - channelPlace before) % 4 with
  | 0 => .same
  | 1 => .forward
  | 3 => .backward
  | _ => .illegal

/-- The count moved by a step, held at the ends of its range, where the encoder error count rises (R66). -/
def PositionUnit.stepCount (u : PositionUnit) (d : Int) : PositionUnit :=
  if -2147483648 ≤ u.count + d ∧ u.count + d ≤ 2147483647 then { u with count := u.count + d }
  else { u with encoderErrors := satInc16 u.encoderErrors }

/-- A sample of the encoder taken by the unit (R64 to R66); whether it hands an ENCODER fault is `encoderFaults`. -/
def PositionUnit.sample (u : PositionUnit) (c : Channels) : PositionUnit :=
  let next := match transitionOf u.channels c with
    | .same => u
    | .forward => u.stepCount 1
    | .backward => u.stepCount (-1)
    | .illegal => { u with encoderErrors := satInc16 u.encoderErrors, illegal := satInc 2 u.illegal }
  { next with channels := c }

/-- The sample is an illegal transition that raises the illegal-in-segment count to 2, or a later one of the same segment (R65). -/
def PositionUnit.encoderFaults (u : PositionUnit) (c : Channels) : Bool :=
  decide (transitionOf u.channels c = .illegal ∧ 1 ≤ u.illegal)

/-! ### From count to elevation (R67, R70 to R72) -/

/-- The rope length L, truncated toward zero (R67). -/
def ropeLength (q : HoistParams) (count : Int) : Int := (count * q.num).tdiv q.den

/-- The stretch S of the rope under load `m` at rope length `l` (R71). -/
def stretch (q : HoistParams) (m : Nat) (l : Int) : Int :=
  if l ≤ 0 then 0 else ((q.c : Int) * m * l).tdiv 1000000000

/-- The load of the latest good reply, or TARE where no reply is held (R70). -/
def Chip.driveLoad (p : Chip) (h : HoistId) : Nat :=
  match (p.link h).last with
  | some r => r.load
  | none => (p.hp h).tare

/-- TARE in leg EMPTY, TARE and the trip's measured field in leg LOADED (R70). -/
def Chip.legLoad (p : Chip) (h : HoistId) (t : Trip) : Nat :=
  match t.leg with
  | .empty => (p.hp h).tare
  | .loaded => (p.hp h).tare + t.measured.getD 0

/-- The load M of a phase that is not HALTED or FAULTED, or of the phase a stopped hoist left (R70). -/
def Chip.phaseLoad (p : Chip) (h : HoistId) (phase : Phase) (t : Trip) : Nat :=
  match phase with
  | .engage | .release => p.driveLoad h
  | .idle => (p.hp h).tare
  | .travel | .approach | .dwell | .halted | .faulted => p.legLoad h t

/-- The load M of R70, as it stands. A FAULTED hoist with no active trip has TARE whatever its phase at fault (log 22). -/
def Chip.loadM (p : Chip) (h : HoistId) : Nat :=
  let c := p.hoist h
  match c.active with
  | none => (p.hp h).tare
  | some t =>
    match c.phase with
    | .halted => p.phaseLoad h (t.resumePhase.getD .travel) t
    | .faulted => p.phaseLoad h (c.fault.phaseAt.getD .travel) t
    | phase => p.phaseLoad h phase t

/-- The elevation before the clamp: Z_HEAD − L − S + O (R72). -/
def Chip.exactElevation (p : Chip) (h : HoistId) (count : Int) : Int :=
  let q := p.hp h
  let l := ropeLength q count
  (q.zHead : Int) - l - stretch q (p.loadM h) l + (p.unit h).offset

/-- A value clamped to the elevation range (R72). -/
def clampElevation (x : Int) : Nat := (max 0 (min x 1048575)).toNat

/-- The elevation of a count under the load, offset and parameters in force (R72). -/
def Chip.elevationAt (p : Chip) (h : HoistId) (count : Int) : Nat := clampElevation (p.exactElevation h count)

/-- Steps 1 to 5 of the Position Unit's segment event: elevation, position range count, measured speed, previous count (R72, R73);
the illegal-in-segment count returns to 0 (R65). -/
def Chip.computePosition (p : Chip) (h : HoistId) : Chip :=
  let u := p.unit h
  let exact := p.exactElevation h u.count
  let z := clampElevation exact
  let zBefore := p.elevationAt h u.previousCount
  p.updUnit h fun u =>
    { u with
      elevation := z
      rangeCount := if (z : Int) ≠ exact then satInc16 u.rangeCount else u.rangeCount
      speed := ((z : Int) - zBefore) * 20
      previousCount := u.count
      illegal := 0 }

/-! ### Referencing (R75, R81) -/

/-- The hoist becomes unreferenced: the marker states become IDLE and the run of misses 0; offset and drift are kept (R69, R81). -/
def Chip.unreference (p : Chip) (h : HoistId) : Chip :=
  p.updUnit h fun u => { u with referenced := false, markers := [], missRun := 0 }

/-- An offset, where it is in the range of R63; a free value of that range where it is not (log 20). -/
def Chip.offsetOf (p : Chip) (x : Int) : Int :=
  if -2147483648 ≤ x ∧ x ≤ 2147483647 then x else (Config.freeOffset p.draws x).toInt

/-- The hoist is referenced at elevation `e` (R75). The draws counter moves, as a free value may have been taken. -/
def Chip.referenceAt (p : Chip) (h : HoistId) (e : Nat) : Chip :=
  let q := p.hp h
  let l := ropeLength q (p.unit h).count
  let offset := p.offsetOf ((e : Int) - ((q.zHead : Int) - l - stretch q (p.loadM h) l))
  let p := p.updUnit h fun u =>
    { u with offset := offset, referenced := true, drift := 0, markers := [], missRun := 0 }
  { p.updUnit h fun u => { u with elevation := p.elevationAt h u.count } with draws := p.draws + 1 }

/-! ### Expected markers (R76) -/

/-- Hoist `h` has an expected marker at the elevation of bay `b`: the bay is surveyed and its access set holds `h`. -/
def Chip.marks (p : Chip) (h : HoistId) (b : BayId) : Bool := (p.bay b).elevation.isSome && p.reaches h b

/-- An elevation put in its place in a rising list without repeats. -/
def insertRising (e : Nat) (l : List Nat) : List Nat :=
  match l with
  | [] => [e]
  | x :: xs => if e < x then e :: x :: xs else if e = x then x :: xs else x :: insertRising e xs

/-- The expected markers of hoist `h`, in increasing elevation without repeats (R76). -/
def Chip.expectedMarkers (p : Chip) (h : HoistId) : List Nat :=
  (bayList.filter (p.marks h)).foldl (fun l b => insertRising (p.elevationOf b) l) []

/-- The bay that names the marker at elevation `e`: the lowest bay number there (R76). -/
def Chip.markerBay (p : Chip) (h : HoistId) (e : Nat) : Option BayId :=
  bayList.find? fun b => p.marks h b && decide (p.elevationOf b = e)

/-- The state of the marker at elevation `e`; a marker not listed is IDLE. -/
def markerState (l : List (Nat × MarkerState)) (e : Nat) : MarkerState :=
  match l with
  | [] => .idle
  | (x, st) :: rest => if x = e then st else markerState rest e

/-- The list of the markers of `expected` whose state is not IDLE, by a state for each. -/
def markerList (state : Nat → MarkerState) (expected : List Nat) : List (Nat × MarkerState) :=
  match expected with
  | [] => []
  | e :: es => if state e = .idle then markerList state es else (e, state e) :: markerList state es

/-- A re-survey: a marker that has ceased to be expected loses its state, one that stays expected keeps it (R76). -/
def Chip.pruneMarkers (p : Chip) (h : HoistId) : Chip :=
  p.updUnit h fun u => { u with markers := markerList (markerState u.markers) (p.expectedMarkers h) }

/-! ### Missed markers (R80, R81) -/

/-- The test of a marker that is ARMED or MET (R80): its new state, and whether it is missed. -/
def testMarker (sl zb z : Nat) (state : MarkerState) : MarkerState × Bool :=
  match state with
  | .idle => (.idle, false)
  | .armedBelow =>
    if zb + sl < z then (.idle, true) else if z + sl < zb then (.idle, false) else (.armedBelow, false)
  | .armedAbove =>
    if z + sl < zb then (.idle, true) else if zb + sl < z then (.idle, false) else (.armedAbove, false)
  | .met => if sl < apart z zb then (.idle, false) else (.met, false)

/-- The marker check of one marker (R80): an IDLE marker is armed where the span from `zp` to `z` comes within SLIP_LIMIT of it from
outside, and is then tested at once. -/
def checkMarker (sl zp z zb : Nat) (state : MarkerState) : MarkerState × Bool :=
  if state = .idle then
    if sl < apart zp zb ∧ min zp z ≤ zb + sl ∧ zb ≤ max zp z + sl then
      testMarker sl zb z (if zp < zb then .armedBelow else .armedAbove)
    else (.idle, false)
  else testMarker sl zb z state

/-- What a pass over the expected markers finds (R80, R81). -/
structure MarkerPass where
  states : List (Nat × MarkerState)
  run : Nat
  missed : Nat
  fault : Option Nat
  deriving DecidableEq, Repr

/-- The pass over the expected markers in increasing elevation. A miss that raises the run to 2 is the fault; the hoist is then
unreferenced, so the pass ends there (R81, log 15). -/
def passMarkers (sl zp z : Nat) (state : Nat → MarkerState) (run missed : Nat) (expected : List Nat) : MarkerPass :=
  match expected with
  | [] => { states := [], run := run, missed := missed, fault := none }
  | zb :: rest =>
    let r := checkMarker sl zp z zb (state zb)
    if r.2 && decide (1 ≤ run) then { states := [], run := 0, missed := satInc16 missed, fault := some zb }
    else
      let after := passMarkers sl zp z state (if r.2 then run + 1 else run)
        (if r.2 then satInc16 missed else missed) rest
      if r.1 = .idle ∨ after.fault.isSome then after else { after with states := (zb, r.1) :: after.states }

/-! ### Marker pulses (R77, R78) -/

/-- The elevation of `l` nearest to `z`, a tie going to the lower, where `l` rises. -/
def nearest (z : Nat) (l : List Nat) : Option Nat :=
  match l with
  | [] => none
  | e :: es =>
    match nearest z es with
    | none => some e
    | some x => if apart x z < apart e z then some x else some e

/-- The hoist is moving: at its latest segment event its speed reference or its measured speed was not 0 (R73). Before the first message
that reference is taken as 0 (log 44). -/
def Chip.moving (p : Chip) (h : HoistId) : Bool :=
  (match (p.link h).sent with
    | some m => decide (m.speed ≠ 0)
    | none => false) || decide ((p.unit h).speed ≠ 0)

/-- The pulse is ignored: the hoist is unreferenced, or fewer than 200 marks have come since the latest pulse taken (R77). -/
def Chip.pulseIgnored (p : Chip) (h : HoistId) : Bool :=
  let u := p.unit h
  !u.referenced || (match u.lastPulse with
    | some m => decide (p.sensors.mark < m + 200)
    | none => false)

/-- What a pulse taken at the marker `zb` comes to (R78). -/
inductive PulseOutcome where
  | correction
  | warnedCorrection
  | warning
  | fault
  deriving DecidableEq, Repr

/-- The table of R78, with the drift test of R79. -/
def Chip.pulseOutcome (p : Chip) (h : HoistId) (dev : Int) : PulseOutcome :=
  let passes := decide (((p.unit h).drift + dev).natAbs ≤ p.params.driftLimit)
  if dev.natAbs ≤ p.params.syncWindow then (if passes then .correction else .fault)
  else if dev.natAbs ≤ p.params.slipLimit then (if passes then .warnedCorrection else .fault)
  else if p.moving h then .fault else .warning

/-- The deviation added to offset and drift (R78). The draws counter moves, as a free value may have been taken. -/
def Chip.correctOffset (p : Chip) (h : HoistId) (dev : Int) : Chip :=
  let offset := p.offsetOf ((p.unit h).offset + dev)
  { p.updUnit h fun u => { u with offset := offset, drift := u.drift + dev } with draws := p.draws + 1 }

def Chip.warnSlip (p : Chip) (h : HoistId) : Chip :=
  p.updUnit h fun u => { u with slipWarnings := satInc16 u.slipWarnings }

/-- The run of misses becomes 0 and marker `zb` MET (R77, step 4). -/
def Chip.meetMarker (p : Chip) (h : HoistId) (zb : Nat) : Chip :=
  p.updUnit h fun u =>
    { u with
      missRun := 0
      markers := markerList (fun e => if e = zb then .met else markerState u.markers e) (p.expectedMarkers h) }

end Sys2Proof.Machine
end

