-- ==== Sys2Proof/Machine/BayCommands.lean ====
section
/-! DEFINITION. The commands of the Bay Table (spec/02, sections 2.2, 2.3 and 2.6): GET_BAY, NEXT_BAY, SURVEY_BAY, BAR_BAY, UNBAR_BAY. -/

namespace Sys2Proof.Machine

/-- The bay record in a reply (R44, R195). -/
def Chip.bayResult (p : Chip) (b : BayId) : List Byte :=
  let r := p.bay b
  byteField b.val ++ byteField r.state.code ++
    byteField (maskOf [r.elevation.isSome, r.access.isSome, r.service.isSome, r.occupant.isSome, r.cause.isSome,
      r.sensor.isSome, r.holder.isSome]) ++
    p.field 3 (r.elevation.getD 0) ++ byteField (r.access.getD 0).toNat ++ byteField (flagCode (r.service.getD false)) ++
    byteField ((r.occupant.map massNumber).getD 0) ++ byteField ((r.cause.map BarredCause.code).getD 0) ++
    byteField ((r.sensor.map Occupancy.code).getD 0) ++ byteField ((r.holder.map fun x => x.1.val).getD 0) ++
    byteField ((r.holder.map fun x => x.2.code).getD 0)

/-- GET_BAY taken by the Bay Table (R44). -/
def getBay (number : Nat) (p : Chip) : Answer :=
  match bayOf number with
  | none => refuse .range
  | some b => answerDone (p.bayResult b)

/-- GET_BAY (R44). -/
def execGetBay (number : Nat) (s : State) : Host.Outcome State Fault Refusal :=
  s.query (.getBay number) (getBay number s.chip)

/-- NEXT_BAY taken by the Bay Table (R45): only the six defined bits of the filter are read (R193). -/
def nextBay (start filter : Nat) (p : Chip) : Answer :=
  if bayOf start = none ∨ filter % 64 = 0 then refuse .range
  else
    match bayList.find? fun b => decide (start ≤ b.val) && maskHas filter (p.bay b).state.code with
    | some b => answerDone (p.bayResult b)
    | none => answerDone (byteField 255)

/-- NEXT_BAY (R45). -/
def execNextBay (start filter : Nat) (s : State) : Host.Outcome State Fault Refusal :=
  s.query (.nextBay start filter) (nextBay start filter s.chip)

/-- The survey fields of a bay set, and its state where it was UNSURVEYED (R29). -/
def Chip.survey (p : Chip) (b : BayId) (elevation : Nat) (access : BitVec 4) (service : Bool) : Chip :=
  let before := p.bay b
  let p := p.updBay b fun r =>
    { r with elevation := some elevation, access := some access, service := some service }
  let p := if before.state = .unsurveyed then
      (if before.sensor = some .occupied then p.barBay b .foreign else p.openBay b)
    else p
  hoistList.foldl Chip.pruneMarkers p

/-- SURVEY_BAY taken by the Bay Table (R28, R29). -/
def surveyBay (number elevation access service : Nat) (p : Chip) : Chip × Answer :=
  match bayOf number, flagOf service with
  | some b, some service =>
    if 1048575 < elevation ∨ access % 16 = 0 then (p, refuse .range)
    else if (p.bay b).state = .inbound ∨ (p.bay b).state = .outbound then (p, refuse .locked)
    else if (p.bay b).sensor = none then (p, refuse .sensor)
    else
      let p' := p.survey b elevation (BitVec.ofNat 4 access) service
      (p', answerDone (p'.bayResult b))
  | _, _ => (p, refuse .range)

/-- SURVEY_BAY (R28, R29). -/
def execSurveyBay (number elevation access service : Nat) (s : State) : Host.Outcome State Fault Refusal :=
  s.command (.surveyBay number elevation access service) (surveyBay number elevation access service s.chip)

/-- The occupant of a bay is RETIRING. -/
def Chip.occupantRetiring (p : Chip) (b : BayId) : Bool :=
  match (p.bay b).occupant with
  | some m => decide ((p.mass m).state = .retiring)
  | none => false

/-- A bay becomes BARRED with cause SERVICE, keeping any occupant (R30). -/
def Chip.barForService (p : Chip) (b : BayId) : Chip :=
  p.updBay b fun r => { r with state := .barred, cause := some .service }

/-- BAR_BAY taken by the Bay Table (R30). -/
def barBay (number : Nat) (p : Chip) : Chip × Answer :=
  match bayOf number with
  | none => (p, refuse .range)
  | some b =>
    let bar : Chip × Answer := (p.barForService b, answerDone ((p.barForService b).bayResult b))
    match (p.bay b).state with
    | .opened => bar
    | .occupied => if p.occupantRetiring b then (p, refuse .locked) else bar
    | .inbound | .outbound => (p, refuse .locked)
    | .barred =>
      if (p.bay b).cause = some .service then (p, answerDone (p.bayResult b)) else (p, refuse .state)
    | .unsurveyed => (p, refuse .state)

/-- BAR_BAY (R30). -/
def execBarBay (number : Nat) (s : State) : Host.Outcome State Fault Refusal :=
  s.command (.barBay number) (barBay number s.chip)

/-- The barring of a bay lifted, with the selection request that either result state raises (R31). -/
def Chip.liftBarring (p : Chip) (b : BayId) : Chip :=
  match (p.bay b).occupant with
  | some m => (p.occupyBay b m).request
  | none => p.openBay b

/-- UNBAR_BAY taken by the Bay Table (R31). -/
def unbarBay (number : Nat) (p : Chip) : Chip × Answer :=
  match bayOf number with
  | none => (p, refuse .range)
  | some b =>
    if (p.bay b).state ≠ .barred then (p, refuse .state)
    else if (p.bay b).sensor ≠ some (if (p.bay b).occupant.isSome then .occupied else .empty) then (p, refuse .sensor)
    else
      let p' := p.liftBarring b
      (p', answerDone (p'.bayResult b))

/-- UNBAR_BAY (R31). -/
def execUnbarBay (number : Nat) (s : State) : Host.Outcome State Fault Refusal :=
  s.command (.unbarBay number) (unbarBay number s.chip)

end Sys2Proof.Machine
end

