-- ==== Sys2Proof/Machine/Trips.lean ====
section
/-! DEFINITION. The trip machine of a Hoist Controller (spec/05): entry into phases, activation and promotion, weighing and release,
ending a trip early, re-targeting, halts; and taking a fault (spec/08 R165, R166). -/

namespace Sys2Proof.Machine

/-! ### Phases -/

/-- The phase is entered: the phase reply, being that of the phase left, becomes absent, and the timers of the phase left are
stopped (R86, R109; log 10). -/
def Chip.enterPhase (p : Chip) (h : HoistId) (phase : Phase) : Chip :=
  p.updHoist h fun c => { c with phase := phase, phaseReply := none, phaseTimer := none, dwellTimer := none }

/-- A stop: the speed reference becomes 0 at the event (R152). -/
def Chip.stopRef (p : Chip) (h : HoistId) : Chip := p.updHoist h fun c => { c with speedRef := 0 }

/-- The active trip changed. -/
def Chip.updActive (p : Chip) (h : HoistId) (f : Trip → Trip) : Chip :=
  p.updHoist h fun c => { c with active := c.active.map f }

/-- Entry into ENGAGE (R97): the latch command becomes CLOSE, the reference 0, and ENGAGE_TO starts. -/
def Chip.enterEngage (p : Chip) (h : HoistId) : Chip :=
  ((p.enterPhase h .engage).stopRef h).updHoist h fun c =>
    { c with latchCommand := .closed, phaseTimer := startTimer p.params.engageTo }

/-- Entry into RELEASE (R101): the latch command becomes OPEN, the reference 0, and RELEASE_TO starts. -/
def Chip.enterRelease (p : Chip) (h : HoistId) : Chip :=
  ((p.enterPhase h .release).stopRef h).updHoist h fun c =>
    { c with latchCommand := .opened, phaseTimer := startTimer p.params.releaseTo }

/-- Entry into TRAVEL toward a source (R91): the latch command becomes OPEN. -/
def Chip.enterTravelEmpty (p : Chip) (h : HoistId) : Chip :=
  (p.enterPhase h .travel).updHoist h fun c => { c with latchCommand := .opened }

/-- Entry into HALTED with a cause and a resume phase (R105, R107, R113): a stop; the latch command, the withdrawal and both trips
are kept. -/
def Chip.haltHoist (p : Chip) (h : HoistId) (cause : HaltCause) (resume : Phase) : Chip :=
  ((p.enterPhase h .halted).stopRef h).updActive h fun t =>
    { t with resumePhase := some resume, haltCause := some cause }

/-- The phase the hoist is in, or the one it left for HALTED or FAULTED. -/
def HoistCtl.workPhase (c : HoistCtl) : Phase :=
  match c.phase with
  | .halted => (match c.active with
    | some t => t.resumePhase.getD .halted
    | none => .halted)
  | .faulted => c.fault.phaseAt.getD .faulted
  | phase => phase

/-! ### Becoming active (R91) -/

/-- The elevation held from the latest segment event and the source elevation are within STOP_TOL of each other (R91). -/
def Chip.atSource (p : Chip) (h : HoistId) (t : Trip) : Bool :=
  decide (apart (p.unit h).elevation (p.elevationOf t.source) ≤ p.params.stopTol)

/-- The activation of the trip in the active slot (R91). `halt` is the halt cause of the trip that ended, taken while the hoist is
HALTED: the hoist stays HALTED with it. -/
def Chip.activate (p : Chip) (h : HoistId) (halt : Option HaltCause) : Chip :=
  match (p.hoist h).active with
  | none => p
  | some t =>
    let near := p.atSource h t
    if (p.hoist h).phase = .halted then
      (p.updActive h fun t =>
        { t with resumePhase := some (if near then .engage else .travel), haltCause := halt }).updHoist h fun c =>
          { c with latchCommand := if near then .closed else .opened }
    else if near then p.enterEngage h else p.enterTravelEmpty h

/-- The staged trip becomes the active one, with its holds and its held order (R88, R91, R115). -/
def Chip.promote (p : Chip) (h : HoistId) (t : Trip) (halt : Option HaltCause) : Chip :=
  let p := p.updHoist h fun c => { c with active := some t, staged := none }
  let p := (p.moveHold h t.source).moveHold h t.destination
  let p := (p.setHeld h .active (p.held h .staged)).setHeld h .staged none
  p.activate h halt

/-- The active trip leaves its slot. A hoist that was FAULTED stays FAULTED, and keeps the phase reply of that phase (R86, R111);
otherwise a staged trip is promoted, and with none the hoist becomes IDLE (R91, R102, R103). The NO_BAY indication, being that
of the trip, becomes no (log 11). -/
def Chip.endActive (p : Chip) (h : HoistId) : Chip :=
  let halt := (p.hoist h).active.bind fun t => t.haltCause
  let p := p.updHoist h fun c =>
    { c with
      active := none, withdrawal := .none, speedRef := 0, phaseTimer := none, dwellTimer := none, noBay := false }
  if (p.hoist h).phase = .faulted then p
  else match (p.hoist h).staged with
    | some t => p.promote h t halt
    | none => p.enterPhase h .idle

/-! ### Ending a trip early (R103, R104) -/

/-- The staged trip is dropped (R103), its held order meeting the given fate. -/
def Chip.dropStaged (p : Chip) (h : HoistId) (fate : OrderFate) : Chip :=
  match (p.hoist h).staged with
  | none => p
  | some t =>
    let p := p.updHoist h fun c => { c with staged := none }
    (((p.massReleased t.mass).giveUpSource h .staged t.source).giveUpDestination h .staged t.destination).endHeld
      h .staged fate

/-- The abandonment of the active trip in leg EMPTY waits for the latch (R103). -/
def HoistCtl.waitsForLatch (c : HoistCtl) : Bool :=
  decide (c.workPhase = .engage ∧ c.latchLevel ≠ some .opened)

/-- The end of an active trip in leg EMPTY before its time, its mass and bays having been dealt with (R103, R104): the phase reply
becomes absent, and the latch command OPEN where the hoist is in ENGAGE, or HALTED or FAULTED from it (R104). Of an abandonment that ends
it at once R93 states that for ENGAGE. It is the model's reading (log 40) for HALTED and FAULTED, and for one that RESTART asks for, where
R86, R93 and R113 also say that RESTART keeps the latch command. -/
def Chip.endEmpty (p : Chip) (h : HoistId) : Chip :=
  (p.updHoist h fun c =>
    { c with
      phaseReply := none
      latchCommand := if c.workPhase = .engage then .opened else c.latchCommand }).endActive h

/-- The completion of the abandonment of the active trip in leg EMPTY (R103); after a mismatch the mass returns with its measured
field and weigh hold set (R99). -/
def Chip.completeAbandon (p : Chip) (h : HoistId) (fate : OrderFate) (mismatch : Bool) : Chip :=
  match (p.hoist h).active with
  | none => p
  | some t =>
    let p := if mismatch then p.massMismatched t.mass t.measured else p.massReleased t.mass
    (((p.giveUpSource h .active t.source).giveUpDestination h .active t.destination).endHeld h .active fate).endEmpty h

/-- The active trip in leg EMPTY is asked to be abandoned (R103). A withdrawal under way is kept (R100); one that must wait for the latch
opens it and becomes ABANDON; otherwise the abandonment completes at once. -/
def Chip.abandon (p : Chip) (h : HoistId) (fate : OrderFate) : Chip :=
  let c := p.hoist h
  if c.withdrawal ≠ .none then p
  else if c.waitsForLatch then
    p.updHoist h fun c => { c with latchCommand := .opened, withdrawal := .abandon fate }
  else p.completeAbandon h fate false

/-- The abandonment under way completes at an acceptance of OPEN (R99, R100, R103). -/
def Chip.completeWithdrawal (p : Chip) (h : HoistId) : Chip :=
  match (p.hoist h).withdrawal with
  | .none => p
  | .mismatch => p.completeAbandon h .counted true
  | .abandon fate => p.completeAbandon h fate false

/-- The trip in the slot loses its source (R104): its destination is given up, its order discarded and counted, and it ends without the
release of the mass and the source. -/
def Chip.loseSource (p : Chip) (h : HoistId) (slot : Slot) : Chip :=
  match slot with
  | .staged => (match (p.hoist h).staged with
    | none => p
    | some t =>
      ((p.updHoist h fun c => { c with staged := none }).giveUpDestination h .staged t.destination).endHeld
        h .staged .counted)
  | .active => (match (p.hoist h).active with
    | none => p
    | some t =>
      ((p.giveUpDestination h .active t.destination).endHeld h .active .counted).endEmpty h)

/-! ### Re-targeting (R106, R135) -/

/-- The first element that no other precedes, by a strict order `before`. -/
def firstBy {α : Type} (before : α → α → Bool) (l : List α) : Option α :=
  match l with
  | [] => none
  | x :: xs =>
    match firstBy before xs with
    | none => some x
    | some y => if before y x then some y else some x

/-- The bay may be taken as the re-target destination of hoist `h` from the reference elevation (R135). -/
def Chip.retargetCandidate (p : Chip) (h : HoistId) (zr : Nat) (b : BayId) : Bool :=
  let e := p.elevationOf b
  decide ((p.bay b).state = .opened) && p.nonService b && p.reaches h b &&
    decide (p.params.approachDist < apart e zr) &&
    (match p.power.mode with
      | .charge => decide (zr < e)
      | .discharge => decide (e < zr)
      | .standby => true)

/-- The bay of the re-target rule: the candidate nearest to the reference elevation, a tie going to the lower number (R135). -/
def Chip.retargetBay (p : Chip) (h : HoistId) (zr : Nat) : Option BayId :=
  firstBy (fun b b' => decide (apart (p.elevationOf b) zr < apart (p.elevationOf b') zr))
    (bayList.filter (p.retargetCandidate h zr))

/-- The kind a re-target gives, by the plant mode (R106). -/
def PlantMode.retargetKind (m : PlantMode) : TripKind :=
  match m with
  | .charge => .charge
  | .discharge => .discharge
  | .standby => .directed

/-- UP where the bay's elevation is above the reference elevation, DOWN otherwise (R87, R106). -/
def Chip.directionTo (p : Chip) (zr : Nat) (b : BayId) : Direction :=
  if zr < p.elevationOf b then .up else .down

/-- The active trip's destination replaced by bay `b` (R106, R112): the old one, if still held, is given up and the new one held. -/
def Chip.takeDestination (p : Chip) (h : HoistId) (t : Trip) (zr : Nat) (b : BayId) (kind : TripKind) : Chip :=
  let direction := p.directionTo zr b
  let p := (p.giveUpDestination h .active t.destination).holdDestination h .active b
  (p.updActive h fun t =>
    { t with destination := b, direction := direction, kind := kind, retargets := satInc 255 t.retargets }).updHoist
      h fun c => { c with noBay := false }

/-- The re-target of hoist `h`'s active trip from a reference elevation (R106); none where the rule gives no bay. -/
def Chip.retargetFrom (p : Chip) (h : HoistId) (t : Trip) (zr : Nat) : Option Chip :=
  (p.retargetBay h zr).map fun b => p.takeDestination h t zr b p.power.mode.retargetKind

/-- The reference elevation of a re-target: z for a loaded leg, the source elevation for an empty leg (R106). -/
def Chip.referenceElevation (p : Chip) (h : HoistId) (t : Trip) : Nat :=
  match t.leg with
  | .loaded => (p.unit h).elevation
  | .empty => p.elevationOf t.source

/-- The NO_BAY indication is set (R96, R105, R108; log 11). -/
def Chip.setNoBay (p : Chip) (h : HoistId) : Chip := p.updHoist h fun c => { c with noBay := true }

/-- The trip in the slot loses its destination (R105). -/
def Chip.loseDestination (p : Chip) (h : HoistId) (slot : Slot) : Chip :=
  match slot with
  | .staged => p.dropStaged h .returned
  | .active => (match (p.hoist h).active with
    | none => p
    | some t =>
      match t.leg with
      | .empty => (match p.retargetFrom h t (p.elevationOf t.source) with
        | some p' => p'
        | none => (p.setNoBay h).abandon h .returned)
      | .loaded => (match (p.hoist h).phase with
        | .travel | .dwell => (match p.retargetFrom h t (p.unit h).elevation with
          | some p' => p'
          | none => (p.setNoBay h).haltHoist h .noBay .travel)
        | .approach => p.haltHoist h .destLost .approach
        | .halted => p.updActive h fun t => { t with haltCause := some .destLost }
        | .faulted | .idle | .engage | .release => p))

/-! ### Taking a fault (R165, R166) -/

/-- A further cause added to the set (R166). -/
def addCause (set : BitVec 9) (cause : FaultCause) : BitVec 9 := set ||| (1#9 <<< cause.code)

/-- A fault is taken by Hoist Controller `h`: as fault entry (R165), or as a further fault on a hoist already FAULTED (R166). -/
def Chip.takeFault (p : Chip) (h : HoistId) (cause : FaultCause) (detail : Option Nat) : Chip :=
  let c := p.hoist h
  if c.phase = .faulted then
    p.updHoist h fun c =>
      { c with fault := { c.fault with further := some (addCause (c.fault.further.getD 0) cause) } }
  else
    let phaseAt := c.workPhase
    let p := ((p.dropStaged h .returned).enterPhase h .faulted).stopRef h
    (p.updActive h fun t => { t with resumePhase := none, haltCause := none }).updHoist h fun c =>
      { c with fault :=
          { first := some cause, detail := detail, phaseAt := some phaseAt, further := some 0,
            count := satInc 255 c.fault.count } }

/-- A POSITION or ENCODER fault makes the hoist unreferenced at the event that raises it (R81). -/
def Chip.takePositionFault (p : Chip) (h : HoistId) (cause : FaultCause) (detail : Option Nat) : Chip :=
  (p.unreference h).takeFault h cause detail

/-! ### ENGAGE and RELEASE (R97 to R102) -/

/-- The weighing of an engage that is complete: the load measured, where ENGAGE's completion conditions hold (R97). -/
def Chip.engageMeasured (p : Chip) (h : HoistId) (t : Trip) : Option Nat :=
  let c := p.hoist h
  let nominal := (p.mass t.mass).nominal.getD 0
  match c.phaseReply with
  | none => none
  | some load =>
    if c.phase = .engage ∧ c.withdrawal = .none ∧ c.latchLevel = some .closed ∧
        (p.hp h).tare + nominal / 2 ≤ load then some (load - (p.hp h).tare) else none

/-- A weighing matches the nominal (R98). -/
def Chip.weighingMatches (p : Chip) (t : Trip) (measured : Nat) : Bool :=
  let nominal := (p.mass t.mass).nominal.getD 0
  decide (apart measured nominal * 1000 ≤ p.params.weighTol * nominal)

/-- The source of an engaged trip loses its occupant and stays OUTBOUND, held (R34). -/
def Chip.emptySource (p : Chip) (b : BayId) : Chip := p.updBay b fun r => { r with occupant := none }

/-- A matching weighing (R98). An order ceases to be held (R121). -/
def Chip.weighMatch (p : Chip) (h : HoistId) (t : Trip) (measured : Nat) : Chip :=
  let p := ((p.massAboard t.mass h measured).emptySource t.source).setHeld h .active none
  (p.enterPhase h .travel).updActive h fun t => { t with measured := some measured, leg := .loaded }

/-- A mismatching weighing (R99): the latch is opened and the withdrawal becomes MISMATCH; the hoist stays in ENGAGE. -/
def Chip.weighMismatch (p : Chip) (h : HoistId) (measured : Nat) : Chip :=
  (p.updActive h fun t => { t with measured := some measured }).updHoist h fun c =>
    { c with latchCommand := .opened, withdrawal := .mismatch }

/-- The completion test of ENGAGE (R97 to R99). -/
def Chip.engageTest (p : Chip) (h : HoistId) : Chip :=
  match (p.hoist h).active with
  | none => p
  | some t =>
    match p.engageMeasured h t with
    | none => p
    | some measured => if p.weighingMatches t measured then p.weighMatch h t measured else p.weighMismatch h measured

/-- RELEASE's completion conditions hold (R101). -/
def Chip.releaseComplete (p : Chip) (h : HoistId) (t : Trip) : Bool :=
  let c := p.hoist h
  decide (c.phase = .release ∧ c.latchLevel = some .opened ∧ (p.bay t.destination).sensor = some .occupied) &&
    (match c.phaseReply with
      | some load => decide (load ≤ (p.hp h).loadEmptyMax)
      | none => false)

/-- The completion of a release (R102). -/
def Chip.completeRelease (p : Chip) (h : HoistId) (t : Trip) : Chip :=
  let p := ((p.massDelivered t.mass t.destination).occupyBay t.destination t.mass).barClearedSource h t.source
  let p := if (p.hoist h).holdMode = .step then
    (p.updHoist h fun c => { c with holdMode := .hold }).dropStaged h .returned else p
  p.endActive h

/-- The completion test of RELEASE (R101, R102). -/
def Chip.releaseTest (p : Chip) (h : HoistId) : Chip :=
  match (p.hoist h).active with
  | none => p
  | some t => if p.releaseComplete h t then p.completeRelease h t else p

/-- The completion test of the phase the hoist is in. -/
def Chip.completionTest (p : Chip) (h : HoistId) : Chip :=
  match (p.hoist h).phase with
  | .engage => p.engageTest h
  | .release => p.releaseTest h
  | _ => p

end Sys2Proof.Machine
end

