-- ==== Sys2Proof/Machine/Energy.lean ====
section
/-! DEFINITION. The Energy Accounts (spec/09): energies and totals, and the command GET_ENERGY. -/

namespace Sys2Proof.Machine

/-- m × g × max(0, z − DATUM) / 10⁹, truncated (R171). -/
def Chip.energyOf (p : Chip) (m z : Nat) : Nat := m * p.params.gravity * (z - p.params.datum) / 1000000000

/-- The mass reckoned: measured where present, and nominal where not (R171). -/
def MassRecord.weight (r : MassRecord) : Nat := r.measured.getD (r.nominal.getD 0)

/-- The stored energy of a mass (R171, R172). -/
def Chip.storedEnergy (p : Chip) (m : MassId) : Nat :=
  let r := p.mass m
  match r.state with
  | .parked | .assigned | .retiring => (match r.bay with
    | some b => p.energyOf r.weight (p.elevationOf b)
    | none => 0)
  | .aboard => (match r.hoist with
    | some h => p.energyOf r.weight (p.unit h).elevation
    | none => 0)
  | .missing | .absent => 0

/-- A mass rests in a bay (R173). -/
def MassState.resting (x : MassState) : Bool :=
  match x with
  | .parked | .assigned | .retiring => true
  | .aboard | .missing | .absent => false

/-- A mass counts in the upper bound (R174). -/
def MassState.counted (x : MassState) : Bool :=
  match x with
  | .parked | .assigned | .aboard | .retiring => true
  | .missing | .absent => false

/-- The sum of a figure over the masses whose state is chosen. -/
def Chip.sumOver (p : Chip) (chosen : MassState → Bool) (f : MassId → Nat) : Nat :=
  ((massList.filter fun m => chosen (p.mass m).state).map f).sum

/-- The resting energy (R173). -/
def Chip.restingEnergy (p : Chip) : Nat := p.sumOver MassState.resting p.storedEnergy

/-- The aboard energy (R173). -/
def Chip.aboardEnergy (p : Chip) : Nat := p.sumOver (fun x => decide (x = .aboard)) p.storedEnergy

/-- The stored total: the sum of the two parts (R173). -/
def Chip.storedTotal (p : Chip) : Nat := p.restingEnergy + p.aboardEnergy

/-- The bay that gives z_top: the surveyed non-service bay with the highest elevation, the lower number first (R174, R177). -/
def Chip.topBay (p : Chip) : Option BayId :=
  firstBy (fun b b' => decide (p.elevationOf b' < p.elevationOf b)) (bayList.filter p.nonService)

/-- z_top; absent where no surveyed bay is non-service (R174). -/
def Chip.zTop (p : Chip) : Option Nat := p.topBay.map p.elevationOf

/-- The upper bound (R174). -/
def Chip.upperBound (p : Chip) : Nat :=
  match p.zTop with
  | none => 0
  | some z => p.sumOver MassState.counted fun m => p.energyOf (p.mass m).weight z

/-- The headroom: the upper bound less the stored total, and 0 where that would be negative (R175). -/
def Chip.headroom (p : Chip) : Nat := p.upperBound - p.storedTotal

/-- The number of masses whose state is chosen. -/
def Chip.countMasses (p : Chip) (chosen : MassState → Bool) : Nat :=
  (massList.filter fun m => chosen (p.mass m).state).length

/-- GET_ENERGY taken by the Energy Accounts (R177, R195, R196). -/
def getEnergy (page : Nat) (p : Chip) : Answer :=
  if page = 0 then
    answerDone (p.field 6 p.storedTotal ++ p.field 6 p.restingEnergy ++ p.field 6 p.aboardEnergy)
  else
    answerDone (p.field 6 p.upperBound ++ p.field 6 p.headroom ++ p.field 3 (p.zTop.getD 0) ++
      byteField (flagCode p.zTop.isSome) ++ byteField ((p.topBay.map fun b => b.val).getD 0) ++
      byteField (p.countMasses MassState.counted) ++ byteField (p.countMasses fun x => decide (x = .missing)) ++
      p.field 2 p.params.gravity ++ p.field 3 p.params.datum)

/-- GET_ENERGY (R177). -/
def execGetEnergy (page : Nat) (s : State) : Host.Outcome State Fault Refusal :=
  s.query (.getEnergy page) (getEnergy page s.chip)

end Sys2Proof.Machine
end

