-- ==== Sys2Proof/Machine/HoistCommands.lean ====
section
/-! DEFINITION. The commands that act on hoists and their trips (spec/05, 5.8 and 5.9; spec/04 R74, R75; spec/08, 8.6): HOLD_HOIST, RESUME,
ABANDON_TRIP, RETARGET, REFERENCE_HOIST, CLEAR_FAULT, ENABLE_HOIST. -/

namespace Sys2Proof.Machine

/-- The trip record in a reply: the form of GET_HOIST pages 1 and 2 (R114, R195). -/
def Chip.tripResult (p : Chip) (t : Option Trip) : List Byte :=
  match t with
  | none => []
  | some t =>
    byteField (maskOf [true, t.orderTag.isSome, t.measured.isSome, t.resumePhase.isSome, t.haltCause.isSome]) ++
      byteField t.kind.code ++ byteField (massNumber t.mass) ++ byteField t.source.val ++
      byteField t.destination.val ++ byteField t.leg.code ++ byteField t.direction.code ++ [t.orderTag.getD 0] ++
      p.field 3 (t.measured.getD 0) ++ p.field 1 t.retargets ++
      byteField ((t.resumePhase.map Phase.code).getD 0) ++ byteField ((t.haltCause.map HaltCause.code).getD 0)

/-! ### HOLD_HOIST (R110) -/

/-- HOLD_HOIST taken by the Hoist Controller (R110). -/
def holdHoist (hoist mode : Nat) (p : Chip) : Chip × Answer :=
  match hoistOf hoist, holdModeOf mode with
  | some h, some m =>
    (p.updHoist h fun c => { c with holdMode := m }, answerDone (byteField h.val ++ byteField m.code))
  | _, _ => (p, refuse .range)

/-- HOLD_HOIST (R110). -/
def execHoldHoist (hoist mode : Nat) (s : State) : Host.Outcome State Fault Refusal :=
  s.command (.holdHoist hoist mode) (holdHoist hoist mode s.chip)

/-! ### RESUME (R108) -/

/-- Steps 2 and 3 of a resumption: the phase re-entered, and the resume phase and halt cause absent (R108). -/
def Chip.reenter (p : Chip) (h : HoistId) (resume : Phase) : Chip :=
  let p := match resume with
    | .engage => (p.enterPhase h .engage).updHoist h fun c => { c with phaseTimer := startTimer p.params.engageTo }
    | .release => (p.enterPhase h .release).updHoist h fun c => { c with phaseTimer := startTimer p.params.releaseTo }
    | _ => p.enterPhase h .travel
  p.updActive h fun t => { t with resumePhase := none, haltCause := none }

/-- One hoist resumed (R108). A HALTED hoist has an active trip with a resume phase (R86, R87; log 29). -/
def Chip.resumeHoist (p : Chip) (h : HoistId) : Chip :=
  match (p.hoist h).active with
  | none => p
  | some t =>
    let resume := t.resumePhase.getD .travel
    if p.holdsDestination h .active t.destination then p.reenter h resume
    else
      match p.retargetFrom h t (p.referenceElevation h t) with
      | some p' => p'.reenter h resume
      | none => (p.setNoBay h).updActive h fun t => { t with haltCause := some .noBay }

/-- The hoist is HALTED and its link UP: RESUME(ALL) acts on it (R108). -/
def Chip.resumable (p : Chip) (h : HoistId) : Bool :=
  decide ((p.hoist h).phase = .halted ∧ (p.link h).state = .up)

/-- The halt cause of hoist `h`'s active trip. -/
def Chip.haltCauseOf (p : Chip) (h : HoistId) : Option HaltCause := (p.hoist h).active.bind fun t => t.haltCause

/-- The result of RESUME: what was done to the hoists acted on (R108, R195). -/
def Chip.resumeResult (p : Chip) (acted : HoistId → Bool) : List Byte :=
  byteField (maskOf (hoistList.map acted)) ++
    byteField (maskOf (hoistList.map fun h => acted h && (p.haltCauseOf h).isSome)) ++
    hoistList.flatMap fun h =>
      if acted h then
        byteField (p.hoist h).phase.code ++ byteField (((p.haltCauseOf h).map HaltCause.code).getD 0)
      else byteField 0 ++ byteField 0

/-- RESUME taken by the Hoist Controllers (R108); with ALL in increasing hoist number (log 13). -/
def resume (hoist : Nat) (p : Chip) : Chip × Answer :=
  match hoistOrAllOf hoist with
  | none => (p, refuse .range)
  | some (some h) =>
    if p.interlock = .opened ∨ p.resumable h = false then (p, refuse .state)
    else
      let p' := p.resumeHoist h
      (p', answerDone (p'.resumeResult fun k => decide (k = h)))
  | some none =>
    if p.interlock = .opened then (p, refuse .stopped)
    else if hoistList.all (fun h => !p.resumable h) then (p, refuse .state)
    else
      let p' := (hoistList.filter p.resumable).foldl Chip.resumeHoist p
      (p', answerDone (p'.resumeResult p.resumable))

/-- RESUME (R108). -/
def execResume (hoist : Nat) (s : State) : Host.Outcome State Fault Refusal :=
  s.command (.resume hoist) (resume hoist s.chip)

/-! ### ABANDON_TRIP (R111) -/

/-- The active trip in leg LOADED ends at once (R111): the mass is lost, the bays still held are given up or barred. -/
def Chip.abandonLoaded (p : Chip) (h : HoistId) (t : Trip) : Chip :=
  (((p.massLostAboard t.mass).giveUpDestination h .active t.destination).barClearedSource h t.source).endActive h

/-- The staged trip is dropped, and the active one abandoned or ended by its leg (R111). -/
def Chip.abandonTrip (p : Chip) (h : HoistId) (t : Trip) : Chip :=
  let p := p.dropStaged h .returned
  match t.leg with
  | .empty => p.abandon h .discarded
  | .loaded => p.abandonLoaded h t

/-- ABANDON_TRIP taken by the Hoist Controller (R111). -/
def abandonTrip (hoist : Nat) (p : Chip) : Chip × Answer :=
  match hoistOf hoist with
  | none => (p, refuse .range)
  | some h =>
    if (p.hoist h).phase ≠ .faulted ∧ (p.hoist h).phase ≠ .halted then (p, refuse .state)
    else match (p.hoist h).active with
      | none => (p, refuse .noSuch)
      | some t =>
        let p' := p.abandonTrip h t
        (p', answerDone (byteField h.val ++ byteField (p'.hoist h).phase.code ++
          byteField (p'.hoist h).withdrawal.code))

/-- ABANDON_TRIP (R111). -/
def execAbandonTrip (hoist : Nat) (s : State) : Host.Outcome State Fault Refusal :=
  s.command (.abandonTrip hoist) (abandonTrip hoist s.chip)

/-! ### RETARGET (R112) -/

/-- RETARGET taken by the Hoist Controller (R112). -/
def retarget (hoist bay : Nat) (p : Chip) : Chip × Answer :=
  match hoistOf hoist, bayOf bay with
  | some h, some b =>
    if (p.hoist h).phase ≠ .faulted ∧ (p.hoist h).phase ≠ .halted then (p, refuse .state)
    else (match (p.hoist h).active with
      | none => (p, refuse .noSuch)
      | some t =>
        if t.leg = .empty then (p, refuse .state)
        else if (p.hoist h).workPhase = .release then (p, refuse .locked)
        else if (p.bay b).state ≠ .opened then (p, refuse .state)
        else if p.reaches h b = false then (p, refuse .unreachable)
        else
          let p' := p.takeDestination h t (p.unit h).elevation b .directed
          (p', answerDone (p'.tripResult (p'.hoist h).active)))
  | _, _ => (p, refuse .range)

/-- RETARGET (R112). -/
def execRetarget (hoist bay : Nat) (s : State) : Host.Outcome State Fault Refusal :=
  s.command (.retarget hoist bay) (retarget hoist bay s.chip)

/-! ### REFERENCE_HOIST (R74, R75) -/

/-- REFERENCE_HOIST taken by the Position Unit (R74, R75). -/
def referenceHoist (hoist bay : Nat) (p : Chip) : Chip × Answer :=
  match hoistOf hoist, bayOf bay with
  | some h, some b =>
    if (p.bay b).state = .unsurveyed then (p, refuse .state)
    else if p.reaches h b = false then (p, refuse .unreachable)
    else if (p.hoist h).phase ≠ .idle ∧ (p.hoist h).phase ≠ .faulted then (p, refuse .locked)
    else
      let p' := p.referenceAt h (p.elevationOf b)
      (p', answerDone (byteField h.val ++ p.signedField 4 (p'.unit h).offset ++ p.field 3 (p'.unit h).elevation))
  | _, _ => (p, refuse .range)

/-- REFERENCE_HOIST (R74, R75). -/
def execReferenceHoist (hoist bay : Nat) (s : State) : Host.Outcome State Fault Refusal :=
  s.command (.referenceHoist hoist bay) (referenceHoist hoist bay s.chip)

/-! ### CLEAR_FAULT (R167) -/

/-- The fault record cleared but for the fault count (R167). -/
def FaultRecord.cleared (f : FaultRecord) : FaultRecord :=
  { first := none, detail := none, phaseAt := none, further := none, count := f.count }

/-- A fault cleared (R167): the hoist enters HALTED with an active trip, and IDLE without. -/
def Chip.clearFault (p : Chip) (h : HoistId) : Chip :=
  let phaseAt := (p.hoist h).fault.phaseAt.getD .travel
  let p := p.updHoist h fun c => { c with fault := c.fault.cleared }
  match (p.hoist h).active with
  | some t => p.haltHoist h (if p.holdsDestination h .active t.destination then .restart else .destLost) phaseAt
  | none => p.enterPhase h .idle

/-- CLEAR_FAULT taken by the Hoist Controller (R167, R195). -/
def clearFault (hoist : Nat) (p : Chip) : Chip × Answer :=
  match hoistOf hoist with
  | none => (p, refuse .range)
  | some h =>
    if (p.hoist h).phase ≠ .faulted ∨ (p.link h).state ≠ .up then (p, refuse .state)
    else
      let p' := p.clearFault h
      let resume := (p'.hoist h).active.bind fun t => t.resumePhase
      (p', answerDone (byteField h.val ++ byteField (p'.hoist h).phase.code ++
        byteField (maskOf [resume.isSome, (p'.haltCauseOf h).isSome]) ++
        byteField ((resume.map Phase.code).getD 0) ++ byteField (((p'.haltCauseOf h).map HaltCause.code).getD 0)))

/-- CLEAR_FAULT (R167). -/
def execClearFault (hoist : Nat) (s : State) : Host.Outcome State Fault Refusal :=
  s.command (.clearFault hoist) (clearFault hoist s.chip)

/-! ### ENABLE_HOIST (R168) -/

/-- The link of a hoist put in service, or out of it (R168). A setting the hoist already has changes nothing (log 16). -/
def LinkPort.setEnabled (l : LinkPort) (on : Bool) : LinkPort :=
  if l.enabled = on then l
  else if on then
    (if l.state = .down then { l with enabled := true, state := .proving, proving := 0, missed := 0 }
     else { l with enabled := true })
  else { l with enabled := false, state := .down, proving := 0, missed := 0 }

/-- ENABLE_HOIST taken by the Hoist Link Port (R168). DESIGN CHOICE (log 39): off is refused LOCKED wherever the phase is not IDLE, also
for a hoist already out of service, before the setting it already has is answered DONE. -/
def enableHoist (hoist setting : Nat) (p : Chip) : Chip × Answer :=
  match hoistOf hoist, flagOf setting with
  | some h, some on =>
    if on = false ∧ (p.hoist h).phase ≠ .idle then (p, refuse .locked)
    else
      let p' := p.updLink h fun l => l.setEnabled on
      (p', answerDone (byteField h.val ++ byteField (flagCode (p'.link h).enabled) ++
        byteField (p'.link h).state.code))
  | _, _ => (p, refuse .range)

/-- ENABLE_HOIST (R168). -/
def execEnableHoist (hoist setting : Nat) (s : State) : Host.Outcome State Fault Refusal :=
  s.command (.enableHoist hoist setting) (enableHoist hoist setting s.chip)

end Sys2Proof.Machine
end

