-- ==== Sys2Proof/Machine/Links.lean ====
section
/-! DEFINITION. The Hoist Link Port (spec/08, 8.1 to 8.4; spec/11, 11.4): assembling and checking replies, the link states, what a reply handed
on does at the Hoist Controller; the commands HOIST_LINK_REPLY_BYTE, HOIST_LINK_REPLY, REPLY_PARTIAL_TIMEOUT and LINK_TIMEOUT. -/

namespace Sys2Proof.Machine

/-! ### Messages (R157, R158, R197) -/

/-- The sum of all bytes of a message, modulo 256. -/
def byteSum (l : List Byte) : Byte := l.foldl (· + ·) 0

/-- The check byte that makes the sum of all the message's bytes 0 modulo 256 (R197). -/
def checkByte (l : List Byte) : Byte := 0 - byteSum l

/-- The 6 bytes of a reference message on the line (R197). -/
def RefMessage.bytes (m : RefMessage) : List Byte :=
  let body := byteField m.hoist.val ++ bigEndianSigned 2 m.speed ++ byteField m.brake.code ++ byteField m.latch.code
  body ++ [checkByte body]

/-- The reply that seven bytes carry, or none where they fail their check (R197). -/
def driveReplyOf (l : List Byte) : Option DriveReply :=
  let f : Frame := ⟨l⟩
  if byteSum l = 0 ∧ f.byte 0 ≤ 1 ∧ f.byte 1 ≤ 15 ∧ f.byte 2 = 0 then
    some { ready := decide (f.byte 0 = 1), code := f.byte 1, load := f.number 3 3 }
  else none

/-! ### Link states (R159) -/

/-- The link after a good reply is taken in it: the column "Good reply taken" of R159. -/
def LinkPort.answered (l : LinkPort) : LinkPort :=
  match l.state with
  | .down => l
  | .proving =>
    { l with proving := l.proving + 1, missed := 0, state := if 4 ≤ l.proving + 1 then .up else .proving }
  | .up => { l with missed := 0 }
  | .lost => { l with state := .proving, proving := 1, missed := 0 }

/-- A missed-reply count raised by one, saturating at 255 (R156). -/
def LinkPort.raiseMissed (l : LinkPort) : LinkPort := { l with missed := satInc 255 l.missed }

/-- The link after a segment is closed missed: the column "Segment closed missed" of R159. -/
def LinkPort.closedMissed (timeout : Nat) (l : LinkPort) : LinkPort :=
  match l.state with
  | .down => l
  | .proving => { l.raiseMissed with proving := 0 }
  | .up =>
    if timeout ≤ l.raiseMissed.missed then
      { l.raiseMissed with state := .lost, linkLosses := satInc16 l.linkLosses }
    else l.raiseMissed
  | .lost => l.raiseMissed

/-- The link of an enabled hoist leaves DOWN for PROVING before the closing acts (R159). -/
def LinkPort.leaveDown (l : LinkPort) : LinkPort :=
  if l.state = .down ∧ l.enabled = true then { l with state := .proving, proving := 0, missed := 0 } else l

/-- The closing of a segment (R157, R159): an answered one makes no link change; in either case the segment reply item becomes no. -/
def LinkPort.closeSegment (timeout : Nat) (l : LinkPort) : LinkPort :=
  let l := l.leaveDown
  { (if l.segmentReply then l else l.closedMissed timeout) with segmentReply := false }

/-- The closing of hoist `h`'s segment, with the LINK fault of a change from UP to LOST on a hoist whose phase is not IDLE (R160). -/
def Chip.closeSegment (p : Chip) (h : HoistId) : Chip :=
  let before := (p.link h).state
  let p := p.updLink h fun l => l.closeSegment p.params.linkTimeout
  if before = .up ∧ (p.link h).state = .lost ∧ (p.hoist h).phase ≠ .idle then p.takeFault h .link none else p

/-! ### A reply taken (R158, R161) -/

/-- The drive checks of R161 on a reply handed on. -/
def Chip.driveChecks (p : Chip) (h : HoistId) (r : DriveReply) : Chip :=
  if r.code ≠ 0 then p.takeFault h .drive (some r.code)
  else if r.ready = false ∧
      ((p.hoist h).phase = .travel ∨ (p.hoist h).phase = .approach ∨ (p.hoist h).phase = .dwell) then
    p.takeFault h .drive (some 0)
  else p

/-- A reply handed on to the Hoist Controller: the drive checks, then the phase reply and the completion test of the phase the hoist is
then in (R97, R101, R161). -/
def Chip.handOn (p : Chip) (h : HoistId) (r : DriveReply) : Chip :=
  ((p.driveChecks h r).updHoist h fun c => { c with phaseReply := some r.load }).completionTest h

/-- A good reply arrives (R158): the first of its segment is taken and, where the link state is then not DOWN, handed on; a later one
is discarded without effect. -/
def Chip.takeReply (p : Chip) (h : HoistId) (r : DriveReply) : Chip :=
  if (p.link h).segmentReply then p
  else
    let p := p.updLink h fun l => { l.answered with last := some r, segmentReply := true }
    if (p.link h).state = .down then p else p.handOn h r

/-- A reply that fails its check is discarded and counted (R158). -/
def Chip.failReply (p : Chip) (h : HoistId) : Chip :=
  p.updLink h fun l => { l with replyErrors := satInc16 l.replyErrors }

/-- The reply in progress leaves the buffer. -/
def Chip.clearReply (p : Chip) (h : HoistId) : Chip := p.updLink h fun l => { l with buffer := [], gap := 0 }

/-- The seventh byte of a reply (R197, R158). -/
def Chip.completeReply (p : Chip) (h : HoistId) (byte : Byte) : Chip :=
  match driveReplyOf ((p.link h).buffer ++ [byte]) with
  | some r => (p.clearReply h).takeReply h r
  | none => (p.clearReply h).failReply h

/-- The 50th millisecond mark has come since the latest byte of a reply in progress (R197). -/
def LinkPort.partialExpired (l : LinkPort) : Bool := !l.buffer.isEmpty && decide (50 ≤ l.gap)

/-- A partial reply discarded as a reply that fails its check (R197). -/
def Chip.discardPartial (p : Chip) (h : HoistId) : Chip := (p.clearReply h).failReply h

/-- HOIST_LINK_REPLY (R158): it comes about where six bytes of the reply have been received, and their 50th mark has not come. -/
def execHoistLinkReply (h : HoistId) (byte : Byte) (s : State) : Host.Outcome State Fault Refusal :=
  s.event (decide ((s.chip.link h).buffer.length = 6) && !(s.chip.link h).partialExpired) (s.chip.completeReply h byte)

/-- A byte other than the seventh begins a reply or is appended, and sets the mark count back to 0 (R197). After the 50th mark of a partial
reply the next byte begins a new reply: the partial one is discarded before it (log 41). -/
def Chip.takeReplyByte (p : Chip) (h : HoistId) (byte : Byte) : Chip :=
  (if (p.link h).partialExpired then p.discardPartial h else p).updLink h fun l =>
    { l with buffer := l.buffer ++ [byte], gap := 0 }

/-- HOIST_LINK_REPLY_BYTE (R197): it comes about where the byte is not the seventh of its reply. -/
def execHoistLinkReplyByte (h : HoistId) (byte : Byte) (s : State) : Host.Outcome State Fault Refusal :=
  s.event (decide ((s.chip.link h).buffer.length < 6) || (s.chip.link h).partialExpired) (s.chip.takeReplyByte h byte)

/-- REPLY_PARTIAL_TIMEOUT (R197): the partial reply is discarded at its 50th mark. -/
def execReplyPartialTimeout (h : HoistId) (s : State) : Host.Outcome State Fault Refusal :=
  s.event (s.chip.link h).partialExpired (s.chip.discardPartial h)

/-! ### LINK_TIMEOUT (R159) -/

/-- Mark number `n` is one on which hoist `h`'s segment events fall (R50). -/
def segmentMark (h : HoistId) (n : Nat) : Bool := decide (0 < n ∧ n % 50 = 12 * h.val)

/-- Hoist `h`'s segment event may be taken: it falls on the present mark and has not been taken, or it falls on the coming mark and is
taken just before it (R50, R51; log 2). -/
def Chip.segmentOpen (p : Chip) (h : HoistId) : Bool :=
  (p.hoist h).segmentDue || (segmentMark h (p.sensors.mark + 1) && !(p.hoist h).segmentAhead)

/-- The closing of hoist `h`'s segment would find the missed-reply count at least LINK_TIMEOUT on an UP link (R159). -/
def Chip.timeoutReached (p : Chip) (h : HoistId) : Bool :=
  let l := p.link h
  decide (l.state = .up ∧ l.segmentReply = false ∧ p.params.linkTimeout ≤ satInc 255 l.missed ∧ l.closedAhead = false)

/-- LINK_TIMEOUT (R159): the closing of a segment that makes an UP link LOST, taken by itself; the segment event that it opens finds the
segment closed (log 6). -/
def execLinkTimeout (h : HoistId) (s : State) : Host.Outcome State Fault Refusal :=
  s.event (s.chip.segmentOpen h && s.chip.timeoutReached h)
    ((s.chip.closeSegment h).updLink h fun l => { l with closedAhead := true })

end Sys2Proof.Machine
end

