-- ==== Sys2Proof/Machine/MassCommands.lean ====
section
/-! DEFINITION. The commands of the Mass Table (spec/01, sections 1.6 and 1.8): GET_MASS, NEXT_MASS, ADMIT_MASS, AMEND_MASS, RETIRE_MASS,
FOUND_MASS. -/

namespace Sys2Proof.Machine

/-- The result of GET_MASS, which every command of the Mass Table returns (R23, R194). -/
def Chip.massResult (p : Chip) (m : MassId) : List Byte :=
  let r := p.mass m
  byteField (massNumber m) ++ byteField r.state.code ++
    byteField (maskOf [r.nominal.isSome, r.measured.isSome, r.bay.isSome, r.lastBay.isSome, r.hoist.isSome]) ++
    p.field 3 (r.nominal.getD 0) ++ p.field 3 (r.measured.getD 0) ++
    byteField ((r.bay.map fun b => b.val).getD 0) ++ byteField ((r.lastBay.map fun b => b.val).getD 0) ++
    byteField ((r.hoist.map fun h => h.val).getD 0) ++ byteField (flagCode r.weighHold) ++
    p.field 2 r.lifts ++ p.field 6 (p.storedEnergy m)

/-- GET_MASS taken by the Mass Table (R9, R23). -/
def getMass (number : Nat) (p : Chip) : Answer :=
  match massOf number with
  | none => refuse .range
  | some m => answerDone (p.massResult m)

/-- GET_MASS (R23). -/
def execGetMass (number : Nat) (s : State) : Host.Outcome State Fault Refusal :=
  s.query (.getMass number) (getMass number s.chip)

/-- NEXT_MASS taken by the Mass Table (R24): only the six defined bits of the filter are read (R193). -/
def nextMass (start filter : Nat) (p : Chip) : Answer :=
  if massOf start = none ∨ filter % 64 = 0 then refuse .range
  else
    match massList.find? fun m => decide (start ≤ massNumber m) && maskHas filter (p.mass m).state.code with
    | some m => answerDone (p.massResult m)
    | none => answerDone []

/-- NEXT_MASS (R24). -/
def execNextMass (start filter : Nat) (s : State) : Host.Outcome State Fault Refusal :=
  s.query (.nextMass start filter) (nextMass start filter s.chip)

/-- A nominal within its range (R1, R9). -/
def nominalOk (n : Nat) : Bool := decide (5000 ≤ n ∧ n ≤ 80000)

/-- The bay is OPEN, or BARRED with one of the causes (R10, R19). -/
def BayRecord.freeFor (r : BayRecord) (causes : List BarredCause) : Bool :=
  match r.state, r.cause with
  | .opened, _ => true
  | .barred, some c => causes.contains c
  | _, _ => false

/-- ADMIT_MASS taken by the Mass Table (R9 to R11). -/
def admitMass (number nominal bay : Nat) (p : Chip) : Chip × Answer :=
  match massOf number, bayOf bay with
  | some m, some b =>
    if nominalOk nominal = false then (p, refuse .range)
    else if (p.mass m).state ≠ .absent then (p, refuse .conflict)
    else if (p.bay b).freeFor [.foreign] = false then (p, refuse .state)
    else if (p.bay b).sensor ≠ some .occupied then (p, refuse .sensor)
    else
      let p' := (p.massAdmitted m nominal b).occupyBay b m
      (p', answerDone (p'.massResult m))
  | _, _ => (p, refuse .range)

/-- ADMIT_MASS (R10, R11). -/
def execAdmitMass (number nominal bay : Nat) (s : State) : Host.Outcome State Fault Refusal :=
  s.command (.admitMass number nominal bay) (admitMass number nominal bay s.chip)

/-- AMEND_MASS taken by the Mass Table (R9, R13). -/
def amendMass (number nominal : Nat) (p : Chip) : Chip × Answer :=
  match massOf number with
  | none => (p, refuse .range)
  | some m =>
    if nominalOk nominal = false then (p, refuse .range)
    else match (p.mass m).state with
      | .absent => (p, refuse .noSuch)
      | .assigned | .aboard | .retiring => (p, refuse .locked)
      | .parked | .missing =>
        let p' := p.updMass m fun r => { r with nominal := some nominal, weighHold := false }
        let p' := if (p.mass m).weighHold then p'.request else p'
        (p', answerDone (p'.massResult m))

/-- AMEND_MASS (R13). -/
def execAmendMass (number nominal : Nat) (s : State) : Host.Outcome State Fault Refusal :=
  s.command (.amendMass number nominal) (amendMass number nominal s.chip)

/-- RETIRE_MASS taken by the Mass Table (R9, R14 to R16). -/
def retireMass (number : Nat) (p : Chip) : Chip × Answer :=
  match massOf number with
  | none => (p, refuse .range)
  | some m =>
    match (p.mass m).state with
    | .absent => (p, refuse .noSuch)
    | .assigned | .aboard | .retiring => (p, refuse .locked)
    | .missing =>
      let p' := p.massAbsent m
      (p', answerDone (p'.massResult m))
    | .parked => (match (p.mass m).bay with
      | none => (p, refuse .state)
      | some b =>
        if (p.bay b).service ≠ some true ∨ (p.bay b).state ≠ .occupied then (p, refuse .state)
        else
          let p' := p.massRetiring m
          (p', answerDone (p'.massResult m)))

/-- RETIRE_MASS (R14 to R16). -/
def execRetireMass (number : Nat) (s : State) : Host.Outcome State Fault Refusal :=
  s.command (.retireMass number) (retireMass number s.chip)

/-- FOUND_MASS taken by the Mass Table (R9, R19, R20). -/
def foundMass (number bay : Nat) (p : Chip) : Chip × Answer :=
  match massOf number, bayOf bay with
  | some m, some b =>
    if (p.mass m).state = .absent then (p, refuse .noSuch)
    else if (p.mass m).state ≠ .missing then (p, refuse .state)
    else if (p.bay b).freeFor [.foreign, .lost] = false then (p, refuse .state)
    else if (p.bay b).occupant ≠ none then (p, refuse .conflict)
    else if (p.bay b).sensor ≠ some .occupied then (p, refuse .sensor)
    else
      let p' := (p.massFound m b).occupyBay b m
      (p', answerDone (p'.massResult m))
  | _, _ => (p, refuse .range)

/-- FOUND_MASS (R19, R20). -/
def execFoundMass (number bay : Nat) (s : State) : Host.Outcome State Fault Refusal :=
  s.command (.foundMass number bay) (foundMass number bay s.chip)

end Sys2Proof.Machine
end

