-- ==== Sys2Proof/Machine/Power.lean ====
section
/-! DEFINITION. The Power Allocator (spec/07, 7.1 to 7.5): setpoint and plant mode, eligibility, the division of the setpoint; the commands
SET_POWER and ELIGIBILITY_REEVALUATION; and the mode change requests that END_TRIPS_OF_ANOTHER_KIND takes (spec/06 R134). -/

namespace Sys2Proof.Machine

/-! ### Eligibility (R141) -/

/-- A trip is automatic: of kind CHARGE or DISCHARGE. -/
def TripKind.automatic (k : TripKind) : Bool :=
  match k with
  | .charge | .discharge => true
  | .directed => false

/-- The direction of a loaded leg that earns its keep in a mode; none in STANDBY (R141). -/
def PlantMode.direction (m : PlantMode) : Option Direction :=
  match m with
  | .charge => some .up
  | .discharge => some .down
  | .standby => none

/-- The conditions under which hoist `h` is eligible (R141). -/
def Chip.eligibleLaw (p : Chip) (h : HoistId) : Bool :=
  let c := p.hoist h
  match c.active with
  | none => false
  | some t =>
    t.kind.automatic && decide (t.leg = .loaded) &&
    decide (c.phase = .travel ∨ c.phase = .approach ∨ c.phase = .dwell) &&
    decide (p.power.mode.direction = some t.direction)

/-! ### Division of the setpoint (R142) -/

/-- The number of hoists of a set. -/
def setSize (set : Quad Bool) : Nat := (hoistList.filter fun h => set.get h).length

/-- The number of members of a set below hoist `h`. -/
def rankIn (set : Quad Bool) (h : HoistId) : Nat := (hoistList.filter fun k => set.get k && decide (k < h)).length

/-- An amount divided among the hoists of a set by the rule of step 1: equal parts truncated, the remainder given 1 kW at a time to
the first of them in increasing hoist number (R142). With no member, every part is 0. -/
def divideAmong (amount : Nat) (set : Quad Bool) : Quad Nat :=
  Quad.tab fun h =>
    if set.get h then
      amount / setSize set + (if rankIn set h < amount % setSize set then 1 else 0)
    else 0

/-- The sum of four values. -/
def sumQuad (q : Quad Nat) : Nat := q.h0 + q.h1 + q.h2 + q.h3

/-- The four shares of a setpoint magnitude (R142, steps 1 to 3). -/
def sharesOf (amount : Nat) (eligible : Quad Bool) (rated : Quad Nat) : Quad Nat :=
  let equal := divideAmong amount eligible
  let capped := Quad.tab fun h => decide (rated.get h < equal.get h)
  let first := Quad.tab fun h => min (equal.get h) (rated.get h)
  let excess := sumQuad (Quad.tab fun h => equal.get h - rated.get h)
  let more := divideAmong excess (Quad.tab fun h => eligible.get h && !capped.get h)
  Quad.tab fun h => min (first.get h + more.get h) (rated.get h)

/-- The allocation is recomputed from the setpoint, the eligible set and the rated powers as they stand (R142, R143). The unserved condition
is evaluated with the end of the event (R144). -/
def Chip.allocate (p : Chip) : Chip :=
  let amount := p.power.setpoint.natAbs
  let shares := sharesOf amount p.power.eligible (Quad.tab fun h => (p.hp h).pRated)
  { p with power := { p.power with
      share := shares, total := sumQuad shares, unserved := amount - sumQuad shares } }

/-- Every hoist's eligibility is re-evaluated (R141). -/
def Chip.reevaluateAll (p : Chip) : Chip := { p with power := { p.power with eligible := Quad.tab p.eligibleLaw } }

/-! ### Setpoint and plant mode (R138 to R140) -/

/-- A value clamped to −m to +m. -/
def clampTo (m : Nat) (x : Int) : Int := max (-(m : Int)) (min x m)

/-- The plant mode of a setpoint (R139). -/
def modeOf (setpoint : Int) : PlantMode :=
  if 0 < setpoint then .charge else if setpoint < 0 then .discharge else .standby

/-- A change of plant mode is handed on (R134, R139): each Hoist Controller is asked to end its trips of another kind, a selection
request is raised, and every hoist's eligibility is re-evaluated (R141). -/
def Chip.handModeChange (p : Chip) (m : PlantMode) : Chip :=
  ({ p with power := { p.power with
      mode := m, modeRequests := Quad.tab fun h => p.power.modeRequests.get h ++ [m] } }.request).reevaluateAll

/-- The setpoint set, the mode set by its sign, and the allocation recomputed (R138, R139, R140, R154). -/
def Chip.setSetpoint (p : Chip) (x : Int) : Chip :=
  let p := { p with power := { p.power with setpoint := x } }
  (if modeOf x ≠ p.power.mode then p.handModeChange (modeOf x) else p).allocate

/-- SET_POWER taken by the Power Allocator (R138). -/
def setPower (kW : Int) (p : Chip) : Chip × Answer :=
  let taken := clampTo p.params.pPlantMax kW
  let p' := p.setSetpoint taken
  (p', answerTaken (decide (taken ≠ kW))
    (p.signedField 4 taken ++ byteField p'.power.mode.code ++
      hoistList.flatMap (fun h => p.field 2 (p'.power.share.get h)) ++
      p.field 2 p'.power.total ++ p.field 2 p'.power.unserved))

/-- SET_POWER (R138). -/
def execSetPower (kW : Int) (s : State) : Host.Outcome State Fault Refusal :=
  s.command (.setPower kW) (setPower kW s.chip)

/-- The Power Allocator takes hoist `h`'s change (R141): it re-evaluates that hoist, and recomputes the allocation if the eligible set
has changed. -/
def Chip.reevaluate (p : Chip) (h : HoistId) : Chip :=
  let p := { p with power := { p.power with handed := p.power.handed.set h false } }
  if p.eligibleLaw h = p.power.eligible.get h then p
  else { p with power := { p.power with eligible := p.power.eligible.set h (p.eligibleLaw h) } }.allocate

/-- ELIGIBILITY_REEVALUATION (R141): it comes about where a change of the hoist has been handed over. -/
def execEligibilityReevaluation (h : HoistId) (s : State) : Host.Outcome State Fault Refusal :=
  s.event (s.chip.power.handed.get h) (s.chip.reevaluate h)

/-! ### Change of plant mode at a hoist (R134) -/

/-- A trip is of another kind than the mode: automatic, and its kind not the mode's (R134). -/
def Trip.ofAnotherKind (t : Trip) (m : PlantMode) : Bool := t.kind.automatic && decide (t.kind ≠ m.retargetKind)

/-- Hoist Controller `h` takes a mode change request (R134): a staged trip of another kind is dropped, an active one in leg EMPTY
abandoned. -/
def Chip.endOtherKind (p : Chip) (h : HoistId) (m : PlantMode) : Chip :=
  let p := match (p.hoist h).staged with
    | some t => if t.ofAnotherKind m then p.dropStaged h .returned else p
    | none => p
  match (p.hoist h).active with
  | some t => if t.ofAnotherKind m && decide (t.leg = .empty) then p.abandon h .discarded else p
  | none => p

/-- The earliest mode change request of hoist `h` is taken (R134). -/
def Chip.takeModeRequest (p : Chip) (h : HoistId) : Chip :=
  match p.power.modeRequests.get h with
  | [] => p
  | m :: rest =>
    { p with power := { p.power with modeRequests := p.power.modeRequests.set h rest } }.endOtherKind h m

/-- END_TRIPS_OF_ANOTHER_KIND (R134): it comes about where a request waits at the hoist. -/
def execEndTripsOfAnotherKind (h : HoistId) (s : State) : Host.Outcome State Fault Refusal :=
  s.event (!(s.chip.power.modeRequests.get h).isEmpty) (s.chip.takeModeRequest h)

end Sys2Proof.Machine
end

