-- ==== Sys2Proof/Machine/Motion.lean ====
section
/-! DEFINITION. The segment event of a hoist (spec/03 R50): the closing of its segment, its position, the checks made at the event, the phase
tests (spec/05 R94 to R96), the speed reference (spec/07, 7.6) and the reference message; and the expiry of its timers (R96, R109). -/

namespace Sys2Proof.Machine

/-! ### Checks of the segment event -/

/-- The marker checks of a referenced hoist (R80, R81). -/
def Chip.checkMarkers (p : Chip) (h : HoistId) (zBefore : Nat) : Chip :=
  let u := p.unit h
  if u.referenced then
    let r := passMarkers p.params.slipLimit zBefore u.elevation (markerState u.markers) u.missRun u.missedMarkers
      (p.expectedMarkers h)
    let p := p.updUnit h fun u => { u with markers := r.states, missRun := r.run, missedMarkers := r.missed }
    match r.fault with
    | some zb => p.takePositionFault h .position ((p.markerBay h zb).map fun b => b.val)
    | none => p
  else p

/-- The Position Unit's work at the segment event (R72). -/
def Chip.positionSegment (p : Chip) (h : HoistId) : Chip :=
  (p.computePosition h).checkMarkers h (p.elevationAt h (p.unit h).previousCount)

/-- The ramp step a_step (R150). -/
def HoistParams.aStep (q : HoistParams) : Nat := max 1 (q.accel * 50 / 1000)

/-- The magnitude of the reference sent at the previous segment event (R162); 0 where none has been sent (log 44). -/
def Chip.sentMagnitude (p : Chip) (h : HoistId) : Nat :=
  match (p.link h).sent with
  | some m => m.speed.natAbs
  | none => 0

/-- The overspeed check (R162). -/
def Chip.overspeedCheck (p : Chip) (h : HoistId) : Chip :=
  let c := p.hoist h
  let q := p.hp h
  let check := max (p.sentMagnitude h) (c.checkSpeed - q.aStep)
  let run := if check + q.overspeedMargin < (p.unit h).speed.natAbs then satInc 2 c.overspeedRun else 0
  let p := p.updHoist h fun c => { c with checkSpeed := check, overspeedRun := run }
  if c.overspeedRun = 1 ∧ run = 2 then p.takeFault h .overspeed none else p

/-- The clear-height check (R41). -/
def Chip.clearHeightCheck (p : Chip) (h : HoistId) : Chip :=
  match (p.hoist h).active with
  | none => p
  | some t =>
    if t.leg = .loaded ∧ p.holdsSource h .active t.source = true ∧ (p.bay t.source).occupant = none ∧
        p.params.clearHeight < apart (p.unit h).elevation (p.elevationOf t.source) then
      p.barBay t.source .foreign
    else p

/-! ### The speed reference (R145 to R151) -/

/-- The target bay of a trip: the source in leg EMPTY, the destination in leg LOADED (R88). -/
def Trip.target (t : Trip) : BayId :=
  match t.leg with
  | .empty => t.source
  | .loaded => t.destination

/-- The distance d to the target (R88). -/
def Chip.targetDistance (p : Chip) (h : HoistId) (t : Trip) : Nat :=
  apart (p.elevationOf t.target) (p.unit h).elevation

/-- The sign toward the target: positive when it lies above z, negative when below (R147; 0 at the target itself, log 35). -/
def Chip.targetSign (p : Chip) (h : HoistId) (t : Trip) : Int :=
  ((p.elevationOf t.target : Int) - (p.unit h).elevation).sign

/-- The gear limit (R146). -/
def HoistParams.gearLimit (q : HoistParams) : Nat := q.vRated / 2 ^ q.gear

/-- v_lim moved at a segment event, from the reference of the previous one (R146). -/
def Chip.movedLimit (p : Chip) (h : HoistId) (previous : Int) : Nat :=
  max (p.hp h).gearLimit (previous.natAbs - (p.hp h).aStep)

/-- The speed from a share (R148). -/
def speedFromShare (share m gravity : Nat) : Nat := share * 1000000000 / (m * gravity)

/-- The target speed magnitude in TRAVEL before the caps (R147). -/
def Chip.travelSpeed (p : Chip) (h : HoistId) (t : Trip) : Nat :=
  match t.leg, t.kind with
  | .empty, _ => (p.hp h).vReposition
  | .loaded, .directed => (p.hp h).vTransfer
  | .loaded, _ => speedFromShare (p.power.share.get h) (p.legLoad h t) p.params.gravity

/-- The integer square root by its binary digits, the highest first: `k` digits are still to be found below those of `r`. -/
def rootDigits (k n r : Nat) : Nat :=
  match k with
  | 0 => r
  | k + 1 => if (r + 2 ^ k) * (r + 2 ^ k) ≤ n then rootDigits k n (r + 2 ^ k) else rootDigits k n r

/-- The integer square root, rounded down (spec/00, Arithmetic). -/
def isqrt (n : Nat) : Nat := rootDigits (n.log2 / 2 + 1) n 0

/-- The effective cap: the stopping cap, or CREEP where that is greater (R149). -/
def Chip.effectiveCap (p : Chip) (h : HoistId) (t : Trip) : Nat :=
  max (isqrt (2 * (p.hp h).accel * (p.targetDistance h t - p.params.approachDist))) (p.hp h).creep

/-- The ramp of R150: the previous reference `r` moves toward the bounded target `t`. `capped` says that the stopping cap bound the target
at this segment event. A target of 0 is of either sign (log 35). -/
def ramp (step : Nat) (capped : Bool) (r t : Int) : Int :=
  if r * t < 0 then r.sign * ((r.natAbs - step : Nat) : Int)
  else if r.natAbs < t.natAbs then t.sign * (min (r.natAbs + step) t.natAbs : Nat)
  else if t.natAbs < r.natAbs then
    if capped then t else r.sign * (max (r.natAbs - step) t.natAbs : Nat)
  else t

/-- The reference that the steps of R145 give hoist `h` for a phase, from the reference of the previous segment event. -/
def Chip.referenceFor (p : Chip) (h : HoistId) (previous : Int) (phase : Phase) : Int :=
  let q := p.hp h
  let limit := p.movedLimit h previous
  match (p.hoist h).active with
  | none => 0
  | some t =>
    if p.brakeIn h phase = .set then 0
    else
      match phase with
      | .travel =>
        let speed := p.travelSpeed h t
        let cap := p.effectiveCap h t
        ramp q.aStep (decide (cap < speed)) previous (p.targetSign h t * (min (min speed cap) limit : Nat))
      | .approach => ramp q.aStep false previous (p.targetSign h t * (min q.creep limit : Nat))
      | _ => 0

/-! ### The phase tests (R94 to R96) -/

/-- Entry into DWELL (R96). -/
def Chip.enterDwell (p : Chip) (h : HoistId) : Chip :=
  (p.enterPhase h .dwell).updHoist h fun c => { c with dwellTimer := startTimer p.params.dwellLimit }

/-- Entry into APPROACH (R94), with the late approach count of R151. -/
def Chip.enterApproach (p : Chip) (h : HoistId) : Chip :=
  let late := decide ((p.hp h).creep < (p.hoist h).speedRef.natAbs)
  (p.enterPhase h .approach).updHoist h fun c =>
    { c with
      phaseTimer := startTimer p.params.approachTo
      lateApproach := if late then satInc16 c.lateApproach else c.lateApproach }

/-- The test of APPROACH (R95): the hoist stops at the target. -/
def Chip.approachTest (p : Chip) (h : HoistId) (t : Trip) : Chip :=
  if p.targetDistance h t ≤ p.params.stopTol then
    match t.leg with
    | .empty => p.enterEngage h
    | .loaded => p.enterRelease h
  else p

/-- The test of TRAVEL (R94). -/
def Chip.travelTest (p : Chip) (h : HoistId) (previous : Int) (t : Trip) : Chip :=
  if p.targetDistance h t ≤ p.params.approachDist then (p.enterApproach h).approachTest h t
  else if t.kind.automatic = true ∧ t.leg = .loaded ∧ p.power.share.get h = 0 ∧ p.referenceFor h previous .travel = 0 then
    p.enterDwell h
  else p

/-- The phase test of the phase the hoist is in (R94 to R96). A hoist that leaves DWELL makes no test of TRAVEL at the event (log 23). -/
def Chip.phaseTest (p : Chip) (h : HoistId) (previous : Int) : Chip :=
  match (p.hoist h).active with
  | none => p
  | some t =>
    match (p.hoist h).phase with
    | .travel => p.travelTest h previous t
    | .approach => p.approachTest h t
    | .dwell => if p.power.share.get h ≠ 0 then p.enterPhase h .travel else p
    | _ => p

/-- Served power (R148): of an eligible hoist, from the reference just computed. DESIGN CHOICE (log 46): a hoist is eligible where it is in
the eligible set of the Power Allocator (R137) as that stands, also while a change of the hoist waits for its re-evaluation (R141). -/
def Chip.servedFor (p : Chip) (h : HoistId) (reference : Int) : Nat :=
  if p.power.eligible.get h then p.loadM h * p.params.gravity * reference.natAbs / 1000000000 else 0

/-- The reference computed, and handed to the port with the brake and latch commands (R145, R157). DESIGN CHOICE (log 38): the message
carries what the segment event itself computes. R152 has a reference set to 0 between segment events go out in the next message with
the brake SET; after an abandonment whose staged trip is promoted into TRAVEL, the steps of R145 with R150 and R93 give a_step and
RELEASE at that segment event, and those go out. -/
def Chip.sendReference (p : Chip) (h : HoistId) (previous : Int) : Chip :=
  let c := p.hoist h
  let reference := p.referenceFor h previous c.phase
  let brake := p.brakeLaw h
  let limit := p.movedLimit h previous
  let served := p.servedFor h reference
  (p.updHoist h fun c =>
    { c with
      vLim := limit, speedRef := reference, brake := brake, shareRead := p.power.share.get h
      served := served }).updLink h fun l =>
    { l with sent := some { hoist := h, speed := reference, brake := brake, latch := c.latchCommand } }

/-! ### SEGMENT_EVENT -/

/-- The segment is closed, unless LINK_TIMEOUT has closed it (R157, log 6). -/
def Chip.closeIfOpen (p : Chip) (h : HoistId) : Chip :=
  if (p.link h).closedAhead then p.updLink h fun l => { l with closedAhead := false } else p.closeSegment h

/-- The event is marked as taken: on the present mark where it was due there, or ahead of the coming mark (log 2). -/
def Chip.markSegment (p : Chip) (h : HoistId) : Chip :=
  p.updHoist h fun c =>
    if c.segmentDue then { c with segmentDue := false } else { c with segmentAhead := true }

/-- The segment event of hoist `h` (R50): the steps of spec/95 in their order. The reference of the previous segment event is read as the
event finds it, so that a stop before it counts and one within it does not (R146, R152). -/
def Chip.segment (p : Chip) (h : HoistId) : Chip :=
  let previous := (p.hoist h).speedRef
  ((((((p.markSegment h).closeIfOpen h).positionSegment h).overspeedCheck h).clearHeightCheck h).phaseTest h
    previous).sendReference h previous

/-- SEGMENT_EVENT (R50): it comes about on the marks R50 gives the hoist. -/
def execSegmentEvent (h : HoistId) (s : State) : Host.Outcome State Fault Refusal :=
  s.event (s.chip.segmentOpen h) (s.chip.segment h)

/-! ### Timer expiries (R96, R109) -/

/-- The cause of the timeout of a phase (R109). -/
def Phase.timeoutCause (x : Phase) : Option FaultCause :=
  match x with
  | .engage => some .timeoutEngage
  | .release => some .timeoutRelease
  | .approach => some .timeoutApproach
  | _ => none

/-- The phase timer of hoist `h` expires (R109): the hoist is faulted with the timeout cause of its phase. A timer runs in no other phase
(log 29). -/
def Chip.expirePhaseTimer (p : Chip) (h : HoistId) : Chip :=
  match (p.hoist h).phase.timeoutCause with
  | some cause => p.takeFault h cause none
  | none => p.updHoist h fun c => { c with phaseTimer := none }

/-- PHASE_TIMER_EXPIRY (R109): it comes about where the running phase timer has counted its second marks. -/
def execPhaseTimerExpiry (h : HoistId) (s : State) : Host.Outcome State Fault Refusal :=
  s.event (expired (s.chip.hoist h).phaseTimer) (s.chip.expirePhaseTimer h)

/-- The dwell timer of hoist `h` expires (R96): the trip is re-targeted from z. -/
def Chip.expireDwell (p : Chip) (h : HoistId) : Chip :=
  match (p.hoist h).active with
  | none => p.updHoist h fun c => { c with dwellTimer := none }
  | some t =>
    match p.retargetFrom h t (p.unit h).elevation with
    | some p' =>
      if p'.power.mode.retargetKind = .directed then p'.enterPhase h .travel
      else p'.updHoist h fun c => { c with dwellTimer := startTimer p.params.dwellLimit }
    | none => (p.setNoBay h).updHoist h fun c => { c with dwellTimer := startTimer p.params.dwellLimit }

/-- DWELL_LIMIT_EXPIRY (R96): it comes about where the running dwell timer has counted its second marks. -/
def execDwellLimitExpiry (h : HoistId) (s : State) : Host.Outcome State Fault Refusal :=
  s.event (expired (s.chip.hoist h).dwellTimer) (s.chip.expireDwell h)

end Sys2Proof.Machine
end

