-- ==== Sys2Proof/Machine/OrderCommands.lean ====
section
/-! DEFINITION. The commands of the Order Queue (spec/06, 6.1): GET_ORDER, ORDER_MOVE, CANCEL_ORDER. -/

namespace Sys2Proof.Machine

/-- The number of held orders (R115). -/
def Chip.heldCount (p : Chip) : Nat := p.heldOrders.length

/-- The number of queued orders (R115). -/
def Chip.queueLength (p : Chip) : Nat := p.orders.queue.length

/-- A hoist field that admits ANY, coded (R193). -/
def hoistOrAnyCode (h : Option HoistId) : Nat := (h.map fun h => h.val).getD 255

/-- GET_ORDER taken by the Order Queue (R124, R195). -/
def getOrder (position : Nat) (p : Chip) : Answer :=
  if 15 < position then refuse .range
  else
    let counts := p.field 1 p.queueLength ++ p.field 1 p.heldCount ++ p.field 2 p.orders.dropped
    match p.orders.queue[position]? with
    | some o =>
      answerDone (byteField position ++ byteField (massNumber o.mass) ++ byteField o.destination.val ++
        byteField (hoistOrAnyCode o.hoist) ++ [o.tag] ++ counts)
    | none => answerDone (byteField 255 ++ List.replicate 4 0 ++ counts)

/-- GET_ORDER (R124). -/
def execGetOrder (position : Nat) (s : State) : Host.Outcome State Fault Refusal :=
  s.query (.getOrder position) (getOrder position s.chip)

/-- The tag of the frame in hand (R184). -/
def Chip.frameTag (p : Chip) : Byte :=
  match p.port.inHand with
  | some f => BitVec.ofNat 8 (f.byte 3)
  | none => 0

/-- A hoist that counts for the order is in the access set of both bays (R118, check 6). -/
def Chip.someHoistReaches (p : Chip) (hoist : Option HoistId) (source destination : BayId) : Bool :=
  hoistList.any fun h =>
    decide (hoist = none ∨ hoist = some h) && p.reaches h source && p.reaches h destination

/-- The order's mass rests in a bay from which the order may be placed (R118, checks 5 and 6); otherwise the reason. A PARKED mass has a
bay. -/
def Chip.orderReach (p : Chip) (m : MassId) (destination : BayId) (hoist : Option HoistId) : Option Reason :=
  match (p.mass m).bay with
  | none => some .unreachable
  | some source =>
    if destination = source then some .conflict
    else if p.someHoistReaches hoist source destination then none
    else some .unreachable

/-- The first state check of ORDER_MOVE that fails (R118), with the existence check of R117 before them. -/
def Chip.orderRefusal (p : Chip) (m : MassId) (destination : BayId) (hoist : Option HoistId) : Option Reason :=
  let state := (p.mass m).state
  let bay := (p.bay destination).state
  if state = .absent then some .noSuch
  else if state = .missing ∨ state = .retiring then some .state
  else if p.queued m ∨ p.heldOrders.any (fun o => decide (o.mass = m)) then some .conflict
  else if state = .assigned ∨ state = .aboard then some .conflict
  else if bay = .unsurveyed ∨ bay = .barred then some .state
  else match p.orderReach m destination hoist with
    | some reason => some reason
    | none =>
      if 16 ≤ p.queueLength + p.heldCount then some .full
      else if p.interlock = .opened ∧ hoistList.all (fun h => !(p.hoist h).able) then some .stopped
      else none

/-- An order added at the tail of the list, with a selection request (R119). -/
def Chip.addOrder (p : Chip) (o : Order) : Chip :=
  { p with orders := { p.orders with queue := p.orders.queue ++ [o] } }.request

/-- ORDER_MOVE taken by the Order Queue (R117 to R119). -/
def orderMove (mass destination hoist : Nat) (p : Chip) : Chip × Answer :=
  match massOf mass, bayOf destination, hoistOrAllOf hoist with
  | some m, some d, some h =>
    (match p.orderRefusal m d h with
    | some reason => (p, refuse reason)
    | none =>
      let p' := p.addOrder { mass := m, destination := d, hoist := h, tag := p.frameTag }
      (p', answerDone (p.field 1 p.queueLength ++ p'.field 1 p'.queueLength ++ p'.field 1 p'.heldCount)))
  | _, _, _ => (p, refuse .range)

/-- ORDER_MOVE (R117 to R119). -/
def execOrderMove (mass destination hoist : Nat) (s : State) : Host.Outcome State Fault Refusal :=
  s.command (.orderMove mass destination hoist) (orderMove mass destination hoist s.chip)

/-- What holds a mass (R122). -/
inductive MassHolder where
  | queued (position : Nat)
  | staged (h : HoistId)
  | active (h : HoistId) (t : Trip)
  | nothing
  deriving DecidableEq, Repr

/-- The trip, if any, names the mass. -/
def names (t : Option Trip) (m : MassId) : Bool :=
  match t with
  | some t => decide (t.mass = m)
  | none => false

/-- What holds mass `m`: a queued order, a staged trip, an active trip, or nothing (R122). -/
def Chip.holderOf (p : Chip) (m : MassId) : MassHolder :=
  match p.orders.queue.findIdx? fun o => decide (o.mass = m) with
  | some position => .queued position
  | none =>
    match hoistList.find? fun h => names (p.hoist h).staged m with
    | some h => .staged h
    | none =>
      match hoistList.find? fun h => names (p.hoist h).active m with
      | some h => (match (p.hoist h).active with
        | some t => .active h t
        | none => .nothing)
      | none => .nothing

/-- A queued order leaves the list by a cancellation, with a selection request (R122, R126). -/
def Chip.removeOrder (p : Chip) (m : MassId) : Chip :=
  { p with orders := { p.orders with queue := p.orders.queue.filter fun o => decide (o.mass ≠ m) } }.request

/-- A staged trip dropped by a cancellation (R122): its held order returns to the list, which raises a selection request (R121), and
is removed at the same event. -/
def Chip.cancelStaged (p : Chip) (h : HoistId) : Chip :=
  if (p.held h .staged).isSome then (p.dropStaged h .discarded).request else p.dropStaged h .discarded

/-- CANCEL_ORDER taken by the Order Queue (R122, R195). -/
def cancelOrder (mass : Nat) (p : Chip) : Chip × Answer :=
  match massOf mass with
  | none => (p, refuse .range)
  | some m =>
    match p.holderOf m with
    | .queued position => (p.removeOrder m, answerDone (byteField 0 ++ byteField position))
    | .staged h => (p.cancelStaged h, answerDone (byteField 1 ++ byteField h.val))
    | .active h t =>
      (match t.leg with
      | .loaded => (p, refuse .locked)
      | .empty =>
        let waits := decide ((p.hoist h).withdrawal ≠ .none) || (p.hoist h).waitsForLatch
        (p.abandon h .discarded, answerDone (byteField 2 ++ byteField h.val ++ byteField (flagCode waits))))
    | .nothing => (p, refuse .noSuch)

/-- CANCEL_ORDER (R122). -/
def execCancelOrder (mass : Nat) (s : State) : Host.Outcome State Fault Refusal :=
  s.command (.cancelOrder mass) (cancelOrder mass s.chip)

end Sys2Proof.Machine
end

