-- ==== Sys2Proof/Machine/Sensors.lean ====
section
/-! DEFINITION. The Sensor Filter Bank and the events of the clock and the input lines (spec/03; spec/02, section 2.5): millisecond marks, the
debounce filters, acceptances and what they do, the interlock, encoder edges and marker pulses; and power-on reset. -/

namespace Sys2Proof.Machine

/-! ### Debounce filters (R52 to R56) -/

/-- The check time T of a code from 1 to 7, in marks (R53); with code 0 every mark is a sample instant (R54). -/
def checkTime (code : Nat) : Nat := if code = 0 then 1 else 16 * 2 ^ (code - 1)

/-- What a sample does to a line. -/
inductive Sampled where
  | nothing
  | initial
  | change
  deriving DecidableEq, Repr

/-- Whether a sample is accepted: the first of a line with no accepted level is its initial level (R55); a level that differs from the
accepted one is accepted at once with code 0 (R54), and otherwise where the previous sample was the same (R53). -/
def LineFilter.judge {α : Type} [DecidableEq α] (code : Nat) (l : LineFilter α) (level : α) : Sampled :=
  match l.accepted with
  | none => .initial
  | some a => if level ≠ a ∧ (code = 0 ∨ l.previous = some level) then .change else .nothing

/-- The line after a sample (R53 to R55). -/
def LineFilter.sampled {α : Type} [DecidableEq α] (code : Nat) (l : LineFilter α) (level : α) : LineFilter α :=
  { accepted := (match l.judge code level with
      | .nothing => l.accepted
      | .initial | .change => some level)
    previous := some level }

/-- A mark counted by a group (R52): its instant falls on this mark where the group has just been started, or its check time has passed
since its latest instant; an instant taken ahead of this mark has been taken (log 2). -/
def FilterGroup.atMark (code : Nat) (g : FilterGroup) : FilterGroup :=
  if g.ahead then { g with ahead := false }
  else if g.fresh || decide (checkTime code ≤ g.since + 1) then { g with since := g.since + 1, due := true }
  else { g with since := g.since + 1 }

/-- The group's instant may be taken: it falls on the present mark, or on the coming one and is taken just before it (R56; log 2). -/
def FilterGroup.instantOpen (code : Nat) (g : FilterGroup) : Bool :=
  g.due || (!g.ahead && (g.fresh || decide (checkTime code ≤ g.since + 1)))

/-- The group's instant taken. -/
def FilterGroup.instantTaken (g : FilterGroup) : FilterGroup :=
  { since := 0, fresh := false, due := false, ahead := !g.due }

/-- The group restarted (R56): every later instant follows from the next mark; an instant that falls on the present mark and has not been
taken is the first after the restart. That the count of marks is 0 from the restart on is the model's choice (log 44). -/
def FilterGroup.restarted (g : FilterGroup) : FilterGroup := { g with since := 0, fresh := !g.due }

/-! ### What an acceptance on an occupancy line does (section 2.5) -/

/-- A release is in progress at bay `b`, held as destination by the trip of a hoist and slot (R38). -/
def Chip.releaseInProgress (p : Chip) (holder : HoistId × Slot) : Bool :=
  decide (holder.2 = .active ∧ (p.hoist holder.1).workPhase = .release)

/-- A change of accepted level on bay `b`'s line, after the level has been recorded (R17, R38 to R40). -/
def Chip.reconcile (p : Chip) (b : BayId) (level : Occupancy) : Chip :=
  let r := p.bay b
  match r.state, level with
  | .unsurveyed, _ | .barred, _ => p
  | .opened, .occupied => p.barBay b .foreign
  | .opened, .empty => p
  | .inbound, _ => (match r.holder with
    | none => p
    | some holder =>
      if p.releaseInProgress holder then p.releaseTest holder.1
      else match level with
        | .occupied => (p.barBay b .foreign).loseDestination holder.1 holder.2
        | .empty => p)
  | .occupied, .empty => (match r.occupant with
    | none => p
    | some m =>
      match (p.mass m).state with
      | .retiring => (p.massAbsent m).openBay b
      | _ => (p.barBay b .lost).massLostFromBay m)
  | .outbound, .empty => (match r.occupant with
    | none => p.openBay b
    | some m =>
      let p := (p.barBay b .lost).massLostFromBay m
      match r.holder with
      | none => p
      | some holder => p.loseSource holder.1 holder.2)
  | .occupied, .occupied | .outbound, .occupied => p

/-- An acceptance on bay `b`'s line taken by the Bay Table (R27, R59). -/
def Chip.acceptBay (p : Chip) (b : BayId) (level : Occupancy) (initial : Bool) : Chip :=
  let p' := p.updBay b fun r => { r with sensor := some level }
  if initial then p' else p'.reconcile b level

/-! ### What an acceptance on a latch line does (R60) -/

/-- A change of accepted level on hoist `h`'s latch line, after the level has been recorded (R97, R100, R101, R163). -/
def Chip.actOnLatch (p : Chip) (h : HoistId) (level : Latch) : Chip :=
  let c := p.hoist h
  match level with
  | .closed => p.completionTest h
  | .opened =>
    if c.withdrawal ≠ .none then p.completeWithdrawal h
    else if c.loaded = true ∧ c.workPhase ≠ .release then p.takeFault h .latch none
    else p.completionTest h

/-- An acceptance on hoist `h`'s latch line taken by the Hoist Controller (R55, R60). -/
def Chip.acceptLatch (p : Chip) (h : HoistId) (level : Latch) (initial : Bool) : Chip :=
  let p' := p.updHoist h fun c => { c with latchLevel := some level }
  if initial then p' else p'.actOnLatch h level

/-! ### FILTER_SAMPLE_INSTANT (R53 to R55) -/

/-- The level a bay line reads in a sample of group BAY. -/
def bayLevel (levels : BitVec 64) (b : BayId) : Occupancy := if levels.getLsbD b.val then .occupied else .empty

/-- The level a latch line reads in a sample of group LATCH. -/
def latchLevelOf (levels : BitVec 4) (h : HoistId) : Latch := if levels.getLsbD h.val then .closed else .opened

/-- One bay line sampled; an acceptance is an event of the Bay Table, complete in itself (R53, R59). -/
def Chip.sampleBay (levels : BitVec 64) (p : Chip) (b : BayId) : Chip :=
  let l := p.sensors.bayLines[b]
  let level := bayLevel levels b
  let code := p.params.bayFilter
  let p' := { p with sensors := { p.sensors with bayLines := p.sensors.bayLines.set b (l.sampled code level) } }
  match l.judge code level with
  | .nothing => p'
  | .initial => p'.acceptBay b level true
  | .change => p.finish (p'.acceptBay b level false)

/-- One latch line sampled; an acceptance is an event of the Hoist Controller, complete in itself (R53, R60). -/
def Chip.sampleLatch (levels : BitVec 4) (p : Chip) (h : HoistId) : Chip :=
  let l := p.sensors.latchLines.get h
  let level := latchLevelOf levels h
  let code := p.params.latchFilter
  let p' := { p with sensors := { p.sensors with latchLines := p.sensors.latchLines.set h (l.sampled code level) } }
  match l.judge code level with
  | .nothing => p'
  | .initial => p'.acceptLatch h level true
  | .change => p.finish (p'.acceptLatch h level false)

/-- A sample instant of group BAY: every line in increasing number (log 14). -/
def Chip.sampleBays (p : Chip) (levels : BitVec 64) : Chip :=
  let p := { p with sensors := { p.sensors with bayGroup := p.sensors.bayGroup.instantTaken } }
  bayList.foldl (Chip.sampleBay levels) p

/-- A sample instant of group LATCH: every line in increasing number (log 14). -/
def Chip.sampleLatches (p : Chip) (levels : BitVec 4) : Chip :=
  let p := { p with sensors := { p.sensors with latchGroup := p.sensors.latchGroup.instantTaken } }
  hoistList.foldl (Chip.sampleLatch levels) p

/-- The instant of the sample's group may be taken. -/
def Chip.sampleOpen (p : Chip) (sample : GroupSample) : Bool :=
  match sample with
  | .bay _ => p.sensors.bayGroup.instantOpen p.params.bayFilter
  | .latch _ => p.sensors.latchGroup.instantOpen p.params.latchFilter

/-- The sample instant of a group. -/
def Chip.sampleInstant (p : Chip) (sample : GroupSample) : Chip :=
  match sample with
  | .bay levels => p.sampleBays levels
  | .latch levels => p.sampleLatches levels

/-- FILTER_SAMPLE_INSTANT (R53, R54): it comes about on the marks the group's code gives. -/
def execFilterSampleInstant (sample : GroupSample) (s : State) : Host.Outcome State Fault Refusal :=
  s.event (s.chip.sampleOpen sample) (s.chip.sampleInstant sample)

/-! ### The interlock (R57, R61, R107) -/

/-- The closing count has reached 1,000 (R57). -/
def SensorBank.closingComplete (b : SensorBank) : Bool := decide (b.qualifier = .qualifying ∧ 1000 ≤ b.closing)

/-- The interlock line sampled at a mark (R57). The 1,000th sample leaves the count at 1,000, where INTERLOCK_CLOSED_ACCEPTANCE takes it
(log 7). An acceptance of open is at once the accepted level; each Hoist Controller takes it as an event of its own. -/
def SensorBank.sampleInterlock (b : SensorBank) (line : Interlock) : SensorBank :=
  match b.qualifier, line with
  | .opened, .opened => b
  | .opened, .closed => { b with qualifier := .qualifying, closing := 1 }
  | .qualifying, .opened => { b with qualifier := .opened, closing := 0 }
  | .qualifying, .closed => { b with closing := b.closing + 1 }
  | .closed, .opened => { b with qualifier := .opened, closing := 0 }
  | .closed, .closed => b

/-- INTERLOCK_CLOSED_ACCEPTANCE (R57): the qualifier becomes CLOSED and its count returns to 0; the acceptance waits at each of the four
Hoist Controllers. It comes about where the count has reached 1,000. -/
def execInterlockClosedAcceptance (s : State) : Host.Outcome State Fault Refusal :=
  s.event s.chip.sensors.closingComplete
    { s.chip with sensors := { s.chip.sensors with qualifier := .closed, closing := 0 } }

/-- The interlock level taken by Hoist Controller `h`. -/
def Chip.seeInterlock (p : Chip) (h : HoistId) (level : Interlock) : Chip :=
  p.updHoist h fun c => { c with interlockSeen := level }

/-- A phase that an acceptance of open on the interlock halts (R107). -/
def Phase.halts (x : Phase) : Bool :=
  match x with
  | .travel | .approach | .dwell | .engage | .release => true
  | .idle | .halted | .faulted => false

/-- Hoist Controller `h` takes the acceptance of open (R61, R107). -/
def Chip.interlockHalt (p : Chip) (h : HoistId) : Chip :=
  let phase := (p.hoist h).phase
  let p := p.seeInterlock h .opened
  if phase.halts then p.haltHoist h .interlock phase else p

/-- INTERLOCK_HALT (R107): it comes about where an acceptance of open has not been taken by the hoist. -/
def execInterlockHalt (h : HoistId) (s : State) : Host.Outcome State Fault Refusal :=
  s.event (decide (s.chip.interlock = .opened ∧ (s.chip.hoist h).interlockSeen = .closed)) (s.chip.interlockHalt h)

/-- INTERLOCK_CLOSED_TAKEN (R61): it comes about where an acceptance of closed has not been taken by the hoist. -/
def execInterlockClosedTaken (h : HoistId) (s : State) : Host.Outcome State Fault Refusal :=
  s.event (decide (s.chip.interlock = .closed ∧ (s.chip.hoist h).interlockSeen = .opened)) (s.chip.seeInterlock h .closed)

/-! ### MILLISECOND_MARK (R49) -/

/-- Every event bound to the present mark has been taken (log 2): segment events, sample instants, interlock acceptances, timer
expiries, gap and partial-reply discards. -/
def Chip.settled (p : Chip) : Bool :=
  (hoistList.all fun h =>
    !(p.hoist h).segmentDue && decide ((p.hoist h).interlockSeen = p.interlock) &&
    !expired (p.hoist h).phaseTimer && !expired (p.hoist h).dwellTimer && !(p.link h).partialExpired) &&
  !p.sensors.bayGroup.due && !p.sensors.latchGroup.due && !p.sensors.closingComplete &&
  !(!p.port.buffer.isEmpty && decide (6 ≤ p.port.gap))

/-- The segment event of a hoist falls on mark `n`, or has been taken ahead of it (R50, log 2). -/
def HoistCtl.segmentAt (h : HoistId) (n : Nat) (c : HoistCtl) : HoistCtl :=
  if segmentMark h n then
    if c.segmentAhead then { c with segmentAhead := false } else { c with segmentDue := true }
  else c

/-- A second mark counted by the running timers of a hoist (R51). -/
def HoistCtl.secondMark (c : HoistCtl) : HoistCtl :=
  { c with phaseTimer := countSecond c.phaseTimer, dwellTimer := countSecond c.dwellTimer }

/-- A mark counted while a reply is in progress (R197). -/
def LinkPort.atMark (l : LinkPort) : LinkPort := if l.buffer.isEmpty then l else { l with gap := l.gap + 1 }

/-- A mark counted while a frame is in progress (R182). -/
def PlantPort.atMark (q : PlantPort) : PlantPort := if q.buffer.isEmpty then q else { q with gap := q.gap + 1 }

/-- A millisecond mark (R49), with the second mark that every 1,000th is. -/
def Chip.millisecondMark (p : Chip) (line : Interlock) : Chip :=
  let n := p.sensors.mark + 1
  { p with
    sensors := { (p.sensors.sampleInterlock line) with
      mark := n
      bayGroup := p.sensors.bayGroup.atMark p.params.bayFilter
      latchGroup := p.sensors.latchGroup.atMark p.params.latchFilter }
    hoists := Quad.tab fun h =>
      let c := (p.hoist h).segmentAt h n
      if n % 1000 = 0 then c.secondMark else c
    links := Quad.tab fun h => (p.link h).atMark
    port := p.port.atMark }

/-- MILLISECOND_MARK (R49): the next mark comes about when the events of the present one have been taken (log 2). -/
def execMillisecondMark (line : Interlock) (s : State) : Host.Outcome State Fault Refusal :=
  s.event s.chip.settled (s.chip.millisecondMark line)

/-! ### ENCODER_EDGE and MARKER_PULSE (spec/04) -/

/-- A sample of hoist `h`'s encoder (R64, R65). -/
def Chip.encoderEdge (p : Chip) (h : HoistId) (levels : Channels) : Chip :=
  let faults := (p.unit h).encoderFaults levels
  let p := p.updUnit h fun u => u.sample levels
  if faults then p.takePositionFault h .encoder none else p

/-- ENCODER_EDGE (R64): a sample may come at any time. -/
def execEncoderEdge (h : HoistId) (levels : Channels) (s : State) : Host.Outcome State Fault Refusal :=
  s.event true (s.chip.encoderEdge h levels)

/-- A pulse taken on hoist `h`'s marker line (R77, R78). -/
def Chip.takePulse (p : Chip) (h : HoistId) : Chip :=
  let p := p.updUnit h fun u => { u with lastPulse := some p.sensors.mark }
  let zc := p.elevationAt h (p.unit h).count
  match nearest zc (p.expectedMarkers h) with
  | none => (p.updUnit h fun u => { u with missRun := 0 }).warnSlip h
  | some zb =>
    let dev : Int := (zb : Int) - zc
    match p.pulseOutcome h dev with
    | .correction => (p.correctOffset h dev).meetMarker h zb
    | .warnedCorrection => ((p.correctOffset h dev).warnSlip h).meetMarker h zb
    | .warning => (p.warnSlip h).meetMarker h zb
    | .fault => p.takePositionFault h .position ((p.markerBay h zb).map fun b => b.val)

/-- MARKER_PULSE (R62, R77): a pulse may come at any time; an ignored one changes nothing. -/
def execMarkerPulse (h : HoistId) (s : State) : Host.Outcome State Fault Refusal :=
  s.event true (if s.chip.pulseIgnored h then s.chip else s.chip.takePulse h)

/-! ### POWER_ON_RESET -/

/-- The line rate of a strap setting (R181). -/
def lineRateOf (straps : BitVec 2) : LineRate :=
  match straps.toNat with
  | 0 => .baud115200
  | 1 => .baud230400
  | 2 => .baud460800
  | _ => .baud921600

/-- POWER_ON_RESET: every block at its initial values, with the line rate of the straps and the levels of the first encoder sample.
The model's draws counter goes on, so that free values stay fresh (log 21). -/
def execPowerOnReset (straps : BitVec 2) (channels : Quad Channels) (s : State) : Host.Outcome State Fault Refusal :=
  s.act { Chip.powerOn (lineRateOf straps) channels with draws := s.chip.draws }

end Sys2Proof.Machine
end

