-- ==== Sys2Proof/Machine/ParamCommands.lean ====
section
/-! DEFINITION. The parameters (spec/10, 10.4; spec/11, 11.5): their identifiers, ranges and treatments, the side effects of a change, and the
commands SET_PARAM and GET_PARAM. -/

namespace Sys2Proof.Machine

/-- The plant parameters, by the names of section 11.5. -/
inductive PlantParam where
  | gravity
  | datum
  | minLift
  | weighTol
  | engageTo
  | releaseTo
  | approachTo
  | dwellLimit
  | syncWindow
  | slipLimit
  | driftLimit
  | clearHeight
  | approachDist
  | stopTol
  | pPlantMax
  | unservedThresh
  | bayFilter
  | latchFilter
  | linkTimeout
  deriving DecidableEq, Repr

/-- The parameters of one hoist, by the names of section 11.5. -/
inductive HoistParam where
  | vRated
  | accel
  | pRated
  | tare
  | c
  | num
  | den
  | zHead
  | creep
  | vReposition
  | vTransfer
  | gear
  | overspeedMargin
  | loadEmptyMax
  deriving DecidableEq, Repr

/-- What becomes of a value outside the range (R187). -/
inductive Treatment where
  | refuse
  | clamp
  | saturate
  deriving DecidableEq, Repr

/-- The plant parameter of an identifier (section 11.5). -/
def plantParamOf (identifier : Nat) : Option PlantParam :=
  match identifier with
  | 0x01 => some .gravity
  | 0x02 => some .datum
  | 0x03 => some .minLift
  | 0x04 => some .weighTol
  | 0x05 => some .engageTo
  | 0x06 => some .releaseTo
  | 0x07 => some .approachTo
  | 0x08 => some .dwellLimit
  | 0x09 => some .syncWindow
  | 0x0A => some .slipLimit
  | 0x0B => some .driftLimit
  | 0x0C => some .clearHeight
  | 0x0D => some .approachDist
  | 0x0E => some .stopTol
  | 0x0F => some .pPlantMax
  | 0x10 => some .unservedThresh
  | 0x11 => some .bayFilter
  | 0x12 => some .latchFilter
  | 0x13 => some .linkTimeout
  | _ => none

/-- The hoist parameter of an identifier (section 11.5). -/
def hoistParamOf (identifier : Nat) : Option HoistParam :=
  match identifier with
  | 0x40 => some .vRated
  | 0x41 => some .accel
  | 0x42 => some .pRated
  | 0x43 => some .tare
  | 0x44 => some .c
  | 0x45 => some .num
  | 0x46 => some .den
  | 0x47 => some .zHead
  | 0x48 => some .creep
  | 0x49 => some .vReposition
  | 0x4A => some .vTransfer
  | 0x4B => some .gear
  | 0x4C => some .overspeedMargin
  | 0x4D => some .loadEmptyMax
  | _ => none

/-- The treatment of a plant parameter's value (section 11.5). -/
def PlantParam.treatment (x : PlantParam) : Treatment :=
  match x with
  | .gravity | .datum => .refuse
  | .engageTo | .releaseTo | .approachTo | .dwellLimit => .saturate
  | _ => .clamp

/-- The treatment of a hoist parameter's value (section 11.5); NUM and DEN are then adjusted by R68. -/
def HoistParam.treatment (x : HoistParam) : Treatment :=
  match x with
  | .tare | .c | .num | .den | .zHead => .refuse
  | _ => .clamp

/-- A value treated against a range (R187): none where it is refused RANGE. -/
def Treatment.apply (t : Treatment) (range : Nat × Nat) (x : Int) : Option Nat :=
  match t with
  | .refuse => if (range.1 : Int) ≤ x ∧ x ≤ range.2 then some x.toNat else none
  | .clamp | .saturate => some (max (range.1 : Int) (min x range.2)).toNat

/-! ### Values -/

/-- A plant parameter's value. -/
def PlantParams.get (q : PlantParams) (x : PlantParam) : Nat :=
  match x with
  | .gravity => q.gravity
  | .datum => q.datum
  | .minLift => q.minLift
  | .weighTol => q.weighTol
  | .engageTo => q.engageTo
  | .releaseTo => q.releaseTo
  | .approachTo => q.approachTo
  | .dwellLimit => q.dwellLimit
  | .syncWindow => q.syncWindow
  | .slipLimit => q.slipLimit
  | .driftLimit => q.driftLimit
  | .clearHeight => q.clearHeight
  | .approachDist => q.approachDist
  | .stopTol => q.stopTol
  | .pPlantMax => q.pPlantMax
  | .unservedThresh => q.unservedThresh
  | .bayFilter => q.bayFilter
  | .latchFilter => q.latchFilter
  | .linkTimeout => q.linkTimeout

/-- A plant parameter given a value. -/
def PlantParams.set (q : PlantParams) (x : PlantParam) (v : Nat) : PlantParams :=
  match x with
  | .gravity => { q with gravity := v }
  | .datum => { q with datum := v }
  | .minLift => { q with minLift := v }
  | .weighTol => { q with weighTol := v }
  | .engageTo => { q with engageTo := v }
  | .releaseTo => { q with releaseTo := v }
  | .approachTo => { q with approachTo := v }
  | .dwellLimit => { q with dwellLimit := v }
  | .syncWindow => { q with syncWindow := v }
  | .slipLimit => { q with slipLimit := v }
  | .driftLimit => { q with driftLimit := v }
  | .clearHeight => { q with clearHeight := v }
  | .approachDist => { q with approachDist := v }
  | .stopTol => { q with stopTol := v }
  | .pPlantMax => { q with pPlantMax := v }
  | .unservedThresh => { q with unservedThresh := v }
  | .bayFilter => { q with bayFilter := v }
  | .latchFilter => { q with latchFilter := v }
  | .linkTimeout => { q with linkTimeout := v }

/-- A hoist parameter's value. -/
def HoistParams.get (q : HoistParams) (x : HoistParam) : Nat :=
  match x with
  | .vRated => q.vRated
  | .accel => q.accel
  | .pRated => q.pRated
  | .tare => q.tare
  | .c => q.c
  | .num => q.num
  | .den => q.den
  | .zHead => q.zHead
  | .creep => q.creep
  | .vReposition => q.vReposition
  | .vTransfer => q.vTransfer
  | .gear => q.gear
  | .overspeedMargin => q.overspeedMargin
  | .loadEmptyMax => q.loadEmptyMax

/-- The smallest whole number whose 1,024-fold is at least DEN (R68). -/
def leastNum (den : Nat) : Nat := (den + 1023) / 1024

/-- NUM brought within the ratio's bounds (R68). -/
def adjustNum (num den : Nat) : Nat :=
  if 16 * den < num then 16 * den else if 1024 * num < den then leastNum den else num

/-- A hoist parameter given a value, with what the owner's rule moves beside it: NUM by the ratio (R68), V_REPOSITION and V_TRANSFER
lowered to V_RATED (R153). -/
def HoistParams.set (q : HoistParams) (x : HoistParam) (v : Nat) : HoistParams :=
  match x with
  | .vRated => { q with vRated := v, vReposition := min q.vReposition v, vTransfer := min q.vTransfer v }
  | .accel => { q with accel := v }
  | .pRated => { q with pRated := v }
  | .tare => { q with tare := v }
  | .c => { q with c := v }
  | .num => { q with num := adjustNum v q.den }
  | .den => { q with den := v, num := adjustNum q.num v }
  | .zHead => { q with zHead := v }
  | .creep => { q with creep := v }
  | .vReposition => { q with vReposition := v }
  | .vTransfer => { q with vTransfer := v }
  | .gear => { q with gear := v }
  | .overspeedMargin => { q with overspeedMargin := v }
  | .loadEmptyMax => { q with loadEmptyMax := v }

/-! ### Ranges (section 11.5) -/

/-- The largest |drift| of a referenced hoist (R79). -/
def Chip.largestDrift (p : Chip) : Nat :=
  hoistList.foldl (fun n h => if (p.unit h).referenced then max n (p.unit h).drift.natAbs else n) 0

/-- The range of a plant parameter as it stands (section 11.5, R79). -/
def Chip.plantRange (p : Chip) (x : PlantParam) : Nat × Nat :=
  match x with
  | .gravity => (9780, 9835)
  | .datum => (0, 1048575)
  | .minLift => (1000, 500000)
  | .weighTol => (5, 200)
  | .engageTo | .releaseTo | .approachTo => (0, 255)
  | .dwellLimit => (0, 65535)
  | .syncWindow => (5, min 200 p.params.slipLimit)
  | .slipLimit => (max 50 p.params.syncWindow, 1000)
  | .driftLimit => (max 100 p.largestDrift, 20000)
  | .clearHeight => (200, 10000)
  | .approachDist => (200, 5000)
  | .stopTol => (2, 50)
  | .pPlantMax | .unservedThresh => (0, 20000)
  | .bayFilter | .latchFilter => (0, 7)
  | .linkTimeout => (1, 10)

/-- The range against which a hoist parameter's value is treated (section 11.5, R153); for NUM and DEN before the ratio (R68). -/
def HoistParams.range (q : HoistParams) (x : HoistParam) : Nat × Nat :=
  match x with
  | .vRated => (100, 6000)
  | .accel => (50, 1500)
  | .pRated => (0, 4000)
  | .tare => (0, 20000)
  | .c => (1, 200)
  | .num | .den => (1, 16777215)
  | .zHead => (0, 1048575)
  | .creep => (20, 300)
  | .vReposition | .vTransfer => (1, q.vRated)
  | .gear => (0, 3)
  | .overspeedMargin => (0, 1000)
  | .loadEmptyMax => (0, 21000)

/-- The range of a hoist parameter that GET_PARAM reports: for NUM the ends that the ratio leaves a value taken (R188, log 18). -/
def HoistParams.reportedRange (q : HoistParams) (x : HoistParam) : Nat × Nat :=
  match x with
  | .num => (max 1 (leastNum q.den), min 16777215 (16 * q.den))
  | _ => q.range x

/-! ### GET_PARAM (R188, section 11.5) -/

/-- A GET_PARAM result: identifier, hoist, value, lower end, upper end, the last given as 0xFFFF where it exceeds 65,535. -/
def Chip.paramResult (p : Chip) (identifier hoist value : Nat) (range : Nat × Nat) : List Byte :=
  byteField identifier ++ byteField hoist ++ p.signedField 4 value ++ p.signedField 4 range.1 ++
    p.field 2 (min range.2 65535)

/-- GET_PARAM taken by the owner of the parameter (R188). For a plant parameter the hoist byte of the reply is 0 (log 31). -/
def getParam (identifier hoist : Nat) (p : Chip) : Answer :=
  match plantParamOf identifier with
  | some x => answerDone (p.paramResult identifier 0 (p.params.get x) (p.plantRange x))
  | none =>
    match hoistParamOf identifier, hoistOf hoist with
    | some x, some h =>
      answerDone (p.paramResult identifier h.val ((p.hp h).get x) ((p.hp h).reportedRange x))
    | _, _ => refuse .range

/-- GET_PARAM (R188). -/
def execGetParam (identifier hoist : Nat) (s : State) : Host.Outcome State Fault Refusal :=
  s.query (.getParam identifier hoist) (getParam identifier hoist s.chip)

/-! ### SET_PARAM (R187) -/

/-- Every previous sample of a line is absent, the accepted level kept (R56). -/
def LineFilter.forget {α : Type} (l : LineFilter α) : LineFilter α := { l with previous := none }

/-- The group BAY is restarted (R56). -/
def Chip.restartBayGroup (p : Chip) : Chip :=
  { p with sensors := { p.sensors with
      bayLines := p.sensors.bayLines.map LineFilter.forget, bayGroup := p.sensors.bayGroup.restarted } }

/-- The group LATCH is restarted (R56). -/
def Chip.restartLatchGroup (p : Chip) : Chip :=
  { p with sensors := { p.sensors with
      latchLines := Quad.tab fun h => (p.sensors.latchLines.get h).forget
      latchGroup := p.sensors.latchGroup.restarted } }

/-- The side effects of a change of a plant parameter, after it has been set (R56, R140). The unserved condition is evaluated with the end
of the event (R144). -/
def Chip.afterPlantChange (p : Chip) (x : PlantParam) : Chip :=
  match x with
  | .bayFilter => p.restartBayGroup
  | .latchFilter => p.restartLatchGroup
  | .pPlantMax =>
    let taken := clampTo p.params.pPlantMax p.power.setpoint
    if taken = p.power.setpoint then p else p.setSetpoint taken
  | _ => p

/-- A plant parameter set to the value taken (R187). -/
def Chip.setPlant (p : Chip) (x : PlantParam) (v : Nat) : Chip :=
  if v = p.params.get x then p else { p with params := p.params.set x v }.afterPlantChange x

/-- A change of Z_HEAD, NUM or DEN, which moves the elevation of every count (R69). -/
def HoistParams.rescaled (old new : HoistParams) : Bool :=
  decide (old.zHead ≠ new.zHead ∨ old.num ≠ new.num ∨ old.den ≠ new.den)

/-- A hoist parameter set to the value taken (R187), with the loss of reference (R69) and the recomputation of shares (R143) that a
change works. -/
def Chip.setHoistParam (p : Chip) (h : HoistId) (x : HoistParam) (v : Nat) : Chip :=
  let old := p.hp h
  let new := old.set x v
  let p := { p with hoistParams := p.hoistParams.set h new }
  let p := if old.rescaled new then p.unreference h else p
  if old.pRated = new.pRated then p else p.allocate

/-- A SET_PARAM result: the identifier, the hoist, and the value taken (section 11.5). -/
def Chip.paramTaken (p : Chip) (identifier hoist value : Nat) : List Byte :=
  byteField identifier ++ byteField hoist ++ p.signedField 4 value

/-- A SET_PARAM of DEN, taken as given, that moves NUM is answered DONE_ADJUSTED (R68, R187). -/
def HoistParams.movesNum (q : HoistParams) (x : HoistParam) (v : Nat) : Bool :=
  decide (x = .den ∧ (q.set .den v).num ≠ q.num)

/-- SET_PARAM taken by the owner of the parameter (R187, R169). -/
def setParam (identifier hoist : Nat) (value : Int) (p : Chip) : Chip × Answer :=
  match plantParamOf identifier with
  | some x =>
    (match x.treatment.apply (p.plantRange x) value with
    | none => (p, refuse .range)
    | some v =>
      (p.setPlant x v, answerTaken (decide ((v : Int) ≠ value)) (p.paramTaken identifier 0 v)))
  | none =>
    match hoistParamOf identifier, hoistOf hoist with
    | some x, some h =>
      (match x.treatment.apply ((p.hp h).range x) value with
      | none => (p, refuse .range)
      | some v =>
        if x ≠ .gear ∧ (p.hoist h).phase ≠ .idle then (p, refuse .locked)
        else
          let p' := p.setHoistParam h x v
          let taken := ((p.hp h).set x v).get x
          (p', answerTaken (decide ((taken : Int) ≠ value) || (p.hp h).movesNum x v)
            (p.paramTaken identifier h.val taken)))
    | _, _ => (p, refuse .range)

/-- SET_PARAM (R187). -/
def execSetParam (identifier hoist : Nat) (value : Int) (s : State) : Host.Outcome State Fault Refusal :=
  s.command (.setParam identifier hoist value) (setParam identifier hoist value s.chip)

end Sys2Proof.Machine
end

