-- ==== Sys2Proof/Machine/PlantLink.lean ====
section
/-! DEFINITION. The Plant Link Port (spec/10): framing, checking and placing frames, the port's own checks, and the end of a reply; the commands
PLANT_LINK_BYTE, FRAME_COMPLETE, FRAME_GAP_TIMEOUT, CHARACTER_ERROR and REPLY_END. -/

namespace Sys2Proof.Machine

/-! ### Taking a frame (R184) -/

/-- The first of the port's own checks that a frame fails (R184). -/
def portRefusal (f : Frame) : Option Reason :=
  match Originator.ofCode (f.byte 1) with
  | none => some .origin
  | some o =>
    match f.command with
    | none => some .unknown
    | some i => if o.permits i then none else some .denied

/-- A frame becomes the frame in hand and is taken (R184): refused by the port, its reply begins; otherwise it waits in hand as the command
handed to its owner. -/
def Chip.takeFrame (p : Chip) (f : Frame) : Chip :=
  let p := { p with port := { p.port with inHand := some f } }
  match portRefusal f with
  | some reason => p.reply (refuse reason)
  | none => p

/-- A checked frame is placed (R183): in hand, pending, or discarded as an overrun. -/
def Chip.placeFrame (p : Chip) (f : Frame) : Chip :=
  match p.port.inHand, p.port.nextFrame with
  | none, _ => p.takeFrame f
  | some _, none => { p with port := { p.port with nextFrame := some f } }
  | some _, some _ => { p with port := { p.port with overruns := satInc16 p.port.overruns } }

/-! ### The line (R181, R182) -/

/-- The frame being received leaves the buffer. -/
def Chip.clearBuffer (p : Chip) : Chip := { p with port := { p.port with buffer := [], gap := 0 } }

/-- The 32nd byte completes the frame, which leaves the buffer for the check (R182, R183). -/
def Chip.completeFrame (p : Chip) (byte : Byte) : Chip :=
  let f : Frame := ⟨p.port.buffer ++ [byte]⟩
  let p := p.clearBuffer
  if f.crcAgrees then p.placeFrame f
  else { p with port := { p.port with checkErrors := satInc16 p.port.checkErrors } }

/-- The sixth millisecond mark has come since the latest byte of a frame in progress (R182). -/
def PlantPort.gapReached (q : PlantPort) : Bool := !q.buffer.isEmpty && decide (6 ≤ q.gap)

/-- The frame in progress is discarded for its gap (R182). -/
def Chip.discardForGap (p : Chip) : Chip :=
  { p.clearBuffer with port := { p.clearBuffer.port with lengthErrors := satInc16 p.port.lengthErrors } }

/-- A frame whose sixth mark has come is discarded before the next character is taken (R182; log 41). -/
def Chip.settleGap (p : Chip) : Chip := if p.port.gapReached then p.discardForGap else p

/-- FRAME_COMPLETE (R182 to R184): it comes about where 31 bytes of the frame have been received, and their sixth mark has not come. -/
def execFrameComplete (byte : Byte) (s : State) : Host.Outcome State Fault Refusal :=
  s.event (decide (s.chip.port.buffer.length = 31) && !s.chip.port.gapReached) (s.chip.completeFrame byte)

/-- A byte other than the 32nd (R182): between frames only 0xA5 starts one; within a frame every byte is appended. -/
def Chip.receiveByte (p : Chip) (byte : Byte) : Chip :=
  if p.port.buffer.isEmpty && decide (byte ≠ 0xA5#8) then p
  else { p with port := { p.port with buffer := p.port.buffer ++ [byte], gap := 0 } }

/-- PLANT_LINK_BYTE (R182): it comes about where the byte is not the 32nd of its frame. -/
def execPlantLinkByte (byte : Byte) (s : State) : Host.Outcome State Fault Refusal :=
  s.event (decide (s.chip.port.buffer.length < 31) || s.chip.port.gapReached) (s.chip.settleGap.receiveByte byte)

/-- FRAME_GAP_TIMEOUT (R182). -/
def execFrameGapTimeout (s : State) : Host.Outcome State Fault Refusal :=
  s.event s.chip.port.gapReached s.chip.discardForGap

/-- A character without its stop bit (R181): it is discarded, with any frame being received, and counted. -/
def Chip.discardCharacter (p : Chip) : Chip :=
  { p.clearBuffer with port := { p.clearBuffer.port with characterErrors := satInc16 p.port.characterErrors } }

/-- CHARACTER_ERROR (R181): it may come at any time. -/
def execCharacterError (s : State) : Host.Outcome State Fault Refusal := s.event true s.chip.settleGap.discardCharacter

/-! ### The end of a reply (R184) -/

/-- The last byte of the reply has been sent: the frame in hand becomes absent, and a pending frame is taken (R184). -/
def Chip.endReply (p : Chip) : Chip :=
  let next := p.port.nextFrame
  let p := { p with port := { p.port with sending := none, inHand := none, nextFrame := none } }
  match next with
  | some f => p.takeFrame f
  | none => p

/-- REPLY_END (R184): it comes about where a reply is being sent. -/
def execReplyEnd (s : State) : Host.Outcome State Fault Refusal :=
  s.event s.chip.port.sending.isSome s.chip.endReply

end Sys2Proof.Machine
end

