-- ==== Sys2Proof/Machine/Queries.lean ====
section
/-! DEFINITION. The queries that read several blocks (spec/10 R186, R192; spec/11 R195, R196): GET_HOIST, GET_PLANT, SNAPSHOT. -/

namespace Sys2Proof.Machine

/-! ### GET_HOIST (R83, R114, R155, R170, R196) -/

/-- The whole seconds left before a timer expires; 0 where it is stopped. -/
def secondsLeft (t : Option Timer) : Nat :=
  match t with
  | some t => t.limit - t.counted
  | none => 0

/-- Page 0: the Hoist Controller items other than the trips (R114). DESIGN CHOICE (log 42): the reference, the brake and the latch command
stand here as R86 and R93 give them when the command is taken, and not as the latest segment event handed them to the port (R170). -/
def Chip.hoistPage (p : Chip) (h : HoistId) : List Byte :=
  let c := p.hoist h
  byteField c.phase.code ++ byteField c.holdMode.code ++ byteField (flagCode c.able) ++ byteField c.withdrawal.code ++
    p.signedField 2 c.speedRef ++ byteField c.brake.code ++ byteField c.latchCommand.code ++
    byteField ((c.latchLevel.map Latch.code).getD 0) ++ byteField (interlockCode p.interlock) ++
    byteField (maskOf [c.latchLevel.isSome, c.phaseReply.isSome, c.phaseTimer.isSome, c.dwellTimer.isSome]) ++
    p.field 3 (c.phaseReply.getD 0) ++ p.field 1 (secondsLeft c.phaseTimer) ++ p.field 2 (secondsLeft c.dwellTimer) ++
    byteField (flagCode c.noBay) ++ p.field 2 c.lateApproach

/-- Page 3: count, offset, drift, elevation, measured speed, referenced, run of misses (R83). -/
def Chip.positionPage (p : Chip) (h : HoistId) : List Byte :=
  let u := p.unit h
  p.signedField 4 u.count ++ p.signedField 4 u.offset ++ p.signedField 4 u.drift ++ p.field 3 u.elevation ++
    p.signedField 4 u.speed ++ byteField (flagCode u.referenced) ++ p.field 1 u.missRun

/-- Page 4: L, S, M and the four Position Unit counts (R83). -/
def Chip.ropePage (p : Chip) (h : HoistId) : List Byte :=
  let u := p.unit h
  let l := ropeLength (p.hp h) u.count
  p.signedField 5 l ++ p.signedField 5 (stretch (p.hp h) (p.loadM h) l) ++ p.field 4 (p.loadM h) ++
    p.field 2 u.encoderErrors ++ p.field 2 u.rangeCount ++ p.field 2 u.slipWarnings ++ p.field 2 u.missedMarkers

/-- Page 5: the link items, the last reply, the check speed and the overspeed run (R170). -/
def Chip.linkPage (p : Chip) (h : HoistId) : List Byte :=
  let l := p.link h
  let c := p.hoist h
  byteField (flagCode l.enabled) ++ byteField l.state.code ++ p.field 1 l.proving ++ p.field 1 l.missed ++
    byteField (flagCode l.segmentReply) ++ byteField (flagCode l.last.isSome) ++
    byteField (flagCode ((l.last.map DriveReply.ready).getD false)) ++
    p.field 1 ((l.last.map DriveReply.code).getD 0) ++ p.field 3 ((l.last.map DriveReply.load).getD 0) ++
    p.field 2 l.replyErrors ++ p.field 2 l.linkLosses ++ p.field 2 c.checkSpeed ++ p.field 1 c.overspeedRun

/-- Page 6: the fault record and the power items (R155, R170). -/
def Chip.faultPage (p : Chip) (h : HoistId) : List Byte :=
  let c := p.hoist h
  let f := c.fault
  let q := p.hp h
  byteField (maskOf [f.first.isSome, f.detail.isSome, f.phaseAt.isSome, f.further.isSome]) ++
    byteField ((f.first.map FaultCause.code).getD 0) ++ p.field 1 (f.detail.getD 0) ++
    byteField ((f.phaseAt.map Phase.code).getD 0) ++ p.field 2 (f.further.getD 0).toNat ++ p.field 1 f.count ++
    p.field 2 (p.power.share.get h) ++ byteField (flagCode (p.power.eligible.get h)) ++ p.field 2 c.shareRead ++
    p.field 2 c.served ++ p.field 2 c.vLim ++ p.field 2 q.gearLimit ++ p.field 2 q.aStep ++ p.signedField 2 c.speedRef

/-- GET_HOIST taken by the Hoist Controller of the hoist named (R186, R196). A hoist outside 0 to 3 is refused RANGE (log 17). -/
def getHoist (hoist page : Nat) (p : Chip) : Answer :=
  match hoistOf hoist with
  | none => refuse .range
  | some h =>
    match page with
    | 0 => answerDone (p.hoistPage h)
    | 1 => answerDone (p.tripResult (p.hoist h).active)
    | 2 => answerDone (p.tripResult (p.hoist h).staged)
    | 3 => answerDone (p.positionPage h)
    | 4 => answerDone (p.ropePage h)
    | 5 => answerDone (p.linkPage h)
    | 6 => answerDone (p.faultPage h)
    | _ => refuse .range

/-- GET_HOIST (R114, R196). -/
def execGetHoist (hoist page : Nat) (s : State) : Host.Outcome State Fault Refusal :=
  s.query (.getHoist hoist page) (getHoist hoist page s.chip)

/-! ### GET_PLANT (R190, R192) -/

/-- The three items that every page begins with (R192). -/
def Chip.plantHead (p : Chip) : List Byte :=
  byteField p.port.attention.mask ++ byteField (flagCode p.port.changed) ++ byteField (interlockCode p.interlock)

/-- The served total (R148). -/
def Chip.servedTotal (p : Chip) : Nat := sumQuad (Quad.tab fun h => (p.hoist h).served)

/-- The mass states in the order of their codes (R193). -/
def massStates : List MassState := [.absent, .parked, .assigned, .aboard, .retiring, .missing]

/-- The bay states in the order of their codes (R193). -/
def bayStates : List BayState := [.unsurveyed, .opened, .occupied, .inbound, .outbound, .barred]

/-- The number of masses in a state. -/
def Chip.massesIn (p : Chip) (x : MassState) : Nat := (massList.filter fun m => decide ((p.mass m).state = x)).length

/-- The number of bays in a state. -/
def Chip.baysIn (p : Chip) (x : BayState) : Nat := (bayList.filter fun b => decide ((p.bay b).state = x)).length

/-- GET_PLANT taken by the port (R192): the counts are those before the reply begins, CHANGED as before it is cleared. -/
def getPlant (page : Nat) (p : Chip) : Answer :=
  match page with
  | 0 =>
    answerDone (p.plantHead ++ byteField p.power.mode.code ++ p.signedField 2 p.power.setpoint ++
      p.field 2 p.power.total ++ p.field 2 p.power.unserved ++ p.field 2 p.servedTotal)
  | 1 =>
    answerDone (p.plantHead ++ p.field 2 p.port.lengthErrors ++ p.field 2 p.port.characterErrors ++
      p.field 2 p.port.checkErrors ++ p.field 2 p.port.overruns ++ p.field 2 p.port.answered ++
      p.field 2 p.port.refusals)
  | 2 =>
    answerDone (p.plantHead ++ massStates.flatMap (fun x => p.field 1 (p.massesIn x)) ++
      bayStates.flatMap (fun x => p.field 1 (p.baysIn x)) ++ p.field 1 p.queueLength ++ p.field 1 p.heldCount ++
      p.field 2 p.orders.dropped)
  | _ => refuse .range

/-- CHANGED is cleared (R190). -/
def Chip.clearChanged (p : Chip) : Chip := { p with port := { p.port with changed := false } }

/-- GET_PLANT (R190, R192): carried out, it clears CHANGED after the reply has recorded it. -/
def execGetPlant (page : Nat) (s : State) : Host.Outcome State Fault Refusal :=
  if (getPlant page s.chip).status.isRefusal then s.query (.getPlant page) (getPlant page s.chip)
  else if s.chip.handedCommand = some (.getPlant page) then s.act (s.chip.reply (getPlant page s.chip)).clearChanged
  else .next s

/-! ### SNAPSHOT (R82, R196) -/

/-- A number held to the low 27 bits of a group; one that does not fit stands as a free value (log 19). -/
def Chip.loadBits (p : Chip) (m : Nat) : Nat :=
  if m < 2 ^ 27 then m else Config.unfitting p.draws 4 m % 2 ^ 27

/-- The group of one hoist: the elevation of the captured count in the high 20 bits, the referenced flag in the next, the load in the low
27 (R82, R196). -/
def Chip.snapshotGroup (p : Chip) (h : HoistId) : Nat :=
  p.elevationAt h (p.unit h).count * 2 ^ 28 + flagCode (p.unit h).referenced * 2 ^ 27 + p.loadBits (p.loadM h)

/-- SNAPSHOT taken by the four Position Units at one instant (R82, R186). -/
def takeSnapshot (p : Chip) : Answer := answerDone (hoistList.flatMap fun h => p.field 6 (p.snapshotGroup h))

/-- SNAPSHOT (R82). -/
def execSnapshot (s : State) : Host.Outcome State Fault Refusal := s.query .snapshot (takeSnapshot s.chip)

end Sys2Proof.Machine
end

