-- ==== Sys2Proof/Machine/Restart.lean ====
section
/-! DEFINITION. RESTART (spec/10 R189; spec/05 R113; spec/06 R136; spec/07 R154): its taking by the port, the six events at which its owners take
it, and its reply. -/

namespace Sys2Proof.Machine

/-- RESTART handed to its six owners (R189). -/
def RestartWork.handed : RestartWork :=
  { queueDue := true, powerDue := true, hoistDue := Quad.all true, discarded := 0, stagedDropped := 0, abandoned := 0,
    waiting := 0, halted := 0 }

/-- RESTART (R189): the port hands it to the Order Queue, the Power Allocator and the four Hoist Controllers. -/
def execRestart (s : State) : Host.Outcome State Fault Refusal :=
  if s.chip.handedCommand = some .restart then
    s.act { s.chip with port := { s.chip.port with restart := some RestartWork.handed } }
  else .next s

/-- The RESTART under way, if any, changed. -/
def Chip.updRestart (p : Chip) (f : RestartWork → RestartWork) : Chip :=
  { p with port := { p.port with restart := p.port.restart.map f } }

/-- The last of the six has taken RESTART. -/
def RestartWork.complete (w : RestartWork) : Bool :=
  !w.queueDue && !w.powerDue && hoistList.all fun h => !w.hoistDue.get h

/-- The tallies of a RESTART reply (R189, R195). -/
def Chip.restartResult (p : Chip) (w : RestartWork) : List Byte :=
  p.field 1 w.discarded ++ p.field 1 w.stagedDropped ++ p.field 1 w.abandoned ++ p.field 1 w.waiting ++ p.field 1 w.halted

/-- The reply to RESTART is sent when the last of the six has taken it (R189). -/
def Chip.answerRestart (p : Chip) : Chip :=
  match p.port.restart with
  | none => p
  | some w =>
    if w.complete then
      { p with port := { p.port with restart := none } }.reply (answerDone (p.restartResult w))
    else p

/-- An owner takes RESTART, where it has still to take it, as an event of its own (R189). -/
def State.restartPart (s : State) (due : RestartWork → Bool) (effect : Chip) : Host.Outcome State Fault Refusal :=
  match s.chip.port.restart with
  | none => .next s
  | some w => if due w then s.act (s.chip.finish effect).answerRestart else .next s

/-! ### The Order Queue (R136) -/

/-- The Order Queue empties its list; the orders-dropped count is not raised (R136). -/
def Chip.restartQueue (p : Chip) : Chip :=
  { p with orders := { p.orders with queue := [] } }.updRestart fun w =>
    { w with queueDue := false, discarded := w.discarded + p.orders.queue.length }

/-- RESTART_ORDER_QUEUE (R136, R189). -/
def execRestartOrderQueue (s : State) : Host.Outcome State Fault Refusal :=
  s.restartPart RestartWork.queueDue s.chip.restartQueue

/-! ### The Power Allocator (R154) -/

/-- The Power Allocator sets the setpoint to 0, with the change of mode that follows (R154). -/
def Chip.restartPower (p : Chip) : Chip := (p.setSetpoint 0).updRestart fun w => { w with powerDue := false }

/-- RESTART_POWER_ALLOCATOR (R154, R189). -/
def execRestartPowerAllocator (s : State) : Host.Outcome State Fault Refusal :=
  s.restartPart RestartWork.powerDue s.chip.restartPower

/-! ### A Hoist Controller (R113) -/

/-- The order of a trip whose abandonment waits on the latch is discarded when it completes, whoever asked for it first (R136). -/
def Chip.discardAtCompletion (p : Chip) (h : HoistId) : Chip :=
  p.updHoist h fun c =>
    { c with withdrawal := (match c.withdrawal with
        | .abandon _ => .abandon .discarded
        | other => other) }

/-- A loaded trip halted by RESTART (R113): a trip already HALTED takes the cause; one of a FAULTED hoist stays as it is. -/
def Chip.restartLoaded (p : Chip) (h : HoistId) : Chip :=
  match (p.hoist h).phase with
  | .travel => p.haltHoist h .restart .travel
  | .dwell => p.haltHoist h .restart .dwell
  | .approach => p.haltHoist h .restart .approach
  | .release => p.haltHoist h .restart .release
  | .halted => p.updActive h fun t => { t with haltCause := some .restart }
  | .idle | .engage | .faulted => p

/-- What RESTART does to the trips of hoist `h` (R113). -/
def Chip.restartTrips (p : Chip) (h : HoistId) : Chip :=
  let p := p.dropStaged h .discarded
  match (p.hoist h).active with
  | none => p
  | some t =>
    match t.leg with
    | .empty => (p.abandon h .discarded).discardAtCompletion h
    | .loaded => p.restartLoaded h

/-- The hold mode becomes NONE, and the NO_BAY indication is kept only for a trip that was HALTED and stays so (R113, log 27). -/
def Chip.restartItems (p : Chip) (h : HoistId) (before : Phase) : Chip :=
  p.updHoist h fun c =>
    { c with holdMode := .none, noBay := c.noBay && decide (before = .halted ∧ c.phase = .halted) }

/-- What RESTART's reply counts at a hoist (R189): one staged trip dropped; an active trip abandoned, waiting on the latch or not, one whose
withdrawal was under way among them (log 28); a hoist left HALTED with cause RESTART. DESIGN CHOICE (log 45): of the hoists HALTED before,
the last tally counts those of a loaded trip, which take the cause RESTART here, and not one of an empty trip that had it from CLEAR_FAULT
and waits for its latch. DESIGN CHOICE (log 47): the tallies count the trips that the hoist holds when it takes RESTART, and not those that
the change of mode of the same RESTART (R134, R154) ended at the hoist before. -/
def Chip.restartTally (p : Chip) (h : HoistId) (w : RestartWork) : RestartWork :=
  let c := p.hoist h
  let empty := match c.active with
    | some t => decide (t.leg = .empty)
    | none => false
  let waits := decide (c.withdrawal ≠ .none) || c.waitsForLatch
  let halts := c.loaded &&
    decide (c.phase = .travel ∨ c.phase = .dwell ∨ c.phase = .approach ∨ c.phase = .release ∨ c.phase = .halted)
  { w with
    hoistDue := w.hoistDue.set h false
    stagedDropped := w.stagedDropped + flagCode c.staged.isSome
    abandoned := w.abandoned + flagCode empty
    waiting := w.waiting + flagCode (empty && waits)
    halted := w.halted + flagCode halts }

/-- Hoist Controller `h` takes RESTART (R113). -/
def Chip.restartHoist (p : Chip) (h : HoistId) : Chip :=
  ((p.restartTrips h).restartItems h (p.hoist h).phase).updRestart (p.restartTally h)

/-- RESTART_HOIST (R113, R189). -/
def execRestartHoist (h : HoistId) (s : State) : Host.Outcome State Fault Refusal :=
  s.restartPart (fun w => w.hoistDue.get h) (s.chip.restartHoist h)

end Sys2Proof.Machine
end

