-- ==== Sys2Proof/Machine/Selection.lean ====
section
/-! DEFINITION. The Trip Selector (spec/06, 6.2): servings, tries, directed and automatic choice, staging. -/

namespace Sys2Proof.Machine

/-- The waiting set: the able hoists (R89, R125). -/
def Chip.waiting (p : Chip) (h : HoistId) : Bool := (p.hoist h).able

/-- The hoists in round-robin order: from the hoist after the pointer, passing from 3 to 0 (R127). -/
def roundRobin (pointer : HoistId) : List HoistId := [pointer + 1, pointer + 2, pointer + 3, pointer]

/-- A serving may begin: a request is pending and no serving is under way (R127). -/
def Chip.servingReady (p : Chip) : Bool := p.selector.request && p.selector.serving.isEmpty

/-- A serving begins (R127): the pending item becomes no, and the list is formed of the waiting hoists. With none waiting it ends at
once. -/
def Chip.startServing (p : Chip) : Chip :=
  { p with selector := { p.selector with
      request := false, serving := (roundRobin p.selector.pointer).filter p.waiting } }

/-- SERVING_START (R127). -/
def execServingStart (s : State) : Host.Outcome State Fault Refusal :=
  s.event s.chip.servingReady s.chip.startServing

/-! ### Directed choice (R129) -/

/-- The order fits hoist `h` (R129). -/
def Chip.orderFits (p : Chip) (h : HoistId) (o : Order) : Bool :=
  let m := p.mass o.mass
  (match m.bay with
    | none => false
    | some b =>
      decide (m.state = .parked ∧ (p.bay b).state = .occupied) && p.reaches h b) &&
  decide ((p.bay o.destination).state = .opened ∧ (o.hoist = none ∨ o.hoist = some h)) &&
  p.reaches h o.destination

/-- The trip staged from an order (R129). -/
def Chip.tripOfOrder (p : Chip) (o : Order) (source : BayId) : Trip :=
  { kind := .directed, mass := o.mass, source := source, destination := o.destination, leg := .empty,
    direction := p.directionTo (p.elevationOf source) o.destination, orderTag := some o.tag, measured := none,
    retargets := 0, resumePhase := none, haltCause := none }

/-- The list without the first order that fits, which has left it (R129). -/
def removeFirst (fits : Order → Bool) (l : List Order) : List Order :=
  match l with
  | [] => []
  | o :: os => if fits o then os else o :: removeFirst fits os

/-- The directed choice for hoist `h`: the oldest order that fits, and its mass's bay (R129). -/
def Chip.directedChoice (p : Chip) (h : HoistId) : Option (Order × BayId) :=
  match p.orders.queue.find? (p.orderFits h) with
  | none => none
  | some o => (p.mass o.mass).bay.map fun b => (o, b)

/-! ### Automatic choice (R130, R131) -/

/-- The mass is a candidate load for hoist `h` (R130). -/
def Chip.candidateLoad (p : Chip) (h : HoistId) (m : MassId) : Bool :=
  let r := p.mass m
  decide (r.state = .parked ∧ r.weighHold = false) && !p.queued m &&
  (match r.bay with
    | none => false
    | some b => decide ((p.bay b).state = .occupied) && p.nonService b && p.reaches h b)

/-- The bay is a candidate destination for hoist `h` (R130). -/
def Chip.candidateDestination (p : Chip) (h : HoistId) (b : BayId) : Bool :=
  decide ((p.bay b).state = .opened) && p.nonService b && p.reaches h b

/-- Bay `b` comes before bay `b'` by elevation, the lower first or the higher first, and then by number (R131). -/
def Chip.bayBefore (p : Chip) (lowFirst : Bool) (b b' : BayId) : Bool :=
  let e := p.elevationOf b
  let e' := p.elevationOf b'
  if lowFirst then decide (e < e') || (decide (e = e') && decide (b < b'))
  else decide (e' < e) || (decide (e = e') && decide (b < b'))

/-- The candidate loads with their bays. -/
def Chip.loadBays (p : Chip) (h : HoistId) : List (MassId × BayId) :=
  (massList.filter (p.candidateLoad h)).filterMap fun m => (p.mass m).bay.map fun b => (m, b)

/-- The automatic choice for hoist `h` in CHARGE, with its source lowest and its destination highest, or in DISCHARGE, the other way about
(R131): none where a candidate is wanting or the lift falls short of MIN_LIFT. -/
def Chip.automaticIn (p : Chip) (h : HoistId) (charging : Bool) : Option Trip :=
  match firstBy (fun x y => p.bayBefore charging x.2 y.2) (p.loadBays h),
      firstBy (p.bayBefore (!charging)) (bayList.filter (p.candidateDestination h)) with
  | some (m, source), some destination =>
    let low := p.elevationOf (if charging then source else destination)
    let high := p.elevationOf (if charging then destination else source)
    if low + p.params.minLift ≤ high then
      some
        { kind := if charging then .charge else .discharge, mass := m, source := source, destination := destination,
          leg := .empty, direction := if charging then .up else .down, orderTag := none, measured := none,
          retargets := 0, resumePhase := none, haltCause := none }
    else none
  | _, _ => none

/-- The automatic choice for hoist `h` under the plant mode as it stands; none in STANDBY (R128). -/
def Chip.automaticChoice (p : Chip) (h : HoistId) : Option Trip :=
  match p.power.mode with
  | .charge => p.automaticIn h true
  | .discharge => p.automaticIn h false
  | .standby => none

/-! ### Staging (R90, R132) -/

/-- A trip is staged for hoist `h` (R132): the mass becomes ASSIGNED, both bays are held, the order if any is held, the pointer becomes
`h`. It enters the active slot of an IDLE hoist and is activated, with a selection request (R126, R128), and otherwise the staged slot. -/
def Chip.stage (p : Chip) (h : HoistId) (t : Trip) (o : Option Order) : Chip :=
  let slot : Slot := if (p.hoist h).phase = .idle then .active else .staged
  let p := { p with selector := { p.selector with pointer := h } }
  let p := ((p.massAssigned t.mass).holdSource h slot t.source).holdDestination h slot t.destination
  let p := match o with
    | some _ => p.setHeld h slot o
    | none => p
  match slot with
  | .active => ((p.updHoist h fun c => { c with active := some t }).activate h none).request
  | .staged => p.updHoist h fun c => { c with staged := some t }

/-- A try for hoist `h` (R128): a directed trip, or else an automatic one. -/
def Chip.tryFor (p : Chip) (h : HoistId) : Chip :=
  match p.directedChoice h with
  | some (o, source) =>
    { p with orders := { p.orders with queue := removeFirst (p.orderFits h) p.orders.queue } }.stage h
      (p.tripOfOrder o source) (some o)
  | none =>
    match p.automaticChoice h with
    | some t => p.stage h t none
    | none => p

/-- The next hoist of the serving list: tried where it waits, passed over where it has left the waiting set (R127). -/
def Chip.nextTry (p : Chip) : Chip :=
  match p.selector.serving with
  | [] => p
  | h :: rest =>
    let p := { p with selector := { p.selector with serving := rest } }
    if p.waiting h then p.tryFor h else p

/-- TRY (R127, R128): it comes about where a serving is under way. -/
def execTry (s : State) : Host.Outcome State Fault Refusal :=
  s.event (!s.chip.selector.serving.isEmpty) s.chip.nextTry

end Sys2Proof.Machine
end

