-- ==== Sys2Proof/Machine/Dispatch.lean ====
section
/-! DEFINITION. The dispatcher: one arm for each command of the table, each a call of that command's meaning. -/

namespace Sys2Proof.Machine

/-- The effect of a command on everything but the queue. -/
def exec (i : Instr) (s : State) : Host.Outcome State Fault Refusal :=
  match i with
  | .powerOnReset straps channels => Sys2Proof.Machine.execPowerOnReset straps channels s
  | .millisecondMark line => Sys2Proof.Machine.execMillisecondMark line s
  | .segmentEvent h => Sys2Proof.Machine.execSegmentEvent h s
  | .linkTimeout h => Sys2Proof.Machine.execLinkTimeout h s
  | .hoistLinkReply h byte => Sys2Proof.Machine.execHoistLinkReply h byte s
  | .replyPartialTimeout h => Sys2Proof.Machine.execReplyPartialTimeout h s
  | .filterSampleInstant sample => Sys2Proof.Machine.execFilterSampleInstant sample s
  | .interlockClosedAcceptance => Sys2Proof.Machine.execInterlockClosedAcceptance s
  | .interlockHalt h => Sys2Proof.Machine.execInterlockHalt h s
  | .interlockClosedTaken h => Sys2Proof.Machine.execInterlockClosedTaken h s
  | .markerPulse h => Sys2Proof.Machine.execMarkerPulse h s
  | .encoderEdge h levels => Sys2Proof.Machine.execEncoderEdge h levels s
  | .phaseTimerExpiry h => Sys2Proof.Machine.execPhaseTimerExpiry h s
  | .dwellLimitExpiry h => Sys2Proof.Machine.execDwellLimitExpiry h s
  | .servingStart => Sys2Proof.Machine.execServingStart s
  | .tryHoist => Sys2Proof.Machine.execTry s
  | .eligibilityReevaluation h => Sys2Proof.Machine.execEligibilityReevaluation h s
  | .endTripsOfAnotherKind h => Sys2Proof.Machine.execEndTripsOfAnotherKind h s
  | .frameComplete byte => Sys2Proof.Machine.execFrameComplete byte s
  | .frameGapTimeout => Sys2Proof.Machine.execFrameGapTimeout s
  | .characterError => Sys2Proof.Machine.execCharacterError s
  | .replyEnd => Sys2Proof.Machine.execReplyEnd s
  | .getMass mass => Sys2Proof.Machine.execGetMass mass s
  | .nextMass start filter => Sys2Proof.Machine.execNextMass start filter s
  | .getBay bay => Sys2Proof.Machine.execGetBay bay s
  | .nextBay start filter => Sys2Proof.Machine.execNextBay start filter s
  | .getHoist hoist page => Sys2Proof.Machine.execGetHoist hoist page s
  | .getOrder position => Sys2Proof.Machine.execGetOrder position s
  | .getEnergy page => Sys2Proof.Machine.execGetEnergy page s
  | .getParam identifier hoist => Sys2Proof.Machine.execGetParam identifier hoist s
  | .getPlant page => Sys2Proof.Machine.execGetPlant page s
  | .snapshot => Sys2Proof.Machine.execSnapshot s
  | .admitMass mass nominal bay => Sys2Proof.Machine.execAdmitMass mass nominal bay s
  | .amendMass mass nominal => Sys2Proof.Machine.execAmendMass mass nominal s
  | .retireMass mass => Sys2Proof.Machine.execRetireMass mass s
  | .foundMass mass bay => Sys2Proof.Machine.execFoundMass mass bay s
  | .surveyBay bay elevation access service => Sys2Proof.Machine.execSurveyBay bay elevation access service s
  | .barBay bay => Sys2Proof.Machine.execBarBay bay s
  | .unbarBay bay => Sys2Proof.Machine.execUnbarBay bay s
  | .orderMove mass destination hoist => Sys2Proof.Machine.execOrderMove mass destination hoist s
  | .cancelOrder mass => Sys2Proof.Machine.execCancelOrder mass s
  | .setPower kW => Sys2Proof.Machine.execSetPower kW s
  | .holdHoist hoist mode => Sys2Proof.Machine.execHoldHoist hoist mode s
  | .resume hoist => Sys2Proof.Machine.execResume hoist s
  | .abandonTrip hoist => Sys2Proof.Machine.execAbandonTrip hoist s
  | .retarget hoist bay => Sys2Proof.Machine.execRetarget hoist bay s
  | .referenceHoist hoist bay => Sys2Proof.Machine.execReferenceHoist hoist bay s
  | .clearFault hoist => Sys2Proof.Machine.execClearFault hoist s
  | .enableHoist hoist setting => Sys2Proof.Machine.execEnableHoist hoist setting s
  | .setParam identifier hoist value => Sys2Proof.Machine.execSetParam identifier hoist value s
  | .restart => Sys2Proof.Machine.execRestart s
  | .restartOrderQueue => Sys2Proof.Machine.execRestartOrderQueue s
  | .restartPowerAllocator => Sys2Proof.Machine.execRestartPowerAllocator s
  | .restartHoist h => Sys2Proof.Machine.execRestartHoist h s
  | .plantLinkByte byte => Sys2Proof.Machine.execPlantLinkByte byte s
  | .hoistLinkReplyByte h byte => Sys2Proof.Machine.execHoistLinkReplyByte h byte s

end Sys2Proof.Machine
end

