-- ==== Sys2Proof/Safety.lean ====
section
/-! DEFINITION. The safety properties of the SX-4 that every step keeps, each named for what it says of the part. -/

namespace Sys2Proof.Machine

/-- The items that the blocks keep true to the records: able to its conditions (R89), the brake command to its law (R93) with the
reference 0 while it is SET (R152), and the attention set to the conditions present (R190). -/
structure Chip.Kept (p : Chip) : Prop where
  able : ∀ h, (p.hoist h).able = p.ableLaw h
  brake : ∀ h, (p.hoist h).brake = p.brakeLaw h
  stopped : ∀ h, (p.hoist h).brake = .set → (p.hoist h).speedRef = 0
  attention : p.port.attention = p.conditions

/-- Queued and held orders together never number more than 16 (R116). -/
def Chip.OrderPlaces (p : Chip) : Prop := p.queueLength + p.heldCount ≤ 16

/-- The Power Allocator's records: the setpoint within ±P_PLANT_MAX (R137), the mode that of its sign (R139), the shares those that R142
gives for the setpoint, the eligible set and the rated powers as they stand, with their sum and what they leave unserved. -/
structure Chip.PowerRecords (p : Chip) : Prop where
  setpoint : p.power.setpoint.natAbs ≤ p.params.pPlantMax
  mode : p.power.mode = modeOf p.power.setpoint
  share : p.power.share =
    sharesOf p.power.setpoint.natAbs p.power.eligible (Quad.tab fun h => (p.hp h).pRated)
  total : p.power.total = sumQuad p.power.share
  unserved : p.power.unserved = p.power.setpoint.natAbs - p.power.total

/-- Every plant parameter is in the range of section 11.5, with SYNC_WINDOW not above SLIP_LIMIT (R79). -/
structure PlantParams.InRange (q : PlantParams) : Prop where
  gravity : 9780 ≤ q.gravity ∧ q.gravity ≤ 9835
  datum : q.datum ≤ 1048575
  minLift : 1000 ≤ q.minLift ∧ q.minLift ≤ 500000
  weighTol : 5 ≤ q.weighTol ∧ q.weighTol ≤ 200
  engageTo : q.engageTo ≤ 255
  releaseTo : q.releaseTo ≤ 255
  approachTo : q.approachTo ≤ 255
  dwellLimit : q.dwellLimit ≤ 65535
  syncWindow : 5 ≤ q.syncWindow ∧ q.syncWindow ≤ 200 ∧ q.syncWindow ≤ q.slipLimit
  slipLimit : 50 ≤ q.slipLimit ∧ q.slipLimit ≤ 1000
  driftLimit : 100 ≤ q.driftLimit ∧ q.driftLimit ≤ 20000
  clearHeight : 200 ≤ q.clearHeight ∧ q.clearHeight ≤ 10000
  approachDist : 200 ≤ q.approachDist ∧ q.approachDist ≤ 5000
  stopTol : 2 ≤ q.stopTol ∧ q.stopTol ≤ 50
  pPlantMax : q.pPlantMax ≤ 20000
  unservedThresh : q.unservedThresh ≤ 20000
  bayFilter : q.bayFilter ≤ 7
  latchFilter : q.latchFilter ≤ 7
  linkTimeout : 1 ≤ q.linkTimeout ∧ q.linkTimeout ≤ 10

/-- Every parameter of a hoist is in the range of section 11.5, with NUM/DEN within 1/1,024 to 16 (R68) and the two speeds not above
V_RATED (R153). -/
structure HoistParams.InRange (q : HoistParams) : Prop where
  vRated : 100 ≤ q.vRated ∧ q.vRated ≤ 6000
  accel : 50 ≤ q.accel ∧ q.accel ≤ 1500
  pRated : q.pRated ≤ 4000
  tare : q.tare ≤ 20000
  c : 1 ≤ q.c ∧ q.c ≤ 200
  num : 1 ≤ q.num ∧ q.num ≤ 16777215
  den : 1 ≤ q.den ∧ q.den ≤ 16777215
  ratio : q.num ≤ 16 * q.den ∧ q.den ≤ 1024 * q.num
  zHead : q.zHead ≤ 1048575
  creep : 20 ≤ q.creep ∧ q.creep ≤ 300
  vReposition : 1 ≤ q.vReposition ∧ q.vReposition ≤ q.vRated
  vTransfer : 1 ≤ q.vTransfer ∧ q.vTransfer ≤ q.vRated
  gear : q.gear ≤ 3
  overspeedMargin : q.overspeedMargin ≤ 1000
  loadEmptyMax : q.loadEmptyMax ≤ 21000

/-- Every parameter is in its range, and the drift of a referenced hoist within DRIFT_LIMIT (R79). -/
structure Chip.ParamsInRange (p : Chip) : Prop where
  plant : p.params.InRange
  hoist : ∀ h, (p.hp h).InRange
  drift : ∀ h, (p.unit h).referenced = true → (p.unit h).drift.natAbs ≤ p.params.driftLimit

/-- A Position Unit's items are in the ranges of R63. -/
structure PositionUnit.InRange (u : PositionUnit) : Prop where
  count : -2147483648 ≤ u.count ∧ u.count ≤ 2147483647
  previousCount : -2147483648 ≤ u.previousCount ∧ u.previousCount ≤ 2147483647
  offset : -2147483648 ≤ u.offset ∧ u.offset ≤ 2147483647
  elevation : u.elevation ≤ 1048575
  illegal : u.illegal ≤ 2
  missRun : u.missRun ≤ 2
  encoderErrors : u.encoderErrors ≤ 65535
  rangeCount : u.rangeCount ≤ 65535
  slipWarnings : u.slipWarnings ≤ 65535
  missedMarkers : u.missedMarkers ≤ 65535

/-- The shape of a bay record (R25, R26): a barred cause exactly while BARRED, a holder exactly while INBOUND or OUTBOUND, no occupant in
a bay that is UNSURVEYED, OPEN or INBOUND. -/
structure BayRecord.Shape (r : BayRecord) : Prop where
  cause : r.cause.isSome = true ↔ r.state = .barred
  holder : r.holder.isSome = true ↔ r.state = .inbound ∨ r.state = .outbound
  occupant : r.occupant.isSome = true → r.state = .occupied ∨ r.state = .outbound ∨ r.state = .barred

/-- A bay's sensor field is the level accepted on its line (R27, R52). -/
def Chip.SensorsAgree (p : Chip) : Prop := ∀ b : BayId, (p.bay b).sensor = (p.sensors.bayLines[b]).accepted

/-! ### Frames: what an event leaves unchanged -/

/-- The parts of the chip, block by block. -/
inductive Part where
  | masses
  | bays
  | sensors
  | units
  | hoists
  | selector
  | orders
  | power
  | links
  | port
  | params
  | hoistParams
  deriving DecidableEq, Repr

/-- The part is the same in `q` as in `p`. -/
def Chip.same (p q : Chip) (x : Part) : Prop :=
  match x with
  | .masses => q.masses = p.masses
  | .bays => q.bays = p.bays
  | .sensors => q.sensors = p.sensors
  | .units => q.units = p.units
  | .hoists => q.hoists = p.hoists
  | .selector => q.selector = p.selector
  | .orders => q.orders = p.orders
  | .power => q.power = p.power
  | .links => q.links = p.links
  | .port => q.port = p.port
  | .params => q.params = p.params
  | .hoistParams => q.hoistParams = p.hoistParams

/-- Every part but those listed is the same in `q` as in `p`. -/
def Chip.unchangedBut (p q : Chip) (parts : List Part) : Prop := ∀ x, x ∉ parts → p.same q x

/-- Every mass record but that of `m` is the same. -/
def Chip.otherMassesSame (p q : Chip) (m : MassId) : Prop := ∀ k, k ≠ m → q.mass k = p.mass k

/-- Every bay record but that of `b` is the same. -/
def Chip.otherBaysSame (p q : Chip) (b : BayId) : Prop := ∀ k, k ≠ b → q.bay k = p.bay k

/-- Every Hoist Controller but that of `h` is the same. -/
def Chip.otherHoistsSame (p q : Chip) (h : HoistId) : Prop := ∀ k, k ≠ h → q.hoist k = p.hoist k

/-- Every Position Unit but that of `h` is the same. -/
def Chip.otherUnitsSame (p q : Chip) (h : HoistId) : Prop := ∀ k, k ≠ h → q.unit k = p.unit k

/-- Every Hoist Link Port but that of `h` is the same. -/
def Chip.otherLinksSame (p q : Chip) (h : HoistId) : Prop := ∀ k, k ≠ h → q.link k = p.link k

/-- The port's items after the frame in hand has been answered with `a`: the reply's sending has begun and is counted (R184); the
attention set follows the conditions, and a rise of one sets CHANGED (R190); every other item of the port is as it was. -/
def Chip.repliedWith (p q : Chip) (a : Answer) : Prop :=
  ∃ f, p.port.inHand = some f ∧
    q.port = { p.port with
      sending := some (replyOf f a)
      answered := satInc16 p.port.answered
      refusals := if a.status.isRefusal then satInc16 p.port.refusals else p.port.refusals
      attention := q.conditions
      changed := p.port.changed || p.port.attention.rises q.conditions }

/-- The port's items after an event that touches none of them but by its conditions (R190). -/
def Chip.portReported (p q : Chip) : Prop :=
  q.port = { p.port with
    attention := q.conditions, changed := p.port.changed || p.port.attention.rises q.conditions }

/-- The records of `q` read with the draws counter of `p`, as a reply composed in that event reads them (log 21). -/
def Chip.drawnAs (q p : Chip) : Chip := { q with draws := p.draws }

/-- A command of which the port has handed the words to their owner (R184), in a part whose items are true to its records. -/
structure State.Hands (s : State) (i : Instr) : Prop where
  handed : s.chip.handedCommand = some i
  kept : s.chip.Kept

/-- The checks of ORDER_MOVE on a mass and a destination, each with its reason, in the order of R117 and R118; a check's entry is true where
it fails. -/
def Chip.orderChecks (p : Chip) (m : MassId) (d : BayId) (h : Option HoistId) : List (Bool × Reason) :=
  [ (decide ((p.mass m).state = .absent), .noSuch),
    (decide ((p.mass m).state = .missing ∨ (p.mass m).state = .retiring), .state),
    ((p.orders.queue ++ p.heldOrders).any (fun o => decide (o.mass = m)), .conflict),
    (decide ((p.mass m).state = .assigned ∨ (p.mass m).state = .aboard), .conflict),
    (decide ((p.bay d).state = .unsurveyed ∨ (p.bay d).state = .barred), .state),
    (decide ((p.mass m).bay = some d), .conflict),
    (!(hoistList.any fun k => decide (h = none ∨ h = some k) && p.reaches k d &&
      ((p.mass m).bay.any fun source => p.reaches k source)), .unreachable),
    (decide (16 ≤ p.queueLength + p.heldCount), .full),
    (decide (p.interlock = .opened ∧ ∀ k, (p.hoist k).able = false), .stopped) ]

/-! ### Where the fields of a result stand (spec/11 R193, R195, section 11.5) -/

/-- The result bytes of a reply at their places in it: the first is byte 6 (R194). -/
def replyAt (result : List Byte) : Frame := ⟨List.replicate 6 0 ++ result⟩

/-- A number that fits the `n` bytes from byte `i` stands there, most significant byte first. -/
def standsAt (r : Frame) (i n v : Nat) : Prop := v < 256 ^ n → r.number i n = v

/-- A signed number that fits the `n` bytes from byte `i` stands there as two's complement. -/
def signedAt (r : Frame) (i n : Nat) (x : Int) : Prop :=
  -(2 ^ (8 * n - 1) : Int) ≤ x → x < 2 ^ (8 * n - 1) → signedOf n (r.number i n) = x

/-- A field that is present stands in the `n` bytes from byte `i`. -/
def shownAt (r : Frame) (i n : Nat) (field : Option Nat) : Prop := ∀ v, field = some v → standsAt r i n v

/-- The bay record of `b` is laid out in the reply (R195). -/
def Chip.bayLaidOut (p : Chip) (b : BayId) (r : Frame) : Prop :=
  let x := p.bay b
  standsAt r 6 1 b.val ∧ standsAt r 7 1 x.state.code ∧
  standsAt r 8 1 (flagCode x.elevation.isSome + 2 * flagCode x.access.isSome + 4 * flagCode x.service.isSome +
    8 * flagCode x.occupant.isSome + 16 * flagCode x.cause.isSome + 32 * flagCode x.sensor.isSome +
    64 * flagCode x.holder.isSome) ∧
  shownAt r 9 3 x.elevation ∧ shownAt r 12 1 (x.access.map BitVec.toNat) ∧ shownAt r 13 1 (x.service.map flagCode) ∧
  shownAt r 14 1 (x.occupant.map massNumber) ∧ shownAt r 15 1 (x.cause.map BarredCause.code) ∧
  shownAt r 16 1 (x.sensor.map Occupancy.code) ∧ shownAt r 17 1 (x.holder.map fun y => y.1.val) ∧
  shownAt r 18 1 (x.holder.map fun y => y.2.code) ∧ ∀ i ∈ List.range' 19 11, r.byte i = 0

/-- GET_HOIST page 0 (R195). -/
def Chip.hoistLaidOut (p : Chip) (h : HoistId) (r : Frame) : Prop :=
  let c := p.hoist h
  standsAt r 6 1 c.phase.code ∧ standsAt r 7 1 c.holdMode.code ∧ standsAt r 8 1 (flagCode c.able) ∧
  standsAt r 9 1 c.withdrawal.code ∧ signedAt r 10 2 c.speedRef ∧ standsAt r 12 1 c.brake.code ∧
  standsAt r 13 1 c.latchCommand.code ∧ shownAt r 14 1 (c.latchLevel.map Latch.code) ∧
  standsAt r 15 1 (interlockCode p.interlock) ∧
  standsAt r 16 1 (flagCode c.latchLevel.isSome + 2 * flagCode c.phaseReply.isSome + 4 * flagCode c.phaseTimer.isSome +
    8 * flagCode c.dwellTimer.isSome) ∧
  shownAt r 17 3 c.phaseReply ∧ shownAt r 20 1 (c.phaseTimer.map fun x => x.limit - x.counted) ∧
  shownAt r 21 2 (c.dwellTimer.map fun x => x.limit - x.counted) ∧ standsAt r 23 1 (flagCode c.noBay) ∧
  standsAt r 24 2 c.lateApproach ∧ ∀ i ∈ List.range' 26 4, r.byte i = 0

/-- GET_HOIST pages 1 and 2 (R195): a trip, or none. -/
def tripLaidOut (t : Option Trip) (r : Frame) : Prop :=
  (t = none → ∀ i ∈ List.range' 6 24, r.byte i = 0) ∧
  ∀ x, t = some x →
    standsAt r 6 1 (1 + 2 * flagCode x.orderTag.isSome + 4 * flagCode x.measured.isSome +
      8 * flagCode x.resumePhase.isSome + 16 * flagCode x.haltCause.isSome) ∧
    standsAt r 7 1 x.kind.code ∧ standsAt r 8 1 (massNumber x.mass) ∧ standsAt r 9 1 x.source.val ∧
    standsAt r 10 1 x.destination.val ∧ standsAt r 11 1 x.leg.code ∧ standsAt r 12 1 x.direction.code ∧
    shownAt r 13 1 (x.orderTag.map BitVec.toNat) ∧ shownAt r 14 3 x.measured ∧ standsAt r 17 1 x.retargets ∧
    shownAt r 18 1 (x.resumePhase.map Phase.code) ∧ shownAt r 19 1 (x.haltCause.map HaltCause.code) ∧
    ∀ i ∈ List.range' 20 10, r.byte i = 0

/-- GET_HOIST page 3 (R195). -/
def Chip.positionLaidOut (p : Chip) (h : HoistId) (r : Frame) : Prop :=
  let u := p.unit h
  signedAt r 6 4 u.count ∧ signedAt r 10 4 u.offset ∧ signedAt r 14 4 u.drift ∧ standsAt r 18 3 u.elevation ∧
  signedAt r 21 4 u.speed ∧ standsAt r 25 1 (flagCode u.referenced) ∧ standsAt r 26 1 u.missRun ∧
  ∀ i ∈ List.range' 27 3, r.byte i = 0

/-- GET_HOIST page 4 (R195): L, S and M as R67, R71 and R70 give them, and the four counts. -/
def Chip.ropeLaidOut (p : Chip) (h : HoistId) (r : Frame) : Prop :=
  let u := p.unit h
  let l := ropeLength (p.hp h) u.count
  signedAt r 6 5 l ∧ signedAt r 11 5 (stretch (p.hp h) (p.loadM h) l) ∧ standsAt r 16 4 (p.loadM h) ∧
  standsAt r 20 2 u.encoderErrors ∧ standsAt r 22 2 u.rangeCount ∧ standsAt r 24 2 u.slipWarnings ∧
  standsAt r 26 2 u.missedMarkers ∧ ∀ i ∈ List.range' 28 2, r.byte i = 0

/-- GET_HOIST page 5 (R195). -/
def Chip.linkLaidOut (p : Chip) (h : HoistId) (r : Frame) : Prop :=
  let l := p.link h
  standsAt r 6 1 (flagCode l.enabled) ∧ standsAt r 7 1 l.state.code ∧ standsAt r 8 1 l.proving ∧
  standsAt r 9 1 l.missed ∧ standsAt r 10 1 (flagCode l.segmentReply) ∧ standsAt r 11 1 (flagCode l.last.isSome) ∧
  shownAt r 12 1 (l.last.map fun x => flagCode x.ready) ∧ shownAt r 13 1 (l.last.map DriveReply.code) ∧
  shownAt r 14 3 (l.last.map DriveReply.load) ∧ standsAt r 17 2 l.replyErrors ∧ standsAt r 19 2 l.linkLosses ∧
  standsAt r 21 2 (p.hoist h).checkSpeed ∧ standsAt r 23 1 (p.hoist h).overspeedRun ∧
  ∀ i ∈ List.range' 24 6, r.byte i = 0

/-- GET_HOIST page 6 (R195): the gear limit and a_step as R146 and R150 give them. -/
def Chip.faultLaidOut (p : Chip) (h : HoistId) (r : Frame) : Prop :=
  let c := p.hoist h
  let f := c.fault
  standsAt r 6 1 (flagCode f.first.isSome + 2 * flagCode f.detail.isSome + 4 * flagCode f.phaseAt.isSome +
    8 * flagCode f.further.isSome) ∧
  shownAt r 7 1 (f.first.map FaultCause.code) ∧ shownAt r 8 1 f.detail ∧ shownAt r 9 1 (f.phaseAt.map Phase.code) ∧
  shownAt r 10 2 (f.further.map BitVec.toNat) ∧ standsAt r 12 1 f.count ∧ standsAt r 13 2 (p.power.share.get h) ∧
  standsAt r 15 1 (flagCode (p.power.eligible.get h)) ∧ standsAt r 16 2 c.shareRead ∧ standsAt r 18 2 c.served ∧
  standsAt r 20 2 c.vLim ∧ standsAt r 22 2 ((p.hp h).vRated / 2 ^ (p.hp h).gear) ∧
  standsAt r 24 2 (max 1 ((p.hp h).accel * 50 / 1000)) ∧ signedAt r 26 2 c.speedRef ∧
  ∀ i ∈ List.range' 28 2, r.byte i = 0

/-- A GET_PARAM result (section 11.5): identifier, hoist, value, and the ends of the range, the upper as 0xFFFF above 65,535. -/
def paramLaidOut (identifier hoist value : Nat) (range : Nat × Nat) (r : Frame) : Prop :=
  standsAt r 6 1 identifier ∧ standsAt r 7 1 hoist ∧ signedAt r 8 4 value ∧ signedAt r 12 4 range.1 ∧
  (range.2 ≤ 65535 → r.number 16 2 = range.2) ∧ (65535 < range.2 → r.number 16 2 = 0xFFFF) ∧
  ∀ i ∈ List.range' 18 12, r.byte i = 0

/-- GET_PLANT page 0 (R192, R195): the power figures; the served total is the sum of what the four hoists serve (R148). -/
def Chip.figuresLaidOut (p : Chip) (r : Frame) : Prop :=
  standsAt r 9 1 p.power.mode.code ∧ signedAt r 10 2 p.power.setpoint ∧ standsAt r 12 2 p.power.total ∧
  standsAt r 14 2 p.power.unserved ∧
  standsAt r 16 2 ((p.hoist 0).served + (p.hoist 1).served + (p.hoist 2).served + (p.hoist 3).served) ∧
  ∀ i ∈ List.range' 18 12, r.byte i = 0

/-- GET_PLANT page 1 (R192, R195): the six counts of the port. -/
def PlantPort.countsLaidOut (q : PlantPort) (r : Frame) : Prop :=
  standsAt r 9 2 q.lengthErrors ∧ standsAt r 11 2 q.characterErrors ∧ standsAt r 13 2 q.checkErrors ∧
  standsAt r 15 2 q.overruns ∧ standsAt r 17 2 q.answered ∧ standsAt r 19 2 q.refusals ∧
  ∀ i ∈ List.range' 21 9, r.byte i = 0

/-- GET_PLANT page 2 (R192, R195): the masses and the bays by state, and the Order Queue's counts. -/
def Chip.tablesLaidOut (p : Chip) (r : Frame) : Prop :=
  (∀ x : MassState, r.byte (9 + x.code) = (massList.filter fun m => decide ((p.mass m).state = x)).length) ∧
  (∀ x : BayState, r.byte (15 + x.code) = (bayList.filter fun b => decide ((p.bay b).state = x)).length) ∧
  standsAt r 21 1 p.queueLength ∧ standsAt r 22 1 p.heldCount ∧ standsAt r 23 2 p.orders.dropped ∧
  ∀ i ∈ List.range' 25 5, r.byte i = 0

/-- RESTART has been answered by the last of the six to take it (R189, R195): DONE, with the five tallies of `w`. -/
def Chip.restartAnswered (p q : Chip) (w : RestartWork) : Prop :=
  q.port.restart = none ∧ ∀ f, p.port.inHand = some f → ∃ result, q.port.sending = some (replyOf f ⟨.done, result⟩) ∧
    standsAt (replyAt result) 6 1 w.discarded ∧ standsAt (replyAt result) 7 1 w.stagedDropped ∧
    standsAt (replyAt result) 8 1 w.abandoned ∧ standsAt (replyAt result) 9 1 w.waiting ∧
    standsAt (replyAt result) 10 1 w.halted ∧ ∀ i ∈ List.range' 11 19, (replyAt result).byte i = 0

/-! ### What the trip machine does (spec/05, spec/06) -/

/-- A trip that becomes active on a moving hoist (R91): the hoist enters ENGAGE where the held elevation is within STOP_TOL of the source's,
with the latch commanded CLOSE and ENGAGE_TO started, and TRAVEL otherwise, with the latch commanded OPEN. -/
def Chip.tripEntered (p : Chip) (h : HoistId) (tr : Trip) (c : HoistCtl) : Prop :=
  c.phaseReply = none ∧ c.dwellTimer = none ∧
  (apart (p.unit h).elevation (p.elevationOf tr.source) ≤ p.params.stopTol →
    c.phase = .engage ∧ c.latchCommand = .closed ∧ c.speedRef = 0 ∧ c.phaseTimer = startTimer p.params.engageTo) ∧
  (p.params.stopTol < apart (p.unit h).elevation (p.elevationOf tr.source) →
    c.phase = .travel ∧ c.latchCommand = .opened ∧ c.phaseTimer = none)

/-- The active trip of hoist `h` has ended (R91, R103): a FAULTED hoist stays FAULTED without one, a HALTED one stays HALTED with a staged
trip promoted, which takes its halt cause, another takes the staged trip as its active one; without a staged trip the hoist is IDLE. -/
def Chip.activeEnded (p q : Chip) (h : HoistId) : Prop :=
  let before := p.hoist h
  let after := q.hoist h
  after.withdrawal = .none ∧ after.speedRef = 0 ∧ after.noBay = false ∧
  (before.phase = .faulted → after.phase = .faulted ∧ after.active = none ∧ after.staged = before.staged) ∧
  (before.phase ≠ .faulted → before.staged = none → after.phase = .idle ∧ after.active = none ∧ after.staged = none) ∧
  (∀ tr, before.phase ≠ .faulted → before.staged = some tr →
    after.staged = none ∧ q.held h .active = p.held h .staged ∧ q.held h .staged = none ∧
    (before.phase ≠ .halted → after.active = some tr ∧ p.tripEntered h tr after) ∧
    (before.phase = .halted → after.phase = .halted ∧
      (apart (p.unit h).elevation (p.elevationOf tr.source) ≤ p.params.stopTol → after.latchCommand = .closed ∧
        after.active = some { tr with
          resumePhase := some .engage, haltCause := before.active.bind fun t => t.haltCause }) ∧
      (p.params.stopTol < apart (p.unit h).elevation (p.elevationOf tr.source) → after.latchCommand = .opened ∧
        after.active = some { tr with
          resumePhase := some .travel, haltCause := before.active.bind fun t => t.haltCause })))

/-- The active trip in leg EMPTY has ended before its time (R93, R103, R104): the phase reply is absent, and where no staged trip is
promoted the latch command is OPEN after ENGAGE, or HALTED or FAULTED from it, and is kept otherwise. R104 states the latch command for a
loss of the source; for an abandonment from HALTED or FAULTED, and for one by RESTART, it is the model's reading (log 40). -/
def Chip.emptyEnded (p q : Chip) (h : HoistId) : Prop :=
  p.activeEnded q h ∧ (q.hoist h).phaseReply = none ∧
  ((p.hoist h).staged = none ∨ (p.hoist h).phase = .faulted → (q.hoist h).latchCommand =
    if (p.hoist h).workPhase = .engage then .opened else (p.hoist h).latchCommand)

/-- The staged trip of hoist `h`, if any, has been dropped with its order returned (R103, R35): the mass PARKED, both bays given up, the
order at the head of the list. -/
def Chip.stagedDropped (p q : Chip) (h : HoistId) : Prop :=
  (q.hoist h).staged = none ∧
  ((p.hoist h).staged = none → q.masses = p.masses ∧ q.bays = p.bays ∧ q.orders = p.orders) ∧
  ∀ tr, (p.hoist h).staged = some tr →
    q.mass tr.mass = { p.mass tr.mass with state := .parked } ∧ p.otherMassesSame q tr.mass ∧
    (∀ k, k ≠ tr.source → k ≠ tr.destination → q.bay k = p.bay k) ∧
    (p.holdsSource h .staged tr.source = true → (p.bay tr.source).occupant ≠ none →
      q.bay tr.source = { p.bay tr.source with state := .occupied, holder := none }) ∧
    (p.holdsDestination h .staged tr.destination = true → (q.bay tr.destination).holder = none ∧
      (q.bay tr.destination).state =
        if (p.bay tr.destination).sensor = some .occupied then .barred else .opened) ∧
    (p.held h .staged = none → q.orders = p.orders) ∧
    ∀ o, p.held h .staged = some o → q.orders.queue = o :: p.orders.queue ∧ q.held h .staged = none

/-- The weighing of hoist `h`'s engage has been made, at `measured` kg against a nominal (R98, R99): with a match the mass is aboard, its
source stays held without it and the hoist travels loaded; with a mismatch the hoist stays in ENGAGE, its timer running on, with the latch
commanded OPEN and the withdrawal MISMATCH. -/
def Chip.weighingMade (p q : Chip) (h : HoistId) (tr : Trip) (nominal measured : Nat) : Prop :=
  (apart measured nominal * 1000 ≤ p.params.weighTol * nominal →
    (q.hoist h).phase = .travel ∧ (q.hoist h).phaseReply = none ∧ (q.hoist h).phaseTimer = none ∧
    (q.hoist h).latchCommand = (p.hoist h).latchCommand ∧
    (q.hoist h).active = some { tr with measured := some measured, leg := .loaded } ∧
    q.mass tr.mass =
      { p.mass tr.mass with state := .aboard, hoist := some h, measured := some measured, bay := none } ∧
    q.bay tr.source = { p.bay tr.source with occupant := none } ∧ q.held h .active = none) ∧
  (p.params.weighTol * nominal < apart measured nominal * 1000 →
    (q.hoist h).phase = .engage ∧ (q.hoist h).withdrawal = .mismatch ∧
    (q.hoist h).phaseTimer = (p.hoist h).phaseTimer ∧ (q.hoist h).latchCommand = .opened ∧ q.masses = p.masses ∧
    q.bays = p.bays ∧ (q.hoist h).active = some { tr with measured := some measured })

/-- Hoist `h`'s release is complete (R102): the mass is PARKED at the destination, a source still held without occupant is BARRED (R42), and
the trip has ended, under STEP with the staged trip dropped and otherwise with it promoted (R91). The latch command stays OPEN where no trip
is promoted. -/
def Chip.releaseMade (p q : Chip) (h : HoistId) (tr : Trip) : Prop :=
  q.mass tr.mass = { p.mass tr.mass with
    state := .parked, bay := some tr.destination, hoist := none, lifts := satInc16 (p.mass tr.mass).lifts } ∧
  q.bay tr.destination = { p.bay tr.destination with
    state := .occupied, occupant := some tr.mass, cause := none, holder := none } ∧
  (tr.source ≠ tr.destination → p.holdsSource h .active tr.source = true → (p.bay tr.source).occupant = none →
    q.bay tr.source =
      { p.bay tr.source with state := .barred, occupant := none, cause := some .foreign, holder := none }) ∧
  (q.hoist h).holdMode = (if (p.hoist h).holdMode = .step then .hold else (p.hoist h).holdMode) ∧
  ((p.hoist h).holdMode = .step ∨ (p.hoist h).staged = none →
    (q.hoist h).latchCommand = (p.hoist h).latchCommand) ∧
  ((p.hoist h).holdMode ≠ .step → p.activeEnded q h ∧
    ∀ staged, (p.hoist h).staged = some staged → ∀ k, (k = staged.source ∨ k = staged.destination) →
      k ≠ tr.destination → (p.bay k).holder = some (h, .staged) →
      q.bay k = { p.bay k with holder := some (h, .active) }) ∧
  ((p.hoist h).holdMode = .step → (q.hoist h).phase = .idle ∧ (q.hoist h).active = none ∧ (q.hoist h).staged = none ∧
    ∀ staged, (p.hoist h).staged = some staged →
      q.mass staged.mass = { p.mass staged.mass with state := .parked } ∧ q.held h .staged = none ∧
      ∀ o, p.held h .staged = some o → q.orders.queue = o :: p.orders.queue)

/-- Bay `b` qualifies as the re-target destination of hoist `h` from elevation `zr` (R135). -/
def Chip.mayRetarget (p : Chip) (h : HoistId) (zr : Nat) (b : BayId) : Prop :=
  (p.bay b).state = .opened ∧ (p.bay b).service = some false ∧ p.reaches h b = true ∧
  p.params.approachDist < apart (p.elevationOf b) zr ∧ (p.power.mode = .charge → zr < p.elevationOf b) ∧
  (p.power.mode = .discharge → p.elevationOf b < zr)

/-- The bay the re-target rule gives (R135): of those that qualify the nearest, between two as near the lower number; none where none
qualifies. -/
def Chip.retargetRule (p : Chip) (h : HoistId) (zr : Nat) (given : Option BayId) : Prop :=
  (given = none → ∀ k, ¬p.mayRetarget h zr k) ∧
  ∀ b, given = some b → p.mayRetarget h zr b ∧ ∀ k, p.mayRetarget h zr k →
    apart (p.elevationOf b) zr < apart (p.elevationOf k) zr ∨
      apart (p.elevationOf b) zr = apart (p.elevationOf k) zr ∧ b ≤ k

/-- A trip with its destination replaced by a re-target (R106). -/
def Chip.retargeted (p : Chip) (tr : Trip) (zr : Nat) (b : BayId) : Trip :=
  { tr with
    destination := b
    direction := if zr < p.elevationOf b then .up else .down
    kind := match p.power.mode with
      | .charge => .charge
      | .discharge => .discharge
      | .standby => .directed
    retargets := satInc 255 tr.retargets }

/-- Bay `b`, OPEN before, is held as the destination of hoist `h`'s active trip (R34), whose NO_BAY indication is no (R106). -/
def Chip.destinationTaken (p q : Chip) (h : HoistId) (b : BayId) : Prop :=
  q.bay b = { p.bay b with state := .inbound, occupant := none, holder := some (h, .active) } ∧
  (q.hoist h).noBay = false

/-- Hoist `h` has re-entered its resume phase (R108): TRAVEL, or ENGAGE or RELEASE with its timer started afresh; the latch command is
kept and the phase reply absent. -/
def Chip.reentered (p q : Chip) (h : HoistId) (resume : Phase) : Prop :=
  (q.hoist h).latchCommand = (p.hoist h).latchCommand ∧ (q.hoist h).phaseReply = none ∧
  ((resume = .travel ∨ resume = .approach ∨ resume = .dwell) →
    (q.hoist h).phase = .travel ∧ (q.hoist h).phaseTimer = none) ∧
  (resume = .engage → (q.hoist h).phase = .engage ∧ (q.hoist h).phaseTimer = startTimer p.params.engageTo) ∧
  (resume = .release → (q.hoist h).phase = .release ∧ (q.hoist h).phaseTimer = startTimer p.params.releaseTo)

/-- Mass `m` in bay `b` is a candidate load for hoist `h` (R130). -/
def Chip.mayLoad (p : Chip) (h : HoistId) (m : MassId) (b : BayId) : Prop :=
  (p.mass m).state = .parked ∧ (p.mass m).weighHold = false ∧ (∀ o ∈ p.orders.queue, o.mass ≠ m) ∧
  (p.mass m).bay = some b ∧ (p.bay b).state = .occupied ∧ (p.bay b).service = some false ∧ p.reaches h b = true

/-- Bay `b` is a candidate destination for hoist `h` (R130). -/
def Chip.mayReceive (p : Chip) (h : HoistId) (b : BayId) : Prop :=
  (p.bay b).state = .opened ∧ (p.bay b).service = some false ∧ p.reaches h b = true

/-- Bay `b` comes before bay `k` in the choice of R131: the lower elevation first, or the higher, then the lower number. -/
def Chip.chosenBefore (p : Chip) (lowFirst : Bool) (b k : BayId) : Prop :=
  (if lowFirst = true then p.elevationOf b < p.elevationOf k else p.elevationOf k < p.elevationOf b) ∨
    p.elevationOf b = p.elevationOf k ∧ b < k

/-- The pair the automatic choice for hoist `h` falls on (R131): in CHARGE the lowest load and the highest destination, in DISCHARGE the
other way about. -/
def Chip.automaticPair (p : Chip) (h : HoistId) (m : MassId) (source destination : BayId) : Prop :=
  p.mayLoad h m source ∧ (∀ m' b, p.mayLoad h m' b → m' ≠ m → p.chosenBefore (decide (p.power.mode = .charge)) source b) ∧
  p.mayReceive h destination ∧
  ∀ b, p.mayReceive h b → b ≠ destination → p.chosenBefore (decide (p.power.mode = .discharge)) destination b

/-- Trip `tr` has been staged for hoist `h` (R132): the mass ASSIGNED, the bays held by the slot it enters, the pointer the hoist; in the
active slot of an IDLE hoist the trip becomes active by R91 and a selection request is raised (R126, R128), in the staged slot the hoist is
no longer able. -/
def Chip.tripStaged (p q : Chip) (h : HoistId) (tr : Trip) : Prop :=
  q.mass tr.mass = { p.mass tr.mass with state := .assigned } ∧ p.otherMassesSame q tr.mass ∧ q.selector.pointer = h ∧
  (∀ k, k ≠ tr.source → k ≠ tr.destination → q.bay k = p.bay k) ∧
  ((p.hoist h).phase = .idle → q.selector.request = true ∧ (q.hoist h).active = some tr ∧
    (q.hoist h).staged = (p.hoist h).staged ∧ p.tripEntered h tr (q.hoist h) ∧
    q.bay tr.source = { p.bay tr.source with state := .outbound, holder := some (h, .active) } ∧
    q.bay tr.destination =
      { p.bay tr.destination with state := .inbound, occupant := none, holder := some (h, .active) }) ∧
  ((p.hoist h).phase ≠ .idle → q.hoist h = { p.hoist h with staged := some tr, able := false } ∧
    q.bay tr.source = { p.bay tr.source with state := .outbound, holder := some (h, .staged) } ∧
    q.bay tr.destination =
      { p.bay tr.destination with state := .inbound, occupant := none, holder := some (h, .staged) })

/-! ### What the lines of the shaft do (spec/03, spec/04) -/

/-- An acceptance on hoist `h`'s latch line has done nothing but what R60 and R93 say: the level is recorded, and the brake follows its law
with the reference 0 while it is SET. -/
def Chip.latchOnlyRecorded (p q : Chip) (h : HoistId) (level : Latch) : Prop :=
  p.unchangedBut q [.sensors, .hoists] ∧
  q.hoist h = { p.hoist h with
    latchLevel := some level, brake := q.brakeLaw h
    speedRef := if q.brakeLaw h = .set then 0 else (p.hoist h).speedRef }

/-- The marker of hoist `h` at elevation `zb` has become MET (R78), and the other expected markers keep their states. -/
def Chip.markerMet (p q : Chip) (h : HoistId) (zb : Nat) : Prop :=
  ∀ e, markerState (q.unit h).markers e =
    if e = zb then .met else if e ∈ p.expectedMarkers h then markerState (p.unit h).markers e else .idle

/-! ### What a segment event does (spec/04, spec/05, spec/08) -/

/-- The closing of the segment that has ended, and the message that opens the next, at a link (R157, R159): an enabled link leaves DOWN for
PROVING with both counts 0 before the closing acts; an answered segment changes nothing else; a missed one acts by the state the link is
then in. A segment that LINK_TIMEOUT has closed stays as that left it (log 6). -/
def LinkPort.segmentClosed (l l' : LinkPort) (timeout : Nat) : Prop :=
  (l.closedAhead = true → l' = { l with closedAhead := false, sent := l'.sent }) ∧
  (l.closedAhead = false →
    (l.state = .down → l.enabled = false → l' = { l with segmentReply := false, sent := l'.sent }) ∧
    (l.state = .down → l.enabled = true → l' = { l with
      state := .proving, proving := 0, missed := if l.segmentReply = true then 0 else 1
      segmentReply := false, sent := l'.sent }) ∧
    (l.state ≠ .down → l.segmentReply = true → l' = { l with segmentReply := false, sent := l'.sent }) ∧
    (l.state = .proving → l.segmentReply = false →
      l' = { l with proving := 0, missed := satInc 255 l.missed, sent := l'.sent }) ∧
    (l.state = .up → l.segmentReply = false → satInc 255 l.missed < timeout →
      l' = { l with missed := satInc 255 l.missed, sent := l'.sent }) ∧
    (l.state = .up → l.segmentReply = false → timeout ≤ satInc 255 l.missed → l' = { l with
      state := .lost, missed := satInc 255 l.missed, linkLosses := satInc16 l.linkLosses, sent := l'.sent }) ∧
    (l.state = .lost → l.segmentReply = false → l' = { l with missed := satInc 255 l.missed, sent := l'.sent }))

/-- The phase is kept by the phase tests (R94 to R96), at distance `d` from the target; `stopped` says that the reference has reached 0. -/
def Chip.phaseStays (p : Chip) (h : HoistId) (tr : Trip) (d : Nat) (stopped : Bool) : Prop :=
  match (p.hoist h).phase with
  | .travel => p.params.approachDist < d ∧
      (tr.kind = .directed ∨ tr.leg = .empty ∨ p.power.share.get h ≠ 0 ∨ stopped = false)
  | .approach => p.params.stopTol < d
  | .dwell => p.power.share.get h = 0
  | _ => True

/-- What the phase tests move the hoist to (R94 to R96), `c` being its controller after them. -/
def Chip.phaseMoved (p : Chip) (h : HoistId) (tr : Trip) (d : Nat) (stopped : Bool) (c : HoistCtl) : Prop :=
  ((p.hoist h).phase = .travel → d ≤ p.params.approachDist → p.params.stopTol < d →
    c.phase = .approach ∧ c.phaseTimer = startTimer p.params.approachTo) ∧
  (((p.hoist h).phase = .approach ∨ (p.hoist h).phase = .travel ∧ d ≤ p.params.approachDist) → d ≤ p.params.stopTol →
    c.speedRef = 0 ∧ c.phaseReply = none ∧
    (tr.leg = .empty → c.phase = .engage ∧ c.latchCommand = .closed ∧ c.phaseTimer = startTimer p.params.engageTo) ∧
    (tr.leg = .loaded → c.phase = .release ∧ c.latchCommand = .opened ∧
      c.phaseTimer = startTimer p.params.releaseTo)) ∧
  ((p.hoist h).phase = .travel → p.params.approachDist < d → tr.kind ≠ .directed → tr.leg = .loaded →
    p.power.share.get h = 0 → stopped = true → c.phase = .dwell ∧ c.dwellTimer = startTimer p.params.dwellLimit) ∧
  ((p.hoist h).phase = .dwell → p.power.share.get h ≠ 0 → c.phase = .travel ∧ c.dwellTimer = none)

/-- A hoist has entered APPROACH from TRAVEL at a segment event that leaves its phase `after`: ENGAGE and RELEASE are reached through it
(R94, R95). -/
def approachEntered (before after : Phase) : Prop :=
  before = .travel ∧ (after = .approach ∨ after = .engage ∨ after = .release)

/-- The table of R80 for a marker at `zb`, at a segment event that finds the elevation moved from `zp` to `z`: the state before it, the
state after, and whether the marker is missed. -/
def markerRule (slip zp z zb : Nat) (before after : MarkerState) (missed : Bool) : Prop :=
  ∀ tested : MarkerState, tested =
    (if before = .idle ∧ slip < apart zp zb ∧ min zp z ≤ zb + slip ∧ zb ≤ max zp z + slip then
      (if zp < zb then .armedBelow else .armedAbove) else before) →
    (tested = .idle → after = .idle ∧ missed = false) ∧
    (tested = .armedBelow → (zb + slip < z → after = .idle ∧ missed = true) ∧
      (z + slip < zb → after = .idle ∧ missed = false) ∧
      (z ≤ zb + slip → zb ≤ z + slip → after = .armedBelow ∧ missed = false)) ∧
    (tested = .armedAbove → (z + slip < zb → after = .idle ∧ missed = true) ∧
      (zb + slip < z → after = .idle ∧ missed = false) ∧
      (z ≤ zb + slip → zb ≤ z + slip → after = .armedAbove ∧ missed = false)) ∧
    (tested = .met → missed = false ∧ after = if slip < apart z zb then .idle else .met)

/-- Bay `b` names the expected marker of hoist `h` at elevation `e`: the lowest numbered of those there (R76). -/
def Chip.namesMarker (p : Chip) (h : HoistId) (e : Nat) (b : BayId) : Prop :=
  (p.bay b).elevation = some e ∧ p.reaches h b = true ∧
  ∀ k, (p.bay k).elevation = some e → p.reaches h k = true → b ≤ k

/-! ### What a mark does to a filter group (spec/03) -/

/-- A sample instant of a group of that code falls on the mark after those counted: the first mark after a start, every mark with code 0,
and with codes 1 to 7 every T-th mark after the instant before, T being 16 and doubling with each code (R53 to R56). -/
def FilterGroup.instantOnNextMark (g : FilterGroup) (code : Nat) : Prop :=
  g.fresh = true ∨ code = 0 ∨ 16 * 2 ^ (code - 1) ≤ g.since + 1

/-- A mark counted by a group: an instant that falls on it is due there, unless it was taken just before the mark (log 2). -/
def FilterGroup.markCounted (g g' : FilterGroup) (code : Nat) : Prop :=
  (g.ahead = true → g' = { g with ahead := false }) ∧
  (g.ahead = false → g' = { g with since := g.since + 1, due := g'.due } ∧
    (g'.due = true ↔ g.due = true ∨ g.instantOnNextMark code))

/-! ### What the Power Allocator does (spec/07) -/

/-- The setpoint has been set to `taken` (R138 to R142): the mode is that of its sign and the allocation is recomputed; a change of mode is
handed to every hoist with a selection request, and eligibility taken anew. -/
def Chip.setpointTaken (p q : Chip) (taken : Int) : Prop :=
  q.power.setpoint = taken ∧
  q.power.mode = (if 0 < taken then .charge else if taken < 0 then .discharge else .standby) ∧
  q.power.share = sharesOf taken.natAbs q.power.eligible (Quad.tab fun h => (p.hp h).pRated) ∧
  q.power.total = sumQuad q.power.share ∧ q.power.unserved = taken.natAbs - q.power.total ∧
  q.power.handed = p.power.handed ∧
  (q.power.mode = p.power.mode → q.power.eligible = p.power.eligible ∧
    q.power.modeRequests = p.power.modeRequests ∧ q.selector = p.selector) ∧
  (q.power.mode ≠ p.power.mode → (∀ h, q.power.eligible.get h = q.eligibleLaw h ∧
    q.power.modeRequests.get h = p.power.modeRequests.get h ++ [q.power.mode]) ∧
    q.selector = { p.selector with request := true })

end Sys2Proof.Machine
end

