-- ==== Sys2Proof/Certificates/Slice0/Obligations.lean ====
section
/-! DEFINITION. The statements for the provers. Each says of the machine what the rule it names says of the SX-4. -/

open Sys2Proof Sys2Proof.Machine

/-! ### The machine -/

/-- A step takes the command at the front of the queue, on the queue's rest. -/
def Obligations.StepTakesTheFront : Prop :=
  ∀ (i : Instr) (rest : List Instr) (s : State), s.pending = i :: rest → step s = exec i { s with pending := rest }

/-- Every step answers a next state, whose queue is the rest; on an empty queue the block idles (the model's choice, log 3). -/
def Obligations.EveryStepAnswersNext : Prop :=
  ∀ s : State, (∃ t, step s = .next t ∧ t.pending = s.pending.tail) ∧ (s.pending = [] → step s = .next s)

/-- A command that names an event which has not come about changes nothing (the model's choice, log 1), nor does a plant command that the
port has not handed over (the model's choice, log 34). -/
def Obligations.EventsNotComeAboutChangeNothing : Prop :=
  ∀ (s : State) (h : HoistId) (b : Byte) (line : Interlock) (sample : GroupSample),
    (s.chip.settled = false → exec (.millisecondMark line) s = .next s) ∧
    (s.chip.segmentOpen h = false → exec (.segmentEvent h) s = .next s ∧ exec (.linkTimeout h) s = .next s) ∧
    (s.chip.timeoutReached h = false → exec (.linkTimeout h) s = .next s) ∧
    ((s.chip.link h).buffer.length ≠ 6 ∨ (s.chip.link h).partialExpired = true →
      exec (.hoistLinkReply h b) s = .next s) ∧
    (6 ≤ (s.chip.link h).buffer.length → (s.chip.link h).partialExpired = false →
      exec (.hoistLinkReplyByte h b) s = .next s) ∧
    ((s.chip.link h).partialExpired = false → exec (.replyPartialTimeout h) s = .next s) ∧
    (s.chip.sampleOpen sample = false → exec (.filterSampleInstant sample) s = .next s) ∧
    (s.chip.sensors.closingComplete = false → exec .interlockClosedAcceptance s = .next s) ∧
    ((s.chip.interlock = .closed ∨ (s.chip.hoist h).interlockSeen = .opened) → exec (.interlockHalt h) s = .next s) ∧
    ((s.chip.interlock = .opened ∨ (s.chip.hoist h).interlockSeen = .closed) →
      exec (.interlockClosedTaken h) s = .next s) ∧
    (expired (s.chip.hoist h).phaseTimer = false → exec (.phaseTimerExpiry h) s = .next s) ∧
    (expired (s.chip.hoist h).dwellTimer = false → exec (.dwellLimitExpiry h) s = .next s) ∧
    ((s.chip.selector.request = false ∨ s.chip.selector.serving ≠ []) → exec .servingStart s = .next s) ∧
    (s.chip.selector.serving = [] → exec .tryHoist s = .next s) ∧
    (s.chip.power.handed.get h = false → exec (.eligibilityReevaluation h) s = .next s) ∧
    (s.chip.power.modeRequests.get h = [] → exec (.endTripsOfAnotherKind h) s = .next s) ∧
    (s.chip.port.buffer.length ≠ 31 ∨ s.chip.port.gapReached = true → exec (.frameComplete b) s = .next s) ∧
    (31 ≤ s.chip.port.buffer.length → s.chip.port.gapReached = false → exec (.plantLinkByte b) s = .next s) ∧
    ((s.chip.port.buffer = [] ∨ s.chip.port.gap < 6) → exec .frameGapTimeout s = .next s) ∧
    (s.chip.port.sending = none → exec .replyEnd s = .next s) ∧
    (s.chip.port.restart = none →
      exec .restartOrderQueue s = .next s ∧ exec .restartPowerAllocator s = .next s ∧
      exec (.restartHoist h) s = .next s) ∧
    (∀ i : Instr, i.payload.isSome = true → s.chip.handedCommand ≠ some i → exec i s = .next s)

/-! ### Reset -/

/-- What power-on reset leaves (R7, R46), with every other block at its initial values and the straps' line rate. -/
def Obligations.PowerOnResetLeaves : Prop :=
  ∀ (s : State) (straps : BitVec 2) (first : Quad Channels), ∃ t, exec (.powerOnReset straps first) s = .next t ∧
    t.pending = s.pending ∧
    (∀ m, t.chip.mass m =
      { state := .absent, nominal := none, measured := none, bay := none, lastBay := none, hoist := none,
        weighHold := false, lifts := 0 }) ∧
    (∀ b, t.chip.bay b =
      { state := .unsurveyed, elevation := none, access := none, service := none, occupant := none, cause := none,
        sensor := none, holder := none }) ∧
    t.chip.selector = { pointer := 3, request := false, serving := [] } ∧
    t.chip.orders.queue = [] ∧ t.chip.heldOrders = [] ∧ t.chip.orders.dropped = 0 ∧
    t.chip.port.attention = Attention.empty ∧ t.chip.port.changed = false ∧
    t.chip.port.rate = lineRateOf straps ∧
    t.chip.interlock = .opened ∧ t.chip.sensors.mark = 0 ∧
    (∀ h, (t.chip.unit h).channels = first.get h ∧ (t.chip.unit h).referenced = false ∧ (t.chip.unit h).count = 0) ∧
    (∀ h, (t.chip.hoist h).phase = .idle ∧ (t.chip.hoist h).active = none ∧ (t.chip.hoist h).staged = none ∧
      (t.chip.hoist h).brake = .set ∧ (t.chip.hoist h).speedRef = 0) ∧
    (∀ h, (t.chip.link h).enabled = true ∧ (t.chip.link h).state = .down) ∧
    t.chip.power.setpoint = 0 ∧ t.chip.power.mode = .standby ∧
    t.chip.params = PlantParams.powerOn ∧ (∀ h, t.chip.hp h = HoistParams.powerOn)

/-- The state after reset meets every law that the steps keep. Its straps and first encoder samples are the model's choice (log 4). -/
def Obligations.ResetMeetsTheLaws : Prop :=
  State.reset.pending = [] ∧ State.reset.chip.Kept ∧ State.reset.chip.OrderPlaces ∧ State.reset.chip.PowerRecords ∧
  State.reset.chip.ParamsInRange ∧ (∀ h, (State.reset.chip.unit h).InRange) ∧
  (∀ b, (State.reset.chip.bay b).Shape) ∧ State.reset.chip.SensorsAgree

/-! ### Laws that every step keeps -/

/-- Able, the brake command, the stopped reference and the attention set stay true to the records (R89, R93, R152, R190).
That they are recomputed at the end of every event is the model's reading (logs 8, 9). -/
def Obligations.StepKeepsItemsTrueToRecords : Prop :=
  ∀ s t : State, s.chip.Kept → step s = .next t → t.chip.Kept

/-- Queued and held orders together never number more than 16 (R116). -/
def Obligations.StepKeepsSixteenOrderPlaces : Prop :=
  ∀ s t : State, s.chip.OrderPlaces → step s = .next t → t.chip.OrderPlaces

/-- The setpoint stays within ±P_PLANT_MAX, the mode follows its sign, and the shares are those of R142 as it stands. -/
def Obligations.StepKeepsPowerRecords : Prop :=
  ∀ s t : State, s.chip.PowerRecords → step s = .next t → t.chip.PowerRecords

/-- Every parameter stays in its range, with the ranges that depend on another (R68, R79, R153), and the drift of a referenced hoist
within DRIFT_LIMIT. -/
def Obligations.StepKeepsParametersInRange : Prop :=
  ∀ s t : State, s.chip.ParamsInRange → step s = .next t → t.chip.ParamsInRange

/-- The items of every Position Unit stay in the ranges of R63. -/
def Obligations.StepKeepsPositionUnitsInRange : Prop :=
  ∀ s t : State, (∀ h, (s.chip.unit h).InRange) → step s = .next t → ∀ h, (t.chip.unit h).InRange

/-- The bay records keep their shape (a cause exactly while BARRED, a holder exactly while held, no occupant where none can be), and a
bay's sensor field stays the level accepted on its line (R25 to R27). -/
def Obligations.StepKeepsBayRecords : Prop :=
  ∀ s t : State, step s = .next t →
    ((∀ b, (s.chip.bay b).Shape) → ∀ b, (t.chip.bay b).Shape) ∧ (s.chip.SensorsAgree → t.chip.SensorsAgree)

/-! ### The Plant Link -/

/-- Every well-formed plant command, put into a frame by any originator under any tag, is a 32-byte frame whose CRC agrees and which
reads back as that command, with its originator and tag (R183, R193, R194). -/
def Obligations.DecodeOfEncode : Prop :=
  ∀ (i : Instr) (o : Originator) (tag : Byte), i.wellFormed = true → i.payload.isSome = true →
    ∃ f, i.encode o tag = some f ∧ f.bytes.length = 32 ∧ f.byte 0 = 0xA5 ∧ f.crcAgrees = true ∧
      f.command = some i ∧ Originator.ofCode (f.byte 1) = some o ∧ f.byte 3 = tag.toNat

/-- Bytes between and within frames, a frame broken by a gap, and one broken by a character error (R181, R182). A character that comes after
the sixth mark of a frame finds it discarded: its own event does that where FRAME_GAP_TIMEOUT has not (the model's choice, log 41). -/
def Obligations.PlantLinkBytesAreFramed : Prop :=
  ∀ (s : State) (b : Byte), s.chip.Kept →
    (s.chip.port.buffer.length < 31 → (s.chip.port.buffer = [] ∨ s.chip.port.gap < 6) →
      ∃ t, exec (.plantLinkByte b) s = .next t ∧ t.pending = s.pending ∧ s.chip.unchangedBut t.chip [.port] ∧
      t.chip.port = (if s.chip.port.buffer = [] ∧ b ≠ 0xA5#8 then s.chip.port
        else { s.chip.port with buffer := s.chip.port.buffer ++ [b], gap := 0 })) ∧
    (s.chip.port.buffer ≠ [] → 6 ≤ s.chip.port.gap → ∃ t, exec (.plantLinkByte b) s = .next t ∧
      t.pending = s.pending ∧ s.chip.unchangedBut t.chip [.port] ∧ t.chip.port = { s.chip.port with
        buffer := if b = 0xA5#8 then [b] else [], gap := 0, lengthErrors := satInc16 s.chip.port.lengthErrors }) ∧
    (s.chip.port.buffer ≠ [] → 6 ≤ s.chip.port.gap → ∃ t, exec .frameGapTimeout s = .next t ∧
      t.pending = s.pending ∧ s.chip.unchangedBut t.chip [.port] ∧
      t.chip.port = { s.chip.port with
        buffer := [], gap := 0, lengthErrors := satInc16 s.chip.port.lengthErrors }) ∧
    (∃ t, exec .characterError s = .next t ∧ t.pending = s.pending ∧ s.chip.unchangedBut t.chip [.port] ∧
      t.chip.port = { s.chip.port with
        buffer := [], gap := 0, characterErrors := satInc16 s.chip.port.characterErrors
        lengthErrors := if s.chip.port.buffer ≠ [] ∧ 6 ≤ s.chip.port.gap then satInc16 s.chip.port.lengthErrors
          else s.chip.port.lengthErrors })

/-- A complete frame is checked by its CRC and placed: in hand, pending, or discarded and counted (R183). -/
def Obligations.CompleteFramesArePlaced : Prop :=
  ∀ (s : State) (b : Byte) (f : Frame), s.chip.Kept → s.chip.port.buffer.length = 31 → s.chip.port.gap < 6 →
    f = ⟨s.chip.port.buffer ++ [b]⟩ → ∃ t, exec (.frameComplete b) s = .next t ∧ t.pending = s.pending ∧
      s.chip.unchangedBut t.chip [.port] ∧ t.chip.port.buffer = [] ∧ t.chip.port.gap = 0 ∧
      (f.crcAgrees = false → t.chip.port = { s.chip.port with
        buffer := [], gap := 0, checkErrors := satInc16 s.chip.port.checkErrors }) ∧
      (f.crcAgrees = true → s.chip.port.inHand = none → t.chip.port.inHand = some f) ∧
      (f.crcAgrees = true → s.chip.port.inHand ≠ none → s.chip.port.nextFrame = none → t.chip.port =
        { s.chip.port with buffer := [], gap := 0, nextFrame := some f }) ∧
      (f.crcAgrees = true → s.chip.port.inHand ≠ none → s.chip.port.nextFrame ≠ none → t.chip.port =
        { s.chip.port with buffer := [], gap := 0, overruns := satInc16 s.chip.port.overruns })

/-- The port's own checks of a frame it takes, in their order: ORIGIN, UNKNOWN, DENIED; one that passes is handed to its owner and not
yet answered (R184, R185). -/
def Obligations.PortChecksAreMadeInOrder : Prop :=
  ∀ (s : State) (b : Byte) (f : Frame), s.chip.Kept → s.chip.port.buffer.length = 31 → s.chip.port.gap < 6 →
    f = ⟨s.chip.port.buffer ++ [b]⟩ → f.crcAgrees = true → s.chip.port.inHand = none →
    s.chip.port.sending = none → s.chip.port.restart = none → ∃ t, exec (.frameComplete b) s = .next t ∧
      (Originator.ofCode (f.byte 1) = none → t.chip.port.sending = some (replyOf f (refuse .origin))) ∧
      (∀ o, Originator.ofCode (f.byte 1) = some o → f.command = none →
        t.chip.port.sending = some (replyOf f (refuse .unknown))) ∧
      (∀ o i, Originator.ofCode (f.byte 1) = some o → f.command = some i → o.permits i = false →
        t.chip.port.sending = some (replyOf f (refuse .denied))) ∧
      (∀ o i, Originator.ofCode (f.byte 1) = some o → f.command = some i → o.permits i = true →
        t.chip.port.sending = none ∧ t.chip.handedCommand = some i)

/-- At the end of a reply the frame in hand becomes absent, and a pending frame is taken (R184). -/
def Obligations.ReplyEndTakesThePendingFrame : Prop :=
  ∀ (s : State) (r : Reply), s.chip.Kept → s.chip.port.sending = some r → ∃ t, exec .replyEnd s = .next t ∧
    t.pending = s.pending ∧ s.chip.unchangedBut t.chip [.port] ∧ t.chip.port.nextFrame = none ∧
    (s.chip.port.nextFrame = none → t.chip.port = { s.chip.port with inHand := none, sending := none }) ∧
    (∀ f, s.chip.port.nextFrame = some f → t.chip.port.inHand = some f ∧
      t.chip.port.sending = (portRefusal f).map fun reason => replyOf f (refuse reason))

/-! ### Queries -/

/-- GET_MASS reports the record named, and NEXT_MASS the first from a number in the filter's states, or NONE; a number out of range or an
empty filter is refused RANGE (R23, R24). -/
def Obligations.MassQueriesAnswer : Prop :=
  ∀ (s : State) (m : MassId) (start filter : Nat),
    (s.Hands (.getMass (massNumber m)) → ∃ t, exec (.getMass (massNumber m)) s = .next t ∧ t.pending = s.pending ∧
      s.chip.unchangedBut t.chip [.port] ∧ s.chip.repliedWith t.chip (answerDone (s.chip.massResult m))) ∧
    (s.Hands (.nextMass start filter) → 1 ≤ start → start ≤ 96 → filter % 64 ≠ 0 →
      ∃ t, exec (.nextMass start filter) s = .next t ∧ t.pending = s.pending ∧ s.chip.unchangedBut t.chip [.port] ∧
        (start ≤ massNumber m → filter.testBit (s.chip.mass m).state.code = true →
          (∀ k, start ≤ massNumber k → massNumber k < massNumber m →
            filter.testBit (s.chip.mass k).state.code = false) →
          s.chip.repliedWith t.chip (answerDone (s.chip.massResult m))) ∧
        ((∀ k, start ≤ massNumber k → filter.testBit (s.chip.mass k).state.code = false) →
          s.chip.repliedWith t.chip ⟨.done, List.replicate 24 0⟩)) ∧
    (s.Hands (.nextMass start filter) → (start = 0 ∨ 96 < start ∨ filter % 64 = 0) →
      ∃ t, exec (.nextMass start filter) s = .next t ∧ t.pending = s.pending ∧ s.chip.unchangedBut t.chip [.port] ∧
        s.chip.repliedWith t.chip (refuse .range))

/-- The bytes of a mass record in a reply stand where R194 puts them, the first result byte being byte 6; and the stored energy there is
that of R171 and R172: measured, or else nominal, by GRAVITY and the height above DATUM of the bay or the conveyance, and 0 below DATUM
and for a mass MISSING or ABSENT. -/
def Obligations.MassResultLayout : Prop :=
  ∀ (p : Chip) (m : MassId) (r : Frame), r = replyAt (resultBytes (p.massResult m)) →
    r.byte 6 = massNumber m ∧ r.byte 7 = (p.mass m).state.code ∧
    r.byte 8 = flagCode (p.mass m).nominal.isSome + 2 * flagCode (p.mass m).measured.isSome +
      4 * flagCode (p.mass m).bay.isSome + 8 * flagCode (p.mass m).lastBay.isSome +
      16 * flagCode (p.mass m).hoist.isSome ∧
    (∀ n, (p.mass m).nominal = some n → n < 16777216 → r.number 9 3 = n) ∧
    (∀ n, (p.mass m).measured = some n → n < 16777216 → r.number 12 3 = n) ∧
    (∀ b, (p.mass m).bay = some b → r.byte 15 = b.val) ∧
    (∀ b, (p.mass m).lastBay = some b → r.byte 16 = b.val) ∧
    (∀ h, (p.mass m).hoist = some h → r.byte 17 = h.val) ∧
    r.byte 18 = flagCode (p.mass m).weighHold ∧
    ((p.mass m).lifts ≤ 65535 → r.number 19 2 = (p.mass m).lifts) ∧
    (p.storedEnergy m < 281474976710656 → r.number 21 6 = p.storedEnergy m) ∧
    r.byte 27 = 0 ∧ r.byte 28 = 0 ∧ r.byte 29 = 0 ∧
    (∀ w : Nat, ((p.mass m).measured = some w ∨ (p.mass m).measured = none ∧ (p.mass m).nominal = some w) →
      (∀ b z, (p.mass m).bay = some b → (p.bay b).elevation = some z →
        ((p.mass m).state = .parked ∨ (p.mass m).state = .assigned ∨ (p.mass m).state = .retiring) →
        p.storedEnergy m = w * p.params.gravity * (max 0 ((z : Int) - p.params.datum)).toNat / 1000000000) ∧
      (∀ h, (p.mass m).hoist = some h → (p.mass m).state = .aboard → p.storedEnergy m =
        w * p.params.gravity * (max 0 (((p.unit h).elevation : Int) - p.params.datum)).toNat / 1000000000)) ∧
    ((p.mass m).state = .missing ∨ (p.mass m).state = .absent → p.storedEnergy m = 0)

/-- GET_BAY reports the record named, and NEXT_BAY the first from a number in the filter's states, or NONE; a number out of range or an
empty filter is refused RANGE, and every originator may ask (R44, R45). The record stands in the result as R195 lays it out. -/
def Obligations.BayQueriesAnswer : Prop :=
  ∀ (s : State) (b : BayId) (start filter : Nat),
    (s.Hands (.getBay b.val) → ∃ t, exec (.getBay b.val) s = .next t ∧ t.pending = s.pending ∧
      s.chip.unchangedBut t.chip [.port] ∧ s.chip.repliedWith t.chip (answerDone (s.chip.bayResult b))) ∧
    (s.Hands (.nextBay start filter) → start ≤ 63 → filter % 64 ≠ 0 →
      ∃ t, exec (.nextBay start filter) s = .next t ∧ t.pending = s.pending ∧ s.chip.unchangedBut t.chip [.port] ∧
        (start ≤ b.val → filter.testBit (s.chip.bay b).state.code = true →
          (∀ k : BayId, start ≤ k.val → k < b → filter.testBit (s.chip.bay k).state.code = false) →
          s.chip.repliedWith t.chip (answerDone (s.chip.bayResult b))) ∧
        ((∀ k : BayId, start ≤ k.val → filter.testBit (s.chip.bay k).state.code = false) →
          s.chip.repliedWith t.chip ⟨.done, 255#8 :: List.replicate 23 0⟩)) ∧
    (s.Hands (.nextBay start filter) → (63 < start ∨ filter % 64 = 0) →
      ∃ t, exec (.nextBay start filter) s = .next t ∧ t.pending = s.pending ∧ s.chip.unchangedBut t.chip [.port] ∧
        s.chip.repliedWith t.chip (refuse .range)) ∧
    Originator.dispatch.permits (.nextBay start filter) = true ∧ Originator.service.permits (.nextBay start filter) = true ∧
    Originator.monitor.permits (.nextBay start filter) = true ∧
    s.chip.bayLaidOut b (replyAt (resultBytes (s.chip.bayResult b)))

/-- GET_HOIST answers each of its pages 0 to 6 and refuses any other RANGE (R196); GET_PARAM reports the value in force and the ends of its
range as they stand, and refuses what names no parameter RANGE (R188). Each page and each result stands as R195 and section 11.5 lay it
out. The ends reported for NUM are the model's reading (log 18), as is the hoist byte of a plant parameter's reply (log 31); that page 0
shows the reference, brake and latch command as they stand, and not those last handed to the port, is its choice (log 42). -/
def Obligations.HoistAndParameterQueriesAnswer : Prop :=
  ∀ (s : State) (h : HoistId) (page identifier hoist : Nat),
    (s.Hands (.getHoist h.val page) →
      ∃ t a, exec (.getHoist h.val page) s = .next t ∧ t.pending = s.pending ∧ s.chip.unchangedBut t.chip [.port] ∧
        s.chip.repliedWith t.chip a ∧
        (page = 0 → a = answerDone (s.chip.hoistPage h)) ∧
        (page = 1 → a = answerDone (s.chip.tripResult (s.chip.hoist h).active)) ∧
        (page = 2 → a = answerDone (s.chip.tripResult (s.chip.hoist h).staged)) ∧
        (page = 3 → a = answerDone (s.chip.positionPage h)) ∧
        (page = 4 → a = answerDone (s.chip.ropePage h)) ∧
        (page = 5 → a = answerDone (s.chip.linkPage h)) ∧
        (page = 6 → a = answerDone (s.chip.faultPage h)) ∧
        (6 < page → a = refuse .range)) ∧
    (s.Hands (.getParam identifier hoist) →
      ∃ t a, exec (.getParam identifier hoist) s = .next t ∧ t.pending = s.pending ∧
        s.chip.unchangedBut t.chip [.port] ∧ s.chip.repliedWith t.chip a ∧
        (∀ x, plantParamOf identifier = some x →
          a = answerDone (s.chip.paramResult identifier 0 (s.chip.params.get x) (s.chip.plantRange x))) ∧
        (∀ x (k : HoistId), hoistParamOf identifier = some x → hoist = k.val →
          a = answerDone
            (s.chip.paramResult identifier hoist ((s.chip.hp k).get x) ((s.chip.hp k).reportedRange x))) ∧
        (∀ x, hoistParamOf identifier = some x → 3 < hoist → a = refuse .range) ∧
        (plantParamOf identifier = none → hoistParamOf identifier = none → a = refuse .range)) ∧
    s.chip.hoistLaidOut h (replyAt (resultBytes (s.chip.hoistPage h))) ∧
    (∀ tr, tripLaidOut tr (replyAt (resultBytes (s.chip.tripResult tr)))) ∧
    s.chip.positionLaidOut h (replyAt (resultBytes (s.chip.positionPage h))) ∧
    s.chip.ropeLaidOut h (replyAt (resultBytes (s.chip.ropePage h))) ∧
    s.chip.linkLaidOut h (replyAt (resultBytes (s.chip.linkPage h))) ∧
    s.chip.faultLaidOut h (replyAt (resultBytes (s.chip.faultPage h))) ∧
    ∀ (value : Nat) (range : Nat × Nat), paramLaidOut identifier hoist value range
      (replyAt (resultBytes (s.chip.paramResult identifier hoist value range)))

/-- GET_ORDER answers an order of the list or NONE (R124), GET_ENERGY one of its two pages whatever the selector (R177, R196), SNAPSHOT
the four groups (R82, R196); none changes a record. Of the energy figures it is stated what they are: the sums of R173 over the masses at
rest and aboard, the bay that gives z_top (R174), the upper bound as if every mass counted stood there (R174), and the headroom (R175).
Result bytes are numbered from 0 here, byte 6 of the reply being the first. -/
def Obligations.OrderEnergyAndSnapshotQueriesAnswer : Prop :=
  ∀ (s : State) (n : Nat),
    (s.Hands (.getOrder n) → n ≤ 15 → ∃ t result, exec (.getOrder n) s = .next t ∧ t.pending = s.pending ∧
      s.chip.unchangedBut t.chip [.port] ∧ s.chip.repliedWith t.chip ⟨.done, result⟩ ∧ result.length = 24 ∧
      (∀ o, s.chip.orders.queue[n]? = some o → result.take 5 =
        [BitVec.ofNat 8 n, BitVec.ofNat 8 (massNumber o.mass), BitVec.ofNat 8 o.destination.val,
          BitVec.ofNat 8 ((o.hoist.map fun h => h.val).getD 255), o.tag]) ∧
      (s.chip.queueLength ≤ n → result.take 5 = [255#8, 0#8, 0#8, 0#8, 0#8]) ∧
      (s.chip.queueLength ≤ 255 → (⟨result⟩ : Frame).byte 5 = s.chip.queueLength) ∧
      (⟨result⟩ : Frame).byte 6 = s.chip.heldCount ∧
      (s.chip.orders.dropped ≤ 65535 → (⟨result⟩ : Frame).number 7 2 = s.chip.orders.dropped)) ∧
    (s.Hands (.getEnergy n) → ∃ t result, exec (.getEnergy n) s = .next t ∧ t.pending = s.pending ∧
      s.chip.unchangedBut t.chip [.port] ∧ s.chip.repliedWith t.chip ⟨.done, result⟩ ∧
      (n = 0 → s.chip.storedTotal < 281474976710656 → (⟨result⟩ : Frame).number 0 6 = s.chip.storedTotal) ∧
      (n = 0 → s.chip.restingEnergy < 281474976710656 → (⟨result⟩ : Frame).number 6 6 = s.chip.restingEnergy) ∧
      (n = 0 → s.chip.aboardEnergy < 281474976710656 → (⟨result⟩ : Frame).number 12 6 = s.chip.aboardEnergy) ∧
      (n ≠ 0 → s.chip.upperBound < 281474976710656 → (⟨result⟩ : Frame).number 0 6 = s.chip.upperBound) ∧
      (n ≠ 0 → s.chip.headroom < 281474976710656 → (⟨result⟩ : Frame).number 6 6 = s.chip.headroom) ∧
      (n ≠ 0 → (∀ b, s.chip.topBay = some b → s.chip.elevationOf b < 16777216 →
          (⟨result⟩ : Frame).number 12 3 = s.chip.elevationOf b ∧ (⟨result⟩ : Frame).byte 15 = 1 ∧
          (⟨result⟩ : Frame).byte 16 = b.val) ∧
        (s.chip.topBay = none → (⟨result⟩ : Frame).byte 15 = 0) ∧
        (⟨result⟩ : Frame).byte 17 = (massList.filter fun m => decide ((s.chip.mass m).state ≠ .absent ∧
          (s.chip.mass m).state ≠ .missing)).length ∧
        (⟨result⟩ : Frame).byte 18 = (massList.filter fun m => decide ((s.chip.mass m).state = .missing)).length ∧
        (s.chip.params.gravity ≤ 65535 → (⟨result⟩ : Frame).number 19 2 = s.chip.params.gravity) ∧
        (s.chip.params.datum < 16777216 → (⟨result⟩ : Frame).number 21 3 = s.chip.params.datum))) ∧
    s.chip.storedTotal = s.chip.restingEnergy + s.chip.aboardEnergy ∧
    s.chip.restingEnergy = ((massList.filter fun m => decide ((s.chip.mass m).state = .parked ∨
      (s.chip.mass m).state = .assigned ∨ (s.chip.mass m).state = .retiring)).map s.chip.storedEnergy).sum ∧
    s.chip.aboardEnergy =
      ((massList.filter fun m => decide ((s.chip.mass m).state = .aboard)).map s.chip.storedEnergy).sum ∧
    (s.chip.topBay = none ↔ ∀ b, (s.chip.bay b).service ≠ some false) ∧
    (∀ b, s.chip.topBay = some b → (s.chip.bay b).service = some false ∧
      (∀ k, (s.chip.bay k).service = some false → s.chip.elevationOf k < s.chip.elevationOf b ∨
        s.chip.elevationOf k = s.chip.elevationOf b ∧ b ≤ k) ∧
      s.chip.upperBound = ((massList.filter fun m => decide ((s.chip.mass m).state ≠ .absent ∧
        (s.chip.mass m).state ≠ .missing)).map fun m =>
          (match (s.chip.mass m).measured, (s.chip.mass m).nominal with
            | some w, _ => w
            | none, some w => w
            | none, none => 0) * s.chip.params.gravity *
            (max 0 ((s.chip.elevationOf b : Int) - s.chip.params.datum)).toNat / 1000000000).sum) ∧
    (s.chip.topBay = none → s.chip.upperBound = 0) ∧
    (s.chip.headroom : Int) = max 0 ((s.chip.upperBound : Int) - s.chip.storedTotal) ∧
    (s.Hands .snapshot → ∃ t result, exec .snapshot s = .next t ∧ t.pending = s.pending ∧
      s.chip.unchangedBut t.chip [.port] ∧ s.chip.repliedWith t.chip ⟨.done, result⟩ ∧
      ∀ h : HoistId, s.chip.loadM h < 134217728 → (⟨result⟩ : Frame).number (6 * h.val) 6 =
        s.chip.elevationAt h (s.chip.unit h).count * 268435456 +
          flagCode (s.chip.unit h).referenced * 134217728 + s.chip.loadM h)

/-- GET_PLANT reports CHANGED as it stood and clears it, of any page; nothing else changes (R190). Each page carries its own items as they
stood, laid out as R195 says (R192): the power figures, with the served total of R148; the six counts of the port; the masses and the bays
by state, the queue length, the held orders and the orders-dropped count. Another page is refused RANGE and clears nothing. -/
def Obligations.PlantQueryClearsChanged : Prop :=
  ∀ (s : State) (page : Nat), s.Hands (.getPlant page) →
    (page ≤ 2 → ∀ f, s.chip.port.inHand = some f →
      ∃ t result, exec (.getPlant page) s = .next t ∧ t.pending = s.pending ∧ s.chip.unchangedBut t.chip [.port] ∧
        t.chip.port = { s.chip.port with
          sending := some (replyOf f ⟨.done, result⟩), answered := satInc16 s.chip.port.answered, changed := false } ∧
        result.take 3 = [BitVec.ofNat 8 s.chip.port.attention.mask, BitVec.ofNat 8 (flagCode s.chip.port.changed),
          BitVec.ofNat 8 (interlockCode s.chip.interlock)] ∧
        (page = 0 → s.chip.figuresLaidOut (replyAt result)) ∧
        (page = 1 → s.chip.port.countsLaidOut (replyAt result)) ∧
        (page = 2 → s.chip.tablesLaidOut (replyAt result))) ∧
    (2 < page → ∃ t, exec (.getPlant page) s = .next t ∧ t.chip.port.changed = s.chip.port.changed ∧
      s.chip.repliedWith t.chip (refuse .range))

/-- A command refused at any check changes nothing but the port's own items, and its reply carries result bytes of 0 (R184). -/
def Obligations.RefusedCommandsChangeOnlyThePort : Prop :=
  ∀ (i : Instr) (s t : State) (r : Reply), s.Hands i → exec i s = .next t → t.chip.port.sending = some r →
    r.status.isRefusal = true →
      t.pending = s.pending ∧ s.chip.unchangedBut t.chip [.port] ∧ r.result = List.replicate 24 0 ∧
      t.chip.port = { s.chip.port with
        sending := some r, answered := satInc16 s.chip.port.answered, refusals := satInc16 s.chip.port.refusals }

/-! ### The Mass Table -/

/-- ADMIT_MASS and FOUND_MASS that pass their checks (R10, R11, R19, R20): the mass is PARKED in the bay, which becomes OCCUPIED.
The reply is drawn up with the draws counter of that event (the model's choice, log 21). -/
def Obligations.AdmitAndFoundMassComplete : Prop :=
  ∀ (s : State) (m : MassId) (nominal : Nat) (b : BayId), (s.chip.bay b).sensor = some .occupied →
    (s.Hands (.admitMass (massNumber m) nominal b.val) → 5000 ≤ nominal → nominal ≤ 80000 →
      (s.chip.mass m).state = .absent →
      ((s.chip.bay b).state = .opened ∨ (s.chip.bay b).state = .barred ∧ (s.chip.bay b).cause = some .foreign) →
      ∃ t, exec (.admitMass (massNumber m) nominal b.val) s = .next t ∧ t.pending = s.pending ∧
        s.chip.unchangedBut t.chip [.masses, .bays, .selector, .port] ∧
        t.chip.mass m = { state := .parked, nominal := some nominal, measured := none, bay := some b, lastBay := none,
                          hoist := none, weighHold := false, lifts := 0 } ∧ s.chip.otherMassesSame t.chip m ∧
        t.chip.bay b = { s.chip.bay b with state := .occupied, occupant := some m, cause := none, holder := none } ∧
        s.chip.otherBaysSame t.chip b ∧ t.chip.selector = { s.chip.selector with request := true } ∧
        s.chip.repliedWith t.chip (answerDone ((t.chip.drawnAs s.chip).massResult m))) ∧
    (s.Hands (.foundMass (massNumber m) b.val) → (s.chip.mass m).state = .missing →
      ((s.chip.bay b).state = .opened ∨ (s.chip.bay b).state = .barred ∧
        ((s.chip.bay b).cause = some .foreign ∨ (s.chip.bay b).cause = some .lost)) →
      (s.chip.bay b).occupant = none →
      ∃ t, exec (.foundMass (massNumber m) b.val) s = .next t ∧ t.pending = s.pending ∧
        s.chip.unchangedBut t.chip [.masses, .bays, .selector, .port] ∧
        t.chip.mass m = { s.chip.mass m with state := .parked, bay := some b, lastBay := none } ∧
        s.chip.otherMassesSame t.chip m ∧
        t.chip.bay b = { s.chip.bay b with state := .occupied, occupant := some m, cause := none, holder := none } ∧
        s.chip.otherBaysSame t.chip b ∧ t.chip.selector = { s.chip.selector with request := true } ∧
        s.chip.repliedWith t.chip (answerDone ((t.chip.drawnAs s.chip).massResult m)))

/-- AMEND_MASS on a PARKED or MISSING mass (R13). -/
def Obligations.AmendMassCompletes : Prop :=
  ∀ (s : State) (m : MassId) (nominal : Nat), s.Hands (.amendMass (massNumber m) nominal) →
    5000 ≤ nominal → nominal ≤ 80000 → ((s.chip.mass m).state = .parked ∨ (s.chip.mass m).state = .missing) →
    ∃ t, exec (.amendMass (massNumber m) nominal) s = .next t ∧ t.pending = s.pending ∧
      s.chip.unchangedBut t.chip [.masses, .selector, .port] ∧
      t.chip.mass m = { s.chip.mass m with nominal := some nominal, weighHold := false } ∧
      s.chip.otherMassesSame t.chip m ∧
      t.chip.selector =
        { s.chip.selector with request := s.chip.selector.request || (s.chip.mass m).weighHold } ∧
      s.chip.repliedWith t.chip (answerDone ((t.chip.drawnAs s.chip).massResult m))

/-- RETIRE_MASS makes a PARKED mass in an OCCUPIED service bay RETIRING, and writes a MISSING mass off; a queued order that names it is
removed and counted (R14 to R16, R120), and a weigh hold that ends raises a selection request (R126). -/
def Obligations.RetireMassCompletes : Prop :=
  ∀ (s : State) (m : MassId), s.Hands (.retireMass (massNumber m)) →
    ((s.chip.mass m).state = .missing ∨
      (s.chip.mass m).state = .parked ∧ ∃ b, (s.chip.mass m).bay = some b ∧
        (s.chip.bay b).service = some true ∧ (s.chip.bay b).state = .occupied) →
    ∃ t, exec (.retireMass (massNumber m)) s = .next t ∧ t.pending = s.pending ∧
      s.chip.unchangedBut t.chip [.masses, .selector, .orders, .port] ∧ s.chip.otherMassesSame t.chip m ∧
      ((s.chip.mass m).state = .missing → t.chip.selector = { s.chip.selector with
        request := s.chip.selector.request || (s.chip.mass m).weighHold }) ∧
      ((s.chip.mass m).state = .parked → t.chip.selector = s.chip.selector) ∧
      ((s.chip.mass m).state = .missing → t.chip.mass m = MassRecord.empty) ∧
      ((s.chip.mass m).state = .parked → t.chip.mass m = { s.chip.mass m with state := .retiring }) ∧
      t.chip.orders.queue = s.chip.orders.queue.filter (fun o => decide (o.mass ≠ m)) ∧
      t.chip.orders.dropped =
        (if s.chip.queued m then satInc16 s.chip.orders.dropped else s.chip.orders.dropped) ∧
      t.chip.orders.heldActive = s.chip.orders.heldActive ∧ t.chip.orders.heldStaged = s.chip.orders.heldStaged ∧
      s.chip.repliedWith t.chip (answerDone ((t.chip.drawnAs s.chip).massResult m))

/-- The checks of the Mass Table's commands, each with the reason it refuses by, in the order in which they are made (R9, R10, R13, R14,
R19): the answer is the first that fails. -/
def Obligations.MassCommandsRefuseInOrder : Prop :=
  ∀ (s : State) (m : MassId) (number nominal bay : Nat) (b : BayId),
    (s.Hands (.admitMass number nominal bay) →
      (number = 0 ∨ 96 < number ∨ nominal < 5000 ∨ 80000 < nominal ∨ 63 < bay) →
      ∃ t, exec (.admitMass number nominal bay) s = .next t ∧ s.chip.repliedWith t.chip (refuse .range)) ∧
    (s.Hands (.admitMass (massNumber m) nominal b.val) → 5000 ≤ nominal → nominal ≤ 80000 →
      ∃ t, exec (.admitMass (massNumber m) nominal b.val) s = .next t ∧
        ((s.chip.mass m).state ≠ .absent → s.chip.repliedWith t.chip (refuse .conflict)) ∧
        ((s.chip.mass m).state = .absent → (s.chip.bay b).state ≠ .opened →
          ¬((s.chip.bay b).state = .barred ∧ (s.chip.bay b).cause = some .foreign) →
          s.chip.repliedWith t.chip (refuse .state)) ∧
        ((s.chip.mass m).state = .absent →
          ((s.chip.bay b).state = .opened ∨ (s.chip.bay b).state = .barred ∧ (s.chip.bay b).cause = some .foreign) →
          (s.chip.bay b).sensor ≠ some .occupied → s.chip.repliedWith t.chip (refuse .sensor))) ∧
    (s.Hands (.amendMass number nominal) → (number = 0 ∨ 96 < number ∨ nominal < 5000 ∨ 80000 < nominal) →
      ∃ t, exec (.amendMass number nominal) s = .next t ∧ s.chip.repliedWith t.chip (refuse .range)) ∧
    (s.Hands (.retireMass number) → (number = 0 ∨ 96 < number) →
      ∃ t, exec (.retireMass number) s = .next t ∧ s.chip.repliedWith t.chip (refuse .range)) ∧
    (s.Hands (.foundMass number bay) → (number = 0 ∨ 96 < number ∨ 63 < bay) →
      ∃ t, exec (.foundMass number bay) s = .next t ∧ s.chip.repliedWith t.chip (refuse .range)) ∧
    (s.Hands (.amendMass (massNumber m) nominal) → 5000 ≤ nominal → nominal ≤ 80000 →
      ∃ t, exec (.amendMass (massNumber m) nominal) s = .next t ∧
        ((s.chip.mass m).state = .absent → s.chip.repliedWith t.chip (refuse .noSuch)) ∧
        ((s.chip.mass m).state = .assigned ∨ (s.chip.mass m).state = .aboard ∨ (s.chip.mass m).state = .retiring →
          s.chip.repliedWith t.chip (refuse .locked))) ∧
    (s.Hands (.retireMass (massNumber m)) → ∃ t, exec (.retireMass (massNumber m)) s = .next t ∧
        ((s.chip.mass m).state = .absent → s.chip.repliedWith t.chip (refuse .noSuch)) ∧
        ((s.chip.mass m).state = .assigned ∨ (s.chip.mass m).state = .aboard ∨ (s.chip.mass m).state = .retiring →
          s.chip.repliedWith t.chip (refuse .locked)) ∧
        ((s.chip.mass m).state = .parked → (s.chip.mass m).bay = some b →
          ((s.chip.bay b).service ≠ some true ∨ (s.chip.bay b).state ≠ .occupied) →
          s.chip.repliedWith t.chip (refuse .state))) ∧
    (s.Hands (.foundMass (massNumber m) b.val) → ∃ t, exec (.foundMass (massNumber m) b.val) s = .next t ∧
        ((s.chip.mass m).state = .absent → s.chip.repliedWith t.chip (refuse .noSuch)) ∧
        ((s.chip.mass m).state ≠ .absent → (s.chip.mass m).state ≠ .missing →
          s.chip.repliedWith t.chip (refuse .state)) ∧
        ((s.chip.mass m).state = .missing → (s.chip.bay b).state ≠ .opened →
          ¬((s.chip.bay b).state = .barred ∧
            ((s.chip.bay b).cause = some .foreign ∨ (s.chip.bay b).cause = some .lost)) →
          s.chip.repliedWith t.chip (refuse .state)) ∧
        ((s.chip.mass m).state = .missing →
          ((s.chip.bay b).state = .opened ∨ (s.chip.bay b).state = .barred ∧
            ((s.chip.bay b).cause = some .foreign ∨ (s.chip.bay b).cause = some .lost)) →
          ((s.chip.bay b).occupant ≠ none → s.chip.repliedWith t.chip (refuse .conflict)) ∧
          ((s.chip.bay b).occupant = none → (s.chip.bay b).sensor ≠ some .occupied →
            s.chip.repliedWith t.chip (refuse .sensor))))

/-! ### The Bay Table -/

/-- SURVEY_BAY that passes its checks (R28, R29), with what it does to the marker states (R76); and its refusals RANGE (with a service flag
that is no flag, R193), LOCKED and SENSOR in that order (R28). -/
def Obligations.SurveyBayCompletes : Prop :=
  ∀ (s : State) (b : BayId) (number elevation access setting : Nat) (service : Bool) (level : Occupancy),
    (s.Hands (.surveyBay b.val elevation access (flagCode service)) → elevation ≤ 1048575 → access % 16 ≠ 0 →
      (s.chip.bay b).state ≠ .inbound → (s.chip.bay b).state ≠ .outbound → (s.chip.bay b).sensor = some level →
      ∃ t, exec (.surveyBay b.val elevation access (flagCode service)) s = .next t ∧ t.pending = s.pending ∧
        s.chip.unchangedBut t.chip [.bays, .units, .selector, .port] ∧ s.chip.otherBaysSame t.chip b ∧
        ((s.chip.bay b).state ≠ .unsurveyed → t.chip.selector = s.chip.selector ∧ t.chip.bay b =
          { s.chip.bay b with elevation := some elevation, access := some (BitVec.ofNat 4 access), service := some service }) ∧
        ((s.chip.bay b).state = .unsurveyed → level = .empty →
          t.chip.selector = { s.chip.selector with request := true } ∧ t.chip.bay b =
            { state := .opened, elevation := some elevation, access := some (BitVec.ofNat 4 access),
              service := some service, occupant := none, cause := none, sensor := some .empty, holder := none }) ∧
        ((s.chip.bay b).state = .unsurveyed → level = .occupied → t.chip.selector = s.chip.selector ∧ t.chip.bay b =
          { state := .barred, elevation := some elevation, access := some (BitVec.ofNat 4 access), service := some service,
            occupant := none, cause := some .foreign, sensor := some .occupied, holder := none }) ∧
        (∀ h, t.chip.unit h = { s.chip.unit h with markers := (t.chip.unit h).markers } ∧
          ∀ e, markerState (t.chip.unit h).markers e =
            if e ∈ t.chip.expectedMarkers h then markerState (s.chip.unit h).markers e else .idle) ∧
        s.chip.repliedWith t.chip (answerDone ((t.chip.drawnAs s.chip).bayResult b))) ∧
    (s.Hands (.surveyBay number elevation access setting) →
      (63 < number ∨ 1048575 < elevation ∨ access % 16 = 0 ∨ 1 < setting) →
      ∃ t, exec (.surveyBay number elevation access setting) s = .next t ∧ s.chip.repliedWith t.chip (refuse .range)) ∧
    (s.Hands (.surveyBay b.val elevation access (flagCode service)) → elevation ≤ 1048575 → access % 16 ≠ 0 →
      ∃ t, exec (.surveyBay b.val elevation access (flagCode service)) s = .next t ∧
        ((s.chip.bay b).state = .inbound ∨ (s.chip.bay b).state = .outbound →
          s.chip.repliedWith t.chip (refuse .locked)) ∧
        ((s.chip.bay b).state ≠ .inbound → (s.chip.bay b).state ≠ .outbound → (s.chip.bay b).sensor = none →
          s.chip.repliedWith t.chip (refuse .sensor)))

/-- BAR_BAY and UNBAR_BAY, by the state of the bay (R30, R31): what bars it and what lifts the barring, and the refusals RANGE, LOCKED (with
them an OCCUPIED bay whose occupant is RETIRING, R15), STATE and SENSOR. -/
def Obligations.BarAndUnbarBayComplete : Prop :=
  ∀ (s : State) (b : BayId) (number : Nat),
    (63 < number →
      (s.Hands (.barBay number) → ∃ t, exec (.barBay number) s = .next t ∧ s.chip.repliedWith t.chip (refuse .range)) ∧
      (s.Hands (.unbarBay number) → ∃ t, exec (.unbarBay number) s = .next t ∧ s.chip.repliedWith t.chip (refuse .range))) ∧
    (s.Hands (.barBay b.val) →
      ((s.chip.bay b).state = .opened ∨
        (s.chip.bay b).state = .occupied ∧
          (∀ m, (s.chip.bay b).occupant = some m → (s.chip.mass m).state ≠ .retiring) ∨
        (s.chip.bay b).state = .barred ∧ (s.chip.bay b).cause = some .service) →
      ∃ t, exec (.barBay b.val) s = .next t ∧ t.pending = s.pending ∧ s.chip.unchangedBut t.chip [.bays, .port] ∧
        s.chip.otherBaysSame t.chip b ∧
        t.chip.bay b = { s.chip.bay b with state := .barred, cause := some .service } ∧
        s.chip.repliedWith t.chip (answerDone ((t.chip.drawnAs s.chip).bayResult b))) ∧
    (s.Hands (.barBay b.val) → ∃ t, exec (.barBay b.val) s = .next t ∧
      ((s.chip.bay b).state = .inbound ∨ (s.chip.bay b).state = .outbound →
        s.chip.repliedWith t.chip (refuse .locked)) ∧
      (∀ m, (s.chip.bay b).state = .occupied → (s.chip.bay b).occupant = some m → (s.chip.mass m).state = .retiring →
        s.chip.repliedWith t.chip (refuse .locked)) ∧
      ((s.chip.bay b).state = .unsurveyed ∨
        (s.chip.bay b).state = .barred ∧ (s.chip.bay b).cause ≠ some .service →
        s.chip.repliedWith t.chip (refuse .state))) ∧
    (s.Hands (.unbarBay b.val) → (s.chip.bay b).state = .barred →
      ∀ m, (s.chip.bay b).occupant = some m → (s.chip.bay b).sensor = some .occupied →
      ∃ t, exec (.unbarBay b.val) s = .next t ∧ t.pending = s.pending ∧
        s.chip.unchangedBut t.chip [.bays, .selector, .port] ∧ s.chip.otherBaysSame t.chip b ∧
        t.chip.bay b = { s.chip.bay b with state := .occupied, cause := none, holder := none } ∧
        t.chip.selector = { s.chip.selector with request := true } ∧
        s.chip.repliedWith t.chip (answerDone ((t.chip.drawnAs s.chip).bayResult b))) ∧
    (s.Hands (.unbarBay b.val) → (s.chip.bay b).state = .barred → (s.chip.bay b).occupant = none →
      (s.chip.bay b).sensor = some .empty →
      ∃ t, exec (.unbarBay b.val) s = .next t ∧ t.pending = s.pending ∧
        s.chip.unchangedBut t.chip [.bays, .selector, .port] ∧ s.chip.otherBaysSame t.chip b ∧
        t.chip.bay b = { s.chip.bay b with state := .opened, cause := none, holder := none } ∧
        t.chip.selector = { s.chip.selector with request := true } ∧
        s.chip.repliedWith t.chip (answerDone ((t.chip.drawnAs s.chip).bayResult b))) ∧
    (s.Hands (.unbarBay b.val) → ∃ t, exec (.unbarBay b.val) s = .next t ∧
      ((s.chip.bay b).state ≠ .barred → s.chip.repliedWith t.chip (refuse .state)) ∧
      ((s.chip.bay b).state = .barred →
        ((s.chip.bay b).occupant ≠ none ∧ (s.chip.bay b).sensor ≠ some .occupied ∨
          (s.chip.bay b).occupant = none ∧ (s.chip.bay b).sensor ≠ some .empty) →
        s.chip.repliedWith t.chip (refuse .sensor)))

/-! ### The Order Queue -/

/-- ORDER_MOVE is refused RANGE by a field out of its range (R117), and otherwise by the first of its checks that fails (R117, R118). -/
def Obligations.OrderMoveRefusesInOrder : Prop :=
  ∀ (s : State) (mass destination : Nat) (m : MassId) (d : BayId) (n : Nat) (h : Option HoistId) (reason : Reason),
    (s.Hands (.orderMove mass destination n) →
      (mass = 0 ∨ 96 < mass ∨ 63 < destination ∨ 3 < n ∧ n ≠ 255) →
      ∃ t, exec (.orderMove mass destination n) s = .next t ∧ s.chip.repliedWith t.chip (refuse .range)) ∧
    (s.Hands (.orderMove (massNumber m) d.val n) → hoistOrAllOf n = some h →
      (s.chip.orderChecks m d h).find? (fun c => c.1) = some (true, reason) →
      ∃ t, exec (.orderMove (massNumber m) d.val n) s = .next t ∧ s.chip.repliedWith t.chip (refuse reason))

/-- ORDER_MOVE that passes every check adds the order at the tail with the frame's tag, and raises a selection request (R119). -/
def Obligations.OrderMoveCompletes : Prop :=
  ∀ (s : State) (m : MassId) (d : BayId) (n : Nat) (h : Option HoistId) (f : Frame),
    s.Hands (.orderMove (massNumber m) d.val n) → hoistOrAllOf n = some h → s.chip.port.inHand = some f →
    (∀ c ∈ s.chip.orderChecks m d h, c.1 = false) →
    ∃ t, exec (.orderMove (massNumber m) d.val n) s = .next t ∧ t.pending = s.pending ∧
      s.chip.unchangedBut t.chip [.orders, .selector, .port] ∧
      t.chip.orders = { s.chip.orders with queue := s.chip.orders.queue ++
        [{ mass := m, destination := d, hoist := h, tag := BitVec.ofNat 8 (f.byte 3) }] } ∧
      t.chip.selector = { s.chip.selector with request := true } ∧
      s.chip.repliedWith t.chip (answerDone [BitVec.ofNat 8 s.chip.queueLength,
        BitVec.ofNat 8 (s.chip.queueLength + 1), BitVec.ofNat 8 s.chip.heldCount])

/-- CANCEL_ORDER on whichever holds the mass (R122): a queued order, a staged trip, an active trip in either leg, or nothing. An empty trip
abandoned at once ends as R103 and R93 say; that its latch opens also from HALTED and FAULTED is the model's reading (log 40), as are that
NO_BAY becomes no with the end of the trip (log 11) and that the withdrawal holds the fate of the order (log 12). -/
def Obligations.CancelOrderActsOnTheHolder : Prop :=
  ∀ (s : State) (m : MassId), s.Hands (.cancelOrder (massNumber m)) →
    ∃ t, exec (.cancelOrder (massNumber m)) s = .next t ∧ t.pending = s.pending ∧
      s.chip.unchangedBut t.chip [.masses, .bays, .hoists, .selector, .orders, .power, .port] ∧
      t.chip.orders.dropped = s.chip.orders.dropped ∧
      (∀ k o, s.chip.orders.queue[k]? = some o → o.mass = m →
        (∀ (j : Nat) o', j < k → s.chip.orders.queue[j]? = some o' → o'.mass ≠ m) →
        s.chip.unchangedBut t.chip [.orders, .selector, .port] ∧
        t.chip.orders.queue = s.chip.orders.queue.filter (fun o' => decide (o'.mass ≠ m)) ∧
        t.chip.selector = { s.chip.selector with request := true } ∧
        s.chip.repliedWith t.chip (answerDone [0#8, BitVec.ofNat 8 k])) ∧
      (s.chip.queued m = false →
        (∀ h tr, (s.chip.hoist h).staged = some tr → tr.mass = m →
          (∀ k tr', (s.chip.hoist k).staged = some tr' → tr'.mass = m → k = h) →
          (t.chip.hoist h).staged = none ∧ (t.chip.hoist h).active = (s.chip.hoist h).active ∧
          t.chip.mass m = { s.chip.mass m with state := .parked } ∧ t.chip.held h .staged = none ∧
          t.chip.orders.queue = s.chip.orders.queue ∧
          s.chip.repliedWith t.chip (answerDone [1#8, BitVec.ofNat 8 h.val])) ∧
        ((∀ k tr', (s.chip.hoist k).staged = some tr' → tr'.mass ≠ m) →
          (∀ h tr, (s.chip.hoist h).active = some tr → tr.mass = m →
            (∀ k tr', (s.chip.hoist k).active = some tr' → tr'.mass = m → k = h) →
            (tr.leg = .loaded → s.chip.repliedWith t.chip (refuse .locked)) ∧
            (tr.leg = .empty → (s.chip.hoist h).withdrawal ≠ .none →
              t.chip.hoists = s.chip.hoists ∧ t.chip.masses = s.chip.masses ∧
              s.chip.repliedWith t.chip (answerDone [2#8, BitVec.ofNat 8 h.val, 1#8])) ∧
            (tr.leg = .empty → (s.chip.hoist h).withdrawal = .none → (s.chip.hoist h).waitsForLatch = true →
              (t.chip.hoist h).withdrawal = .abandon .discarded ∧ (t.chip.hoist h).latchCommand = .opened ∧
              t.chip.masses = s.chip.masses ∧
              s.chip.repliedWith t.chip (answerDone [2#8, BitVec.ofNat 8 h.val, 1#8])) ∧
            (tr.leg = .empty → (s.chip.hoist h).withdrawal = .none → (s.chip.hoist h).waitsForLatch = false →
              t.chip.mass m = { s.chip.mass m with state := .parked } ∧ s.chip.emptyEnded t.chip h ∧
              s.chip.repliedWith t.chip (answerDone [2#8, BitVec.ofNat 8 h.val, 0#8]))) ∧
          ((∀ k tr', (s.chip.hoist k).active = some tr' → tr'.mass ≠ m) →
            s.chip.repliedWith t.chip (refuse .noSuch))))

/-! ### The Power Allocator -/

/-- SET_POWER clamps and sets the setpoint, sets the mode by its sign, hands a change of mode on, and recomputes the allocation (R138,
R139, R142). That a hoist's requests wait in order is the model's choice (log 33). -/
def Obligations.SetPowerCompletes : Prop :=
  ∀ (s : State) (x taken : Int) (mode : PlantMode), s.Hands (.setPower x) →
    taken = max (-(s.chip.params.pPlantMax : Int)) (min x s.chip.params.pPlantMax) →
    mode = (if 0 < taken then .charge else if taken < 0 then .discharge else .standby) →
    ∃ t, exec (.setPower x) s = .next t ∧ t.pending = s.pending ∧
      s.chip.unchangedBut t.chip [.selector, .power, .port] ∧ s.chip.setpointTaken t.chip taken ∧
      t.chip.power.mode = mode ∧
      ∃ a, s.chip.repliedWith t.chip a ∧ a.status = (if taken = x then .done else .adjusted)

/-- The allocation of R142: equal shares of the eligible hoists with the remainder to the lowest numbers, the first cap, one
redistribution of the excess among the uncapped by the same rule, and what is left unserved; never a share above P_RATED, nor more than
the setpoint in sum. -/
def Obligations.SharesAreDividedByRule : Prop :=
  ∀ (p q : Chip) (amount n m excess : Nat) (members uncapped : List HoistId) (equal : HoistId → Nat), q = p.allocate →
    amount = p.power.setpoint.natAbs → members = (hoistList.filter fun h => p.power.eligible.get h) →
    n = members.length →
    (∀ h, equal h = amount / n + (if (members.filter fun k => decide (k < h)).length < amount % n then 1 else 0)) →
    uncapped = (members.filter fun h => decide (equal h ≤ (p.hp h).pRated)) → m = uncapped.length →
    excess = (members.map fun h => equal h - (p.hp h).pRated).sum →
    p.unchangedBut q [.power] ∧
    q.power = { p.power with share := q.power.share, total := q.power.total, unserved := q.power.unserved } ∧
    (∀ h, h ∉ members → q.power.share.get h = 0) ∧
    (∀ h ∈ members, h ∉ uncapped → q.power.share.get h = (p.hp h).pRated) ∧
    (∀ h ∈ uncapped, q.power.share.get h = min (p.hp h).pRated (equal h + excess / m +
      (if (uncapped.filter fun k => decide (k < h)).length < excess % m then 1 else 0))) ∧
    (∀ h, q.power.share.get h ≤ (p.hp h).pRated) ∧ q.power.total = sumQuad q.power.share ∧ q.power.total ≤ amount ∧
    q.power.unserved = amount - q.power.total

/-- ELIGIBILITY_REEVALUATION takes a hoist's change: eligible exactly when the conditions of R141 hold, the allocation recomputed if the
eligible set has changed. That a hoist's changes merge into one outstanding item is the model's choice (log 32). -/
def Obligations.EligibilityReevaluationCompletes : Prop :=
  ∀ (s : State) (h : HoistId), s.chip.Kept → s.chip.power.handed.get h = true →
    ∃ t, exec (.eligibilityReevaluation h) s = .next t ∧ t.pending = s.pending ∧
      s.chip.unchangedBut t.chip [.power, .port] ∧ s.chip.portReported t.chip ∧
      (t.chip.power.eligible.get h = true ↔ ∃ tr, (s.chip.hoist h).active = some tr ∧
        (tr.kind = .charge ∨ tr.kind = .discharge) ∧ tr.leg = .loaded ∧
        ((s.chip.hoist h).phase = .travel ∨ (s.chip.hoist h).phase = .approach ∨ (s.chip.hoist h).phase = .dwell) ∧
        (s.chip.power.mode = .charge ∧ tr.direction = .up ∨ s.chip.power.mode = .discharge ∧ tr.direction = .down)) ∧
      (∀ k, k ≠ h → t.chip.power.eligible.get k = s.chip.power.eligible.get k) ∧
      t.chip.power.handed.get h = false ∧ (∀ k, k ≠ h → t.chip.power.handed.get k = s.chip.power.handed.get k) ∧
      t.chip.power.setpoint = s.chip.power.setpoint ∧ t.chip.power.mode = s.chip.power.mode ∧
      t.chip.power.modeRequests = s.chip.power.modeRequests ∧
      (t.chip.power.eligible = s.chip.power.eligible → t.chip.power.share = s.chip.power.share ∧
        t.chip.power.unserved = s.chip.power.unserved) ∧
      (t.chip.power.eligible ≠ s.chip.power.eligible →
        t.chip.power.share = sharesOf s.chip.power.setpoint.natAbs t.chip.power.eligible
          (Quad.tab fun k => (s.chip.hp k).pRated) ∧
        t.chip.power.unserved = s.chip.power.setpoint.natAbs - sumQuad t.chip.power.share)

/-- END_TRIPS_OF_ANOTHER_KIND takes a hoist's earliest mode change request (R134): a staged trip of another kind is dropped, an active
one in leg EMPTY is abandoned, every other active trip is kept. That requests wait in order for each hoist is the model's choice (log 33);
that the latch opens with an abandonment also from HALTED and FAULTED is its reading (log 40), as are that NO_BAY becomes no with the end of
the trip (log 11) and that the withdrawal holds the fate of the order (log 12). -/
def Obligations.EndTripsOfAnotherKindCompletes : Prop :=
  ∀ (s : State) (h : HoistId) (mode : PlantMode) (rest : List PlantMode), s.chip.Kept →
    s.chip.power.modeRequests.get h = mode :: rest →
    ∃ t, exec (.endTripsOfAnotherKind h) s = .next t ∧ t.pending = s.pending ∧
      s.chip.unchangedBut t.chip [.masses, .bays, .hoists, .selector, .orders, .power, .port] ∧
      t.chip.power.modeRequests.get h = rest ∧
      (∀ tr, (s.chip.hoist h).staged = some tr → tr.ofAnotherKind mode = true →
        (t.chip.hoist h).staged = none ∧ (t.chip.mass tr.mass).state = .parked) ∧
      (∀ tr, (s.chip.hoist h).active = some tr → (tr.ofAnotherKind mode = false ∨ tr.leg = .loaded) →
        (t.chip.hoist h).active = some tr) ∧
      (∀ tr, (s.chip.hoist h).active = some tr → tr.ofAnotherKind mode = true → tr.leg = .empty →
        (s.chip.hoist h).withdrawal = .none → (s.chip.hoist h).waitsForLatch = false →
        (t.chip.mass tr.mass).state = .parked ∧
        ((s.chip.hoist h).staged = none → s.chip.emptyEnded t.chip h)) ∧
      (∀ tr, (s.chip.hoist h).active = some tr → tr.ofAnotherKind mode = true → tr.leg = .empty →
        (s.chip.hoist h).withdrawal = .none → (s.chip.hoist h).waitsForLatch = true →
        (t.chip.hoist h).active = some tr ∧ (t.chip.hoist h).withdrawal = .abandon .discarded ∧
        (t.chip.hoist h).latchCommand = .opened)

/-! ### Hoists -/

/-- HOLD_HOIST sets the hold mode in every phase, and a hoist that becomes able raises a selection request (R110); ENABLE_HOIST puts a
hoist's link in service or out of it, a setting it already has changing nothing (R168). That on leaves a link DOWN which is already in
service is the model's reading (log 16), and that off is refused by the phase before the setting is looked at is its choice (log 39). -/
def Obligations.HoldAndEnableHoistComplete : Prop :=
  ∀ (s : State) (h : HoistId) (n : Nat) (mode : HoldMode) (on : Bool),
    (s.Hands (.holdHoist h.val n) → holdModeOf n = some mode →
      ∃ t, exec (.holdHoist h.val n) s = .next t ∧ t.pending = s.pending ∧
        s.chip.unchangedBut t.chip [.hoists, .selector, .port] ∧ s.chip.otherHoistsSame t.chip h ∧
        t.chip.hoist h = { s.chip.hoist h with holdMode := mode, able := t.chip.ableLaw h } ∧
        (mode = .hold → (t.chip.hoist h).able = false) ∧
        t.chip.selector = { s.chip.selector with
          request := s.chip.selector.request || ((t.chip.hoist h).able && !(s.chip.hoist h).able) } ∧
        s.chip.repliedWith t.chip (answerDone [BitVec.ofNat 8 h.val, BitVec.ofNat 8 n])) ∧
    (s.Hands (.enableHoist h.val (flagCode on)) → (on = true ∨ (s.chip.hoist h).phase = .idle) →
      ∃ t, exec (.enableHoist h.val (flagCode on)) s = .next t ∧ t.pending = s.pending ∧
        s.chip.unchangedBut t.chip [.hoists, .selector, .links, .port] ∧ s.chip.otherHoistsSame t.chip h ∧
        s.chip.otherLinksSame t.chip h ∧
        ((s.chip.link h).enabled = on → t.chip.link h = s.chip.link h ∧ t.chip.hoists = s.chip.hoists) ∧
        ((s.chip.link h).enabled = true → on = false → t.chip.link h =
          { s.chip.link h with enabled := false, state := .down, proving := 0, missed := 0 } ∧
          (t.chip.hoist h).able = false) ∧
        ((s.chip.link h).enabled = false → on = true → (s.chip.link h).state = .down → t.chip.link h =
          { s.chip.link h with enabled := true, state := .proving, proving := 0, missed := 0 }) ∧
        s.chip.repliedWith t.chip (answerDone [BitVec.ofNat 8 h.val, BitVec.ofNat 8 (flagCode (t.chip.link h).enabled),
          BitVec.ofNat 8 (t.chip.link h).state.code])) ∧
    (s.Hands (.enableHoist h.val 0) → (s.chip.hoist h).phase ≠ .idle →
      ∃ t, exec (.enableHoist h.val 0) s = .next t ∧ s.chip.repliedWith t.chip (refuse .locked))

/-- RESUME of a HALTED hoist (R108): a trip that holds no destination is re-targeted first, and where the rule gives no bay the hoist stays
HALTED with cause NO_BAY; otherwise the phase is re-entered and the resume phase and halt cause are absent. That the phase reply is absent
in TRAVEL too is the model's reading (log 10). -/
def Obligations.ResumeCompletes : Prop :=
  ∀ (s : State) (h : HoistId) (tr : Trip) (resume : Phase), s.Hands (.resume h.val) → s.chip.interlock = .closed →
    (s.chip.hoist h).phase = .halted → (s.chip.link h).state = .up → (s.chip.hoist h).active = some tr →
    tr.resumePhase = some resume →
    ∃ t a, exec (.resume h.val) s = .next t ∧ t.pending = s.pending ∧
      s.chip.unchangedBut t.chip [.bays, .hoists, .selector, .power, .port] ∧ s.chip.otherHoistsSame t.chip h ∧
      (s.chip.holdsDestination h .active tr.destination = true →
        t.chip.bays = s.chip.bays ∧ s.chip.reentered t.chip h resume ∧
        (t.chip.hoist h).active = some { tr with resumePhase := none, haltCause := none }) ∧
      (s.chip.holdsDestination h .active tr.destination = false →
        ∀ zr, zr = (if tr.leg = .loaded then (s.chip.unit h).elevation else s.chip.elevationOf tr.source) →
        s.chip.retargetRule h zr (s.chip.retargetBay h zr) ∧
        (∀ b, s.chip.retargetBay h zr = some b → s.chip.destinationTaken t.chip h b ∧ s.chip.otherBaysSame t.chip b ∧
          s.chip.reentered t.chip h resume ∧ (t.chip.hoist h).active =
            some { s.chip.retargeted tr zr b with resumePhase := none, haltCause := none }) ∧
        (s.chip.retargetBay h zr = none → t.chip.bays = s.chip.bays ∧ (t.chip.hoist h).phase = .halted ∧
          (t.chip.hoist h).noBay = true ∧ (t.chip.hoist h).active = some { tr with haltCause := some .noBay })) ∧
      s.chip.repliedWith t.chip a ∧ a.status = .done ∧ (replyAt a.result).byte 6 = 2 ^ h.val ∧
      (replyAt a.result).byte (8 + 2 * h.val) = (t.chip.hoist h).phase.code ∧
      ((t.chip.hoist h).phase = .halted → (replyAt a.result).byte 7 = 2 ^ h.val ∧
        (replyAt a.result).byte (9 + 2 * h.val) = HaltCause.noBay.code) ∧
      ((t.chip.hoist h).phase ≠ .halted → (replyAt a.result).byte 7 = 0)

/-- ABANDON_TRIP on a FAULTED or HALTED hoist (R111): a loaded trip ends at once with its mass MISSING; an empty one that need not wait for
the latch is abandoned with its mass PARKED, its latch command OPEN where the hoist was halted or faulted in ENGAGE (R93; the model's
reading, log 40). That a waiting withdrawal holds the fate of the order is the model's reading (log 12). It is refused RANGE, STATE and
NO_SUCH in that order. -/
def Obligations.AbandonTripCompletes : Prop :=
  ∀ (s : State) (h : HoistId) (tr : Trip) (number : Nat),
    (s.Hands (.abandonTrip h.val) →
      ((s.chip.hoist h).phase = .faulted ∨ (s.chip.hoist h).phase = .halted) → (s.chip.hoist h).active = some tr →
      ∃ t, exec (.abandonTrip h.val) s = .next t ∧ t.pending = s.pending ∧
        s.chip.unchangedBut t.chip [.masses, .bays, .hoists, .selector, .orders, .power, .port] ∧
        s.chip.otherHoistsSame t.chip h ∧ (t.chip.hoist h).staged = none ∧
        (tr.leg = .loaded → t.chip.mass tr.mass =
            { s.chip.mass tr.mass with state := .missing, lastBay := none, hoist := none } ∧
          (t.chip.hoist h).active = none ∧ (t.chip.hoist h).latchCommand = (s.chip.hoist h).latchCommand ∧
          ((s.chip.hoist h).phase = .faulted → (t.chip.hoist h).phaseReply = (s.chip.hoist h).phaseReply) ∧
          (t.chip.hoist h).phase = (if (s.chip.hoist h).phase = .halted then .idle else .faulted)) ∧
        (tr.leg = .empty → (s.chip.hoist h).withdrawal = .none → (s.chip.hoist h).waitsForLatch = false →
          t.chip.mass tr.mass = { s.chip.mass tr.mass with state := .parked } ∧ (t.chip.hoist h).active = none ∧
          (t.chip.hoist h).latchCommand =
            (if (s.chip.hoist h).workPhase = .engage then .opened else (s.chip.hoist h).latchCommand) ∧
          (t.chip.hoist h).phaseReply = none ∧
          (t.chip.hoist h).phase = (if (s.chip.hoist h).phase = .halted then .idle else .faulted)) ∧
        (tr.leg = .empty → (s.chip.hoist h).withdrawal = .none → (s.chip.hoist h).waitsForLatch = true →
          (t.chip.hoist h).active = some tr ∧ (t.chip.hoist h).withdrawal = .abandon .discarded ∧
          (t.chip.hoist h).latchCommand = .opened ∧ (t.chip.hoist h).phase = (s.chip.hoist h).phase) ∧
        s.chip.repliedWith t.chip (answerDone [BitVec.ofNat 8 h.val, BitVec.ofNat 8 (t.chip.hoist h).phase.code,
          BitVec.ofNat 8 (t.chip.hoist h).withdrawal.code])) ∧
    (s.Hands (.abandonTrip number) → 3 < number → ∃ t, exec (.abandonTrip number) s = .next t ∧ s.chip.repliedWith t.chip (refuse .range)) ∧
    (s.Hands (.abandonTrip h.val) → ∃ t, exec (.abandonTrip h.val) s = .next t ∧
      ((s.chip.hoist h).phase ≠ .faulted → (s.chip.hoist h).phase ≠ .halted →
        s.chip.repliedWith t.chip (refuse .state)) ∧
      (((s.chip.hoist h).phase = .faulted ∨ (s.chip.hoist h).phase = .halted) → (s.chip.hoist h).active = none →
        s.chip.repliedWith t.chip (refuse .noSuch)))

/-- RETARGET names a new destination for a loaded trip of a FAULTED or HALTED hoist (R112); it is refused RANGE, STATE, NO_SUCH, STATE,
LOCKED, STATE and UNREACHABLE in the order of R112. -/
def Obligations.RetargetCompletes : Prop :=
  ∀ (s : State) (h : HoistId) (b : BayId) (tr : Trip) (number bay : Nat),
    (s.Hands (.retarget h.val b.val) →
      ((s.chip.hoist h).phase = .faulted ∨ (s.chip.hoist h).phase = .halted) → (s.chip.hoist h).active = some tr →
      tr.leg = .loaded → (s.chip.hoist h).workPhase ≠ .release → (s.chip.bay b).state = .opened →
      s.chip.reaches h b = true →
      ∃ t, exec (.retarget h.val b.val) s = .next t ∧ t.pending = s.pending ∧
        s.chip.unchangedBut t.chip [.bays, .hoists, .selector, .power, .port] ∧ s.chip.otherHoistsSame t.chip h ∧
        (∀ k, k ≠ b → k ≠ tr.destination → t.chip.bay k = s.chip.bay k) ∧
        t.chip.bay b = { s.chip.bay b with state := .inbound, occupant := none, holder := some (h, .active) } ∧
        (s.chip.holdsDestination h .active tr.destination = true →
          (t.chip.bay tr.destination).state =
            (if (s.chip.bay tr.destination).sensor = some .occupied then .barred else .opened)) ∧
        (t.chip.hoist h).phase = (s.chip.hoist h).phase ∧ (t.chip.hoist h).noBay = false ∧
        (t.chip.hoist h).active = some { tr with
          destination := b, kind := .directed, retargets := satInc 255 tr.retargets
          direction := if (s.chip.unit h).elevation < s.chip.elevationOf b then .up else .down } ∧
        ∃ a, s.chip.repliedWith t.chip a ∧ a.status = .done) ∧
    (s.Hands (.retarget number bay) → (3 < number ∨ 63 < bay) →
      ∃ t, exec (.retarget number bay) s = .next t ∧ s.chip.repliedWith t.chip (refuse .range)) ∧
    (s.Hands (.retarget h.val b.val) → ∃ t, exec (.retarget h.val b.val) s = .next t ∧
      ((s.chip.hoist h).phase ≠ .faulted → (s.chip.hoist h).phase ≠ .halted →
        s.chip.repliedWith t.chip (refuse .state)) ∧
      (((s.chip.hoist h).phase = .faulted ∨ (s.chip.hoist h).phase = .halted) →
        ((s.chip.hoist h).active = none → s.chip.repliedWith t.chip (refuse .noSuch)) ∧
        ((s.chip.hoist h).active = some tr →
          (tr.leg = .empty → s.chip.repliedWith t.chip (refuse .state)) ∧
          (tr.leg = .loaded →
            ((s.chip.hoist h).workPhase = .release → s.chip.repliedWith t.chip (refuse .locked)) ∧
            ((s.chip.hoist h).workPhase ≠ .release →
              ((s.chip.bay b).state ≠ .opened → s.chip.repliedWith t.chip (refuse .state)) ∧
              ((s.chip.bay b).state = .opened → s.chip.reaches h b = false →
                s.chip.repliedWith t.chip (refuse .unreachable)))))))

/-- REFERENCE_HOIST sets the offset so that the conveyance stands at the bay's elevation (R74, R75). -/
def Obligations.ReferenceHoistCompletes : Prop :=
  ∀ (s : State) (h : HoistId) (b : BayId) (e : Nat) (l : Int), s.Hands (.referenceHoist h.val b.val) →
    (s.chip.bay b).state ≠ .unsurveyed → (s.chip.bay b).elevation = some e → e ≤ 1048575 →
    s.chip.reaches h b = true → ((s.chip.hoist h).phase = .idle ∨ (s.chip.hoist h).phase = .faulted) →
    l = ropeLength (s.chip.hp h) (s.chip.unit h).count →
    ∃ t, exec (.referenceHoist h.val b.val) s = .next t ∧ t.pending = s.pending ∧
      s.chip.unchangedBut t.chip [.units, .hoists, .selector, .port] ∧ s.chip.otherUnitsSame t.chip h ∧
      s.chip.otherHoistsSame t.chip h ∧
      t.chip.unit h = { s.chip.unit h with
        offset := (t.chip.unit h).offset, elevation := (t.chip.unit h).elevation, referenced := true, drift := 0
        markers := [], missRun := 0 } ∧
      (∀ o : Int, o = e - ((s.chip.hp h).zHead - l - stretch (s.chip.hp h) (s.chip.loadM h) l) →
        -2147483648 ≤ o → o ≤ 2147483647 → (t.chip.unit h).offset = o ∧ (t.chip.unit h).elevation = e) ∧
      t.chip.hoist h = { s.chip.hoist h with able := t.chip.ableLaw h } ∧
      ∃ a, s.chip.repliedWith t.chip a ∧ a.status = .done

/-- CLEAR_FAULT on a FAULTED hoist whose link is UP (R167): HALTED with an active trip, IDLE without; the fault count is kept. It is refused
RANGE, and then STATE for a hoist that is not FAULTED and for one whose link is not UP. -/
def Obligations.ClearFaultCompletes : Prop :=
  ∀ (s : State) (h : HoistId) (phaseAt : Phase) (number : Nat),
    (s.Hands (.clearFault h.val) → (s.chip.hoist h).phase = .faulted →
      (s.chip.link h).state = .up → (s.chip.hoist h).fault.phaseAt = some phaseAt →
      ∃ t, exec (.clearFault h.val) s = .next t ∧ t.pending = s.pending ∧
        s.chip.unchangedBut t.chip [.hoists, .selector, .power, .port] ∧ s.chip.otherHoistsSame t.chip h ∧
        (t.chip.hoist h).fault =
          { first := none, detail := none, phaseAt := none, further := none, count := (s.chip.hoist h).fault.count } ∧
        (t.chip.hoist h).latchCommand = (s.chip.hoist h).latchCommand ∧
        (t.chip.hoist h).withdrawal = (s.chip.hoist h).withdrawal ∧ (t.chip.hoist h).speedRef = 0 ∧
        ((s.chip.hoist h).active = none → (t.chip.hoist h).phase = .idle ∧ (t.chip.hoist h).active = none) ∧
        (∀ tr, (s.chip.hoist h).active = some tr → (t.chip.hoist h).phase = .halted ∧
          (t.chip.hoist h).active = some { tr with
            resumePhase := some phaseAt
            haltCause :=
              if s.chip.holdsDestination h .active tr.destination = true then some .restart else some .destLost }) ∧
        ∃ a, s.chip.repliedWith t.chip a ∧ a.status = .done) ∧
    (s.Hands (.clearFault number) → 3 < number → ∃ t, exec (.clearFault number) s = .next t ∧ s.chip.repliedWith t.chip (refuse .range)) ∧
    (s.Hands (.clearFault h.val) → ((s.chip.hoist h).phase ≠ .faulted ∨ (s.chip.link h).state ≠ .up) →
      ∃ t, exec (.clearFault h.val) s = .next t ∧ s.chip.repliedWith t.chip (refuse .state))

/-- SET_PARAM sets the parameter to the value taken, by its treatment, and works the side effects of a change: a restart of the filters by
BAY_FILTER and LATCH_FILTER (R56), the setpoint clamped by P_PLANT_MAX (R140), the ratio of NUM and DEN (R68), the loss of the reference
by Z_HEAD, NUM and DEN (R69), the speeds lowered to V_RATED (R153), the shares divided anew by P_RATED (R143). That a group's count of
marks is 0 from a restart on is the model's choice (log 44). The value stands in the
reply (section 11.5); that the hoist byte of a plant parameter's reply is 0 is the model's reading (log 31), and that mode change requests
wait in order its choice (log 33). -/
def Obligations.SetParamCompletes : Prop :=
  ∀ (s : State) (identifier hoist v : Nat) (value : Int), s.Hands (.setParam identifier hoist value) →
    (∀ x, plantParamOf identifier = some x → x.treatment.apply (s.chip.plantRange x) value = some v →
      ∃ t a, exec (.setParam identifier hoist value) s = .next t ∧ t.pending = s.pending ∧
        s.chip.unchangedBut t.chip [.params, .sensors, .selector, .power, .port] ∧
        t.chip.params = s.chip.params.set x v ∧ (v ≠ s.chip.params.get x → t.chip.params.get x = v) ∧
        s.chip.repliedWith t.chip a ∧ a.status = (if (v : Int) = value then .done else .adjusted) ∧
        (replyAt a.result).byte 6 = identifier ∧ (replyAt a.result).byte 7 = 0 ∧
        signedAt (replyAt a.result) 8 4 v ∧
        ((x ≠ .bayFilter ∧ x ≠ .latchFilter ∨ v = s.chip.params.get x) → t.chip.sensors = s.chip.sensors) ∧
        (x = .bayFilter → v ≠ s.chip.params.bayFilter →
          (∀ b : BayId, t.chip.sensors.bayLines[b] = { s.chip.sensors.bayLines[b] with previous := none }) ∧
          t.chip.sensors = { s.chip.sensors with
            bayLines := t.chip.sensors.bayLines
            bayGroup := { s.chip.sensors.bayGroup with since := 0, fresh := !s.chip.sensors.bayGroup.due } }) ∧
        (x = .latchFilter → v ≠ s.chip.params.latchFilter →
          (∀ h, t.chip.sensors.latchLines.get h = { s.chip.sensors.latchLines.get h with previous := none }) ∧
          t.chip.sensors = { s.chip.sensors with
            latchLines := t.chip.sensors.latchLines
            latchGroup := { s.chip.sensors.latchGroup with since := 0, fresh := !s.chip.sensors.latchGroup.due } }) ∧
        (x ≠ .pPlantMax → t.chip.power = s.chip.power ∧ t.chip.selector = s.chip.selector) ∧
        (x = .pPlantMax → ∀ taken : Int, taken = max (-(v : Int)) (min s.chip.power.setpoint v) →
          ((v = s.chip.params.pPlantMax ∨ taken = s.chip.power.setpoint) →
            t.chip.power = s.chip.power ∧ t.chip.selector = s.chip.selector) ∧
          (v ≠ s.chip.params.pPlantMax → taken ≠ s.chip.power.setpoint → s.chip.setpointTaken t.chip taken))) ∧
    (∀ x (h : HoistId), hoistParamOf identifier = some x → hoist = h.val →
      x.treatment.apply ((s.chip.hp h).range x) value = some v → (x = .gear ∨ (s.chip.hoist h).phase = .idle) →
      ∃ t a, exec (.setParam identifier hoist value) s = .next t ∧ t.pending = s.pending ∧
        s.chip.unchangedBut t.chip [.hoistParams, .units, .hoists, .power, .port] ∧
        (∀ k, k ≠ h → t.chip.hp k = s.chip.hp k) ∧ s.chip.otherUnitsSame t.chip h ∧ s.chip.otherHoistsSame t.chip h ∧
        s.chip.repliedWith t.chip a ∧
        a.status = (if ((t.chip.hp h).get x : Int) = value ∧ (x = .den → (t.chip.hp h).num = (s.chip.hp h).num) then
          .done else .adjusted) ∧
        (replyAt a.result).byte 6 = identifier ∧ (replyAt a.result).byte 7 = h.val ∧
        signedAt (replyAt a.result) 8 4 ((t.chip.hp h).get x) ∧
        (x ≠ .num → (t.chip.hp h).get x = v) ∧
        (∀ y, y ≠ x → y ≠ .num → ¬(x = .vRated ∧ (y = .vReposition ∨ y = .vTransfer)) →
          (t.chip.hp h).get y = (s.chip.hp h).get y) ∧
        (x = .vRated → (t.chip.hp h).vReposition = min (s.chip.hp h).vReposition v ∧
          (t.chip.hp h).vTransfer = min (s.chip.hp h).vTransfer v) ∧
        (x ≠ .num → x ≠ .den → (t.chip.hp h).num = (s.chip.hp h).num) ∧
        ((x = .num ∨ x = .den) → ∀ n den, n = (if x = .num then v else (s.chip.hp h).num) → den = (t.chip.hp h).den →
          (16 * den < n → (t.chip.hp h).num = 16 * den) ∧
          (n ≤ 16 * den → 1024 * n < den →
            den ≤ 1024 * (t.chip.hp h).num ∧ 1024 * (t.chip.hp h).num < den + 1024) ∧
          (n ≤ 16 * den → den ≤ 1024 * n → (t.chip.hp h).num = n)) ∧
        (((t.chip.hp h).num = (s.chip.hp h).num ∧ (t.chip.hp h).den = (s.chip.hp h).den ∧
            (t.chip.hp h).zHead = (s.chip.hp h).zHead) →
          t.chip.units = s.chip.units ∧ t.chip.hoists = s.chip.hoists) ∧
        (((t.chip.hp h).num ≠ (s.chip.hp h).num ∨ (t.chip.hp h).den ≠ (s.chip.hp h).den ∨
            (t.chip.hp h).zHead ≠ (s.chip.hp h).zHead) →
          t.chip.unit h = { s.chip.unit h with referenced := false, markers := [], missRun := 0 } ∧
          t.chip.hoist h = { s.chip.hoist h with able := false }) ∧
        ((t.chip.hp h).pRated = (s.chip.hp h).pRated → t.chip.power = s.chip.power) ∧
        ((t.chip.hp h).pRated ≠ (s.chip.hp h).pRated → t.chip.power = { s.chip.power with
          share := sharesOf s.chip.power.setpoint.natAbs s.chip.power.eligible
            (Quad.tab fun k => (t.chip.hp k).pRated)
          total := sumQuad t.chip.power.share
          unserved := s.chip.power.setpoint.natAbs - t.chip.power.total }))

/-- What hoist commands are refused by: HOLD_HOIST, ENABLE_HOIST, RESUME, REFERENCE_HOIST and SET_PARAM by RANGE first (R74, R108, R110,
R168, R187); RESUME by STATE, and for ALL by STOPPED or STATE (R108), with ALL carried out otherwise; REFERENCE_HOIST by STATE, UNREACHABLE
and LOCKED in that order (R74); SET_PARAM of a hoist's parameter by RANGE before LOCKED (R169). What the others are refused by stands with
each of them. -/
def Obligations.HoistCommandsRefuse : Prop :=
  ∀ (s : State) (h : HoistId) (b : BayId) (number n identifier : Nat) (value : Int) (x : HoistParam),
    (s.Hands (.holdHoist number n) → (3 < number ∨ 2 < n) →
      ∃ t, exec (.holdHoist number n) s = .next t ∧ s.chip.repliedWith t.chip (refuse .range)) ∧
    (s.Hands (.enableHoist number n) → (3 < number ∨ 1 < n) →
      ∃ t, exec (.enableHoist number n) s = .next t ∧ s.chip.repliedWith t.chip (refuse .range)) ∧
    (s.Hands (.resume number) → 3 < number → number ≠ 255 →
      ∃ t, exec (.resume number) s = .next t ∧ s.chip.repliedWith t.chip (refuse .range)) ∧
    (s.Hands (.referenceHoist number n) → (3 < number ∨ 63 < n) →
      ∃ t, exec (.referenceHoist number n) s = .next t ∧ s.chip.repliedWith t.chip (refuse .range)) ∧
    (s.Hands (.setParam identifier number value) → plantParamOf identifier = none →
      (hoistParamOf identifier = none ∨ 3 < number) →
      ∃ t, exec (.setParam identifier number value) s = .next t ∧ s.chip.repliedWith t.chip (refuse .range)) ∧
    (∀ y, s.Hands (.setParam identifier number value) → plantParamOf identifier = some y →
      y.treatment.apply (s.chip.plantRange y) value = none →
      ∃ t, exec (.setParam identifier number value) s = .next t ∧ s.chip.repliedWith t.chip (refuse .range)) ∧
    (s.Hands (.resume h.val) → (s.chip.interlock = .opened ∨ (s.chip.link h).state ≠ .up ∨
        (s.chip.hoist h).phase ≠ .halted) →
      ∃ t, exec (.resume h.val) s = .next t ∧ s.chip.repliedWith t.chip (refuse .state)) ∧
    (s.Hands (.resume 255) → ∃ t, exec (.resume 255) s = .next t ∧
      (s.chip.interlock = .opened → s.chip.repliedWith t.chip (refuse .stopped)) ∧
      (s.chip.interlock = .closed →
        (∀ k, (s.chip.hoist k).phase ≠ .halted ∨ (s.chip.link k).state ≠ .up) →
        s.chip.repliedWith t.chip (refuse .state)) ∧
      (s.chip.interlock = .closed → (s.chip.hoist h).phase = .halted → (s.chip.link h).state = .up →
        ∃ a, s.chip.repliedWith t.chip a ∧ a.status = .done)) ∧
    (s.Hands (.referenceHoist h.val b.val) → ∃ t, exec (.referenceHoist h.val b.val) s = .next t ∧
      ((s.chip.bay b).state = .unsurveyed → s.chip.repliedWith t.chip (refuse .state)) ∧
      ((s.chip.bay b).state ≠ .unsurveyed → s.chip.reaches h b = false →
        s.chip.repliedWith t.chip (refuse .unreachable)) ∧
      ((s.chip.bay b).state ≠ .unsurveyed → s.chip.reaches h b = true → (s.chip.hoist h).phase ≠ .idle →
        (s.chip.hoist h).phase ≠ .faulted → s.chip.repliedWith t.chip (refuse .locked))) ∧
    (s.Hands (.setParam identifier h.val value) → hoistParamOf identifier = some x →
      ∃ t, exec (.setParam identifier h.val value) s = .next t ∧
        (x.treatment.apply ((s.chip.hp h).range x) value = none → s.chip.repliedWith t.chip (refuse .range)) ∧
        (∀ v, x.treatment.apply ((s.chip.hp h).range x) value = some v → x ≠ .gear → (s.chip.hoist h).phase ≠ .idle →
          s.chip.repliedWith t.chip (refuse .locked)))

/-! ### RESTART -/

/-- RESTART is handed to its six owners, with no reply yet; the Order Queue empties its list, uncounted, and the Power Allocator sets the
setpoint to 0 (R189, R136, R154). Each has then taken it: while another of the six is still to, no reply begins, and the last sends it, DONE
with the tallies. That a hoist's mode change requests wait in order is the model's choice (log 33). -/
def Obligations.RestartReachesItsOwners : Prop :=
  ∀ (s : State),
    (s.Hands .restart → ∃ t, exec .restart s = .next t ∧ t.pending = s.pending ∧
      s.chip.unchangedBut t.chip [.port] ∧ t.chip.port = { s.chip.port with
        restart := some { queueDue := true, powerDue := true, hoistDue := Quad.all true, discarded := 0,
                          stagedDropped := 0, abandoned := 0, waiting := 0, halted := 0 } }) ∧
    (∀ w, s.chip.Kept → s.chip.port.restart = some w → w.queueDue = true →
      ∃ t, exec .restartOrderQueue s = .next t ∧ t.pending = s.pending ∧ s.chip.unchangedBut t.chip [.orders, .port] ∧
        t.chip.orders = { s.chip.orders with queue := [] } ∧
        ((w.powerDue = true ∨ ∃ h, w.hoistDue.get h = true) →
          t.chip.port.restart = some { w with
            queueDue := false, discarded := w.discarded + s.chip.orders.queue.length } ∧
          t.chip.port.sending = s.chip.port.sending) ∧
        (w.powerDue = false → (∀ h, w.hoistDue.get h = false) → s.chip.restartAnswered t.chip { w with
          queueDue := false, discarded := w.discarded + s.chip.orders.queue.length })) ∧
    (∀ w, s.chip.Kept → s.chip.port.restart = some w → w.powerDue = true →
      ∃ t, exec .restartPowerAllocator s = .next t ∧ t.pending = s.pending ∧
        s.chip.unchangedBut t.chip [.selector, .power, .port] ∧ s.chip.setpointTaken t.chip 0 ∧
        t.chip.power.setpoint = 0 ∧ t.chip.power.mode = .standby ∧ (∀ h, t.chip.power.share.get h = 0) ∧
        t.chip.power.total = 0 ∧ t.chip.power.unserved = 0 ∧
        (s.chip.power.mode ≠ .standby → t.chip.selector.request = true ∧ ∀ h,
          t.chip.power.modeRequests.get h = s.chip.power.modeRequests.get h ++ [.standby]) ∧
        ((w.queueDue = true ∨ ∃ h, w.hoistDue.get h = true) →
          t.chip.port.restart = some { w with powerDue := false } ∧ t.chip.port.sending = s.chip.port.sending) ∧
        (w.queueDue = false → (∀ h, w.hoistDue.get h = false) →
          s.chip.restartAnswered t.chip { w with powerDue := false }))

/-- A Hoist Controller takes RESTART (R113): the staged trip is dropped, a loaded one under way is HALTED with cause RESTART, the hold mode
becomes NONE, an empty one is abandoned or waits for the latch with its order to be discarded (R136); the last of the six sends the reply,
DONE with the five tallies (R189). That NO_BAY is kept for a trip HALTED before is the model's reading (log 27) and that it becomes no with
the end of a trip too (log 11), as are the count of a trip whose withdrawal was already under way (log 28), the fate of the order held in
the withdrawal (log 12), and the latch command of a trip abandoned at once from ENGAGE, or HALTED or FAULTED from it (log 40). That a hoist
HALTED with cause RESTART before, whose empty trip waits for its latch, is not in the tally of those left HALTED is its choice (log 45), and
so is that the tallies count what the hoist holds when it takes RESTART (log 47). -/
def Obligations.RestartHoistCompletes : Prop :=
  ∀ (s : State) (h : HoistId) (w : RestartWork), s.chip.Kept → s.chip.port.restart = some w →
    w.hoistDue.get h = true →
    ∃ t, exec (.restartHoist h) s = .next t ∧ t.pending = s.pending ∧
      s.chip.unchangedBut t.chip [.masses, .bays, .hoists, .selector, .orders, .power, .port] ∧
      s.chip.otherHoistsSame t.chip h ∧ (t.chip.hoist h).staged = none ∧ (t.chip.hoist h).holdMode = .none ∧
      t.chip.orders.dropped = s.chip.orders.dropped ∧ t.chip.orders.queue = s.chip.orders.queue ∧
      (t.chip.hoist h).latchLevel = (s.chip.hoist h).latchLevel ∧
      (t.chip.hoist h).lateApproach = (s.chip.hoist h).lateApproach ∧
      (∀ tr, (s.chip.hoist h).active = some tr → tr.leg = .loaded →
        ((s.chip.hoist h).phase = .travel ∨ (s.chip.hoist h).phase = .dwell ∨ (s.chip.hoist h).phase = .approach ∨
          (s.chip.hoist h).phase = .release) →
        (t.chip.hoist h).phase = .halted ∧ (t.chip.hoist h).brake = .set ∧ (t.chip.hoist h).speedRef = 0 ∧
        (t.chip.hoist h).active =
          some { tr with resumePhase := some (s.chip.hoist h).phase, haltCause := some .restart }) ∧
      (∀ tr, (s.chip.hoist h).active = some tr → tr.leg = .loaded → (s.chip.hoist h).phase = .halted →
        (t.chip.hoist h).phase = .halted ∧ (t.chip.hoist h).active = some { tr with haltCause := some .restart } ∧
        (t.chip.hoist h).noBay = (s.chip.hoist h).noBay) ∧
      (∀ tr, (s.chip.hoist h).active = some tr → tr.leg = .empty → (s.chip.hoist h).withdrawal = .none →
        (s.chip.hoist h).waitsForLatch = false → (t.chip.mass tr.mass).state = .parked ∧
        ((s.chip.hoist h).staged = none → s.chip.emptyEnded t.chip h) ∧ (t.chip.hoist h).active = none) ∧
      (∀ tr, (s.chip.hoist h).active = some tr → tr.leg = .empty → (s.chip.hoist h).withdrawal = .none →
        (s.chip.hoist h).waitsForLatch = true → (t.chip.hoist h).active = some tr ∧
        (t.chip.hoist h).phase = (s.chip.hoist h).phase ∧ (t.chip.hoist h).latchCommand = .opened ∧
        (t.chip.hoist h).withdrawal = .abandon .discarded ∧ t.chip.held h .active = s.chip.held h .active) ∧
      (∀ tr fate, (s.chip.hoist h).active = some tr → tr.leg = .empty →
        (s.chip.hoist h).withdrawal = .abandon fate → (t.chip.hoist h).active = some tr ∧
        (t.chip.hoist h).withdrawal = .abandon .discarded) ∧
      (∀ tr, (s.chip.hoist h).active = some tr → tr.leg = .empty → (s.chip.hoist h).withdrawal = .mismatch →
        (t.chip.hoist h).active = some tr ∧ (t.chip.hoist h).withdrawal = .mismatch) ∧
      ∀ (empty : Bool) (now : RestartWork),
        empty = ((s.chip.hoist h).active.any fun tr => decide (tr.leg = .empty)) →
        now = { w with
          hoistDue := w.hoistDue.set h false
          stagedDropped := w.stagedDropped + (if (s.chip.hoist h).staged = none then 0 else 1)
          abandoned := w.abandoned + (if empty = true then 1 else 0)
          waiting := w.waiting + (if empty = true ∧ ((s.chip.hoist h).withdrawal ≠ .none ∨
            (s.chip.hoist h).waitsForLatch = true) then 1 else 0)
          halted := w.halted + (if (s.chip.hoist h).loaded = true ∧ ((s.chip.hoist h).phase = .travel ∨
            (s.chip.hoist h).phase = .dwell ∨ (s.chip.hoist h).phase = .approach ∨
            (s.chip.hoist h).phase = .release ∨ (s.chip.hoist h).phase = .halted) then 1 else 0) } →
        ((w.queueDue = true ∨ w.powerDue = true ∨ ∃ k, k ≠ h ∧ w.hoistDue.get k = true) →
          t.chip.port.sending = s.chip.port.sending ∧ t.chip.port.restart = some now) ∧
        (w.queueDue = false → w.powerDue = false → (∀ k, k ≠ h → w.hoistDue.get k = false) →
          s.chip.restartAnswered t.chip now)

/-! ### The Trip Selector -/

/-- A serving begins with the waiting hoists in round-robin order from the hoist after the pointer (R127). -/
def Obligations.ServingStartFormsTheList : Prop :=
  ∀ s : State, s.chip.Kept → s.chip.selector.request = true → s.chip.selector.serving = [] →
    ∃ t, exec .servingStart s = .next t ∧ t.pending = s.pending ∧ s.chip.unchangedBut t.chip [.selector, .port] ∧
      s.chip.portReported t.chip ∧ t.chip.selector = { s.chip.selector with
        request := false
        serving := [s.chip.selector.pointer + 1, s.chip.selector.pointer + 2, s.chip.selector.pointer + 3,
          s.chip.selector.pointer].filter fun h => (s.chip.hoist h).able }

/-- A try for the next hoist of the list (R127 to R132): the hoist leaves the list; one no longer waiting is passed over; the oldest order
that fits is staged, held and out of the list; with none that fits, CHARGE and DISCHARGE make the automatic choice of R130 and R131, and
STANDBY none. A trip that enters the active slot is in ENGAGE or TRAVEL by R91. -/
def Obligations.TryStagesTheOldestFittingOrder : Prop :=
  ∀ (s : State) (h : HoistId) (rest : List HoistId), s.chip.Kept → s.chip.selector.serving = h :: rest →
    ∃ t, exec .tryHoist s = .next t ∧ t.pending = s.pending ∧ t.chip.selector.serving = rest ∧
      s.chip.unchangedBut t.chip [.masses, .bays, .hoists, .selector, .orders, .power, .port] ∧
      s.chip.otherHoistsSame t.chip h ∧
      ((s.chip.hoist h).able = false → s.chip.unchangedBut t.chip [.selector, .port] ∧
        s.chip.portReported t.chip ∧ t.chip.selector = { s.chip.selector with serving := rest }) ∧
      (∀ older (o : Order) younger (source : BayId), (s.chip.hoist h).able = true →
        s.chip.orders.queue = older ++ o :: younger → (∀ x ∈ older, s.chip.orderFits h x = false) →
        s.chip.orderFits h o = true → (s.chip.mass o.mass).bay = some source →
        t.chip.orders.queue = older ++ younger ∧
        t.chip.held h (if (s.chip.hoist h).phase = .idle then .active else .staged) = some o ∧
        s.chip.tripStaged t.chip h { kind := .directed, mass := o.mass, source := source, destination := o.destination,
                                     leg := .empty
                                     direction := if s.chip.elevationOf source < s.chip.elevationOf o.destination then
                                       .up else .down
                                     orderTag := some o.tag, measured := none, retargets := 0, resumePhase := none
                                     haltCause := none }) ∧
      ((s.chip.hoist h).able = true → (∀ o ∈ s.chip.orders.queue, s.chip.orderFits h o = false) →
        (s.chip.power.mode = .standby ∨ (∀ m b, ¬s.chip.mayLoad h m b) ∨ (∀ b, ¬s.chip.mayReceive h b) →
          s.chip.unchangedBut t.chip [.selector, .port] ∧ s.chip.portReported t.chip ∧
          t.chip.selector = { s.chip.selector with serving := rest }) ∧
        (∀ (m : MassId) (source destination : BayId) (low high : Nat), s.chip.power.mode ≠ .standby →
          s.chip.automaticPair h m source destination →
          low = s.chip.elevationOf (if s.chip.power.mode = .charge then source else destination) →
          high = s.chip.elevationOf (if s.chip.power.mode = .charge then destination else source) →
          (high < low + s.chip.params.minLift → s.chip.unchangedBut t.chip [.selector, .port] ∧
            s.chip.portReported t.chip ∧ t.chip.selector = { s.chip.selector with serving := rest }) ∧
          (low + s.chip.params.minLift ≤ high → t.chip.orders = s.chip.orders ∧
            s.chip.tripStaged t.chip h { kind := if s.chip.power.mode = .charge then .charge else .discharge, mass := m
                                         source := source, destination := destination, leg := .empty
                                         direction := if s.chip.power.mode = .charge then .up else .down
                                         orderTag := none, measured := none, retargets := 0, resumePhase := none
                                         haltCause := none })))

/-! ### Clock and lines -/

/-- MILLISECOND_MARK numbers the next mark, samples the interlock by the table of R57, counts a second mark at every 1,000th for the
running timers, finds the sample instants of the filter groups that fall on it (R53 to R56) and the segment events (R50), counts for the
frame and the replies in progress (R182, R197), and changes no other record but the brake, set by an acceptance of open (R49, R51, R57,
R93). That it waits for the events bound to the present mark is the model's reading (log 2), as are the acceptance at the 1,000th sample
being an event of its own (log 7) and the brake at the end of the event (log 9). -/
def Obligations.MillisecondMarkCompletes : Prop :=
  ∀ (s : State) (line : Interlock), s.chip.Kept → s.chip.settled = true →
    ∃ t, exec (.millisecondMark line) s = .next t ∧ t.pending = s.pending ∧
      s.chip.unchangedBut t.chip [.sensors, .hoists, .links, .port] ∧
      t.chip.sensors.mark = s.chip.sensors.mark + 1 ∧
      t.chip.sensors.bayLines = s.chip.sensors.bayLines ∧ t.chip.sensors.latchLines = s.chip.sensors.latchLines ∧
      (s.chip.sensors.qualifier = .opened → line = .opened →
        t.chip.sensors.qualifier = .opened ∧ t.chip.sensors.closing = s.chip.sensors.closing) ∧
      (s.chip.sensors.qualifier = .opened → line = .closed →
        t.chip.sensors.qualifier = .qualifying ∧ t.chip.sensors.closing = 1) ∧
      (s.chip.sensors.qualifier = .qualifying → line = .opened →
        t.chip.sensors.qualifier = .opened ∧ t.chip.sensors.closing = 0) ∧
      (s.chip.sensors.qualifier = .qualifying → line = .closed →
        t.chip.sensors.qualifier = .qualifying ∧ t.chip.sensors.closing = s.chip.sensors.closing + 1) ∧
      (s.chip.sensors.qualifier = .closed → line = .opened →
        t.chip.sensors.qualifier = .opened ∧ t.chip.sensors.closing = 0) ∧
      (s.chip.sensors.qualifier = .closed → line = .closed →
        t.chip.sensors.qualifier = .closed ∧ t.chip.sensors.closing = s.chip.sensors.closing) ∧
      s.chip.sensors.bayGroup.markCounted t.chip.sensors.bayGroup s.chip.params.bayFilter ∧
      s.chip.sensors.latchGroup.markCounted t.chip.sensors.latchGroup s.chip.params.latchFilter ∧
      (∀ h, t.chip.link h = { s.chip.link h with
        gap := if (s.chip.link h).buffer = [] then (s.chip.link h).gap else (s.chip.link h).gap + 1 }) ∧
      t.chip.port = { s.chip.port with
        gap := if s.chip.port.buffer = [] then s.chip.port.gap else s.chip.port.gap + 1 } ∧
      (∀ h, (t.chip.hoist h).phaseTimer = (if (s.chip.sensors.mark + 1) % 1000 = 0 then
          (s.chip.hoist h).phaseTimer.map fun x => { x with counted := x.counted + 1 }
        else (s.chip.hoist h).phaseTimer)) ∧
      (∀ h, (t.chip.hoist h).dwellTimer = (if (s.chip.sensors.mark + 1) % 1000 = 0 then
          (s.chip.hoist h).dwellTimer.map fun x => { x with counted := x.counted + 1 }
        else (s.chip.hoist h).dwellTimer)) ∧
      (∀ h, t.chip.hoist h = { s.chip.hoist h with
        brake := (t.chip.hoist h).brake, speedRef := (t.chip.hoist h).speedRef
        phaseTimer := (t.chip.hoist h).phaseTimer, dwellTimer := (t.chip.hoist h).dwellTimer
        segmentDue := (t.chip.hoist h).segmentDue, segmentAhead := (t.chip.hoist h).segmentAhead }) ∧
      (t.chip.interlock = s.chip.interlock → ∀ h, (t.chip.hoist h).brake = (s.chip.hoist h).brake ∧
        (t.chip.hoist h).speedRef = (s.chip.hoist h).speedRef) ∧
      (t.chip.interlock = .opened → ∀ h, (t.chip.hoist h).brake = .set ∧ (t.chip.hoist h).speedRef = 0) ∧
      (∀ h : HoistId, (s.chip.hoist h).segmentAhead = false → (s.chip.hoist h).segmentDue = false →
        ((t.chip.hoist h).segmentDue = true ↔ (s.chip.sensors.mark + 1) % 50 = 12 * h.val))

/-- SEGMENT_EVENT closes the segment by the link states of R159, with the LINK fault of an UP link that it makes LOST (R160), computes the
position with its count of values out of range (R72), moves v_lim, and sends a reference message with the reference, brake and
latch commands the hoist then holds, the reference never above v_lim (R50, R72, R73, R146, R157); it makes the overspeed check (R162), the
marker checks of a referenced hoist (R80, R81) and the clear-height check (R41), and finds the served power (R148). No other hoist's
controller, unit or link is touched. That LINK_TIMEOUT may close the segment ahead is the model's reading (log 6), as are the brake and
the stopped reference at the end of the event (log 9), the pass over the markers that ends with the fault (log 15), and the event's place
about its mark (log 2). That the message carries what the event itself computes, also after a stop by an abandonment that promotes a trip
(R152), is its choice (log 38), and so are the reference 0 that the check speed takes where no message has been sent (log 44) and that a
hoist is eligible for served power by the Power Allocator's set as it stands (log 46). -/
def Obligations.SegmentEventCompletes : Prop :=
  ∀ (s : State) (h : HoistId), s.chip.Kept → s.chip.segmentOpen h = true →
    ∃ t, exec (.segmentEvent h) s = .next t ∧ t.pending = s.pending ∧
      s.chip.unchangedBut t.chip [.masses, .bays, .units, .hoists, .selector, .orders, .power, .links, .port] ∧
      s.chip.otherUnitsSame t.chip h ∧ s.chip.otherLinksSame t.chip h ∧ s.chip.otherHoistsSame t.chip h ∧
      (s.chip.link h).segmentClosed (t.chip.link h) s.chip.params.linkTimeout ∧
      ((t.chip.link h).state ≠ .up →
        (t.chip.hoist h).able = false ∧ (t.chip.hoist h).brake = .set ∧ (t.chip.hoist h).speedRef = 0) ∧
      ((t.chip.link h).state = .lost → t.chip.port.attention.linkLost = true) ∧
      (s.chip.timeoutReached h = true → (s.chip.hoist h).phase ≠ .idle → (t.chip.hoist h).phase = .faulted ∧
        ((s.chip.hoist h).phase ≠ .faulted → (t.chip.hoist h).staged = none ∧
          (t.chip.hoist h).fault.first = some .link ∧ (t.chip.hoist h).fault.detail = none ∧
          (t.chip.hoist h).fault.phaseAt = some (s.chip.hoist h).workPhase ∧
          (t.chip.hoist h).fault.count = satInc 255 (s.chip.hoist h).fault.count) ∧
        ((s.chip.hoist h).phase = .faulted → (t.chip.hoist h).fault.first = (s.chip.hoist h).fault.first ∧
          ∃ set, (t.chip.hoist h).fault.further = some set ∧ set.getLsbD FaultCause.link.code = true)) ∧
      (t.chip.link h).sent = some { hoist := h, speed := (t.chip.hoist h).speedRef, brake := (t.chip.hoist h).brake,
                                    latch := (t.chip.hoist h).latchCommand } ∧
      (t.chip.unit h).previousCount = (s.chip.unit h).count ∧ (t.chip.unit h).illegal = 0 ∧
      (t.chip.unit h).elevation = s.chip.elevationAt h (s.chip.unit h).count ∧
      (t.chip.unit h).speed = ((s.chip.elevationAt h (s.chip.unit h).count : Int) -
        s.chip.elevationAt h (s.chip.unit h).previousCount) * 20 ∧
      (∀ (rope exact : Int), rope = ropeLength (s.chip.hp h) (s.chip.unit h).count →
        exact = (s.chip.hp h).zHead - rope - stretch (s.chip.hp h) (s.chip.loadM h) rope + (s.chip.unit h).offset →
        (t.chip.unit h).rangeCount = if exact < 0 ∨ 1048575 < exact then satInc16 (s.chip.unit h).rangeCount else
          (s.chip.unit h).rangeCount) ∧
      t.chip.unit h = { s.chip.unit h with
        previousCount := (t.chip.unit h).previousCount, illegal := 0, elevation := (t.chip.unit h).elevation
        speed := (t.chip.unit h).speed, rangeCount := (t.chip.unit h).rangeCount
        referenced := (t.chip.unit h).referenced, markers := (t.chip.unit h).markers
        missRun := (t.chip.unit h).missRun, missedMarkers := (t.chip.unit h).missedMarkers } ∧
      (t.chip.hoist h).vLim = max (s.chip.hp h).gearLimit ((s.chip.hoist h).speedRef.natAbs - (s.chip.hp h).aStep) ∧
      (t.chip.hoist h).speedRef.natAbs ≤ (t.chip.hoist h).vLim ∧
      (t.chip.hoist h).shareRead = s.chip.power.share.get h ∧
      (t.chip.hoist h).served = (if s.chip.power.eligible.get h = true then
        t.chip.loadM h * s.chip.params.gravity * (t.chip.hoist h).speedRef.natAbs / 1000000000 else 0) ∧
      (∀ check : Nat, check = max ((s.chip.link h).sent.elim 0 fun m => m.speed.natAbs)
          ((s.chip.hoist h).checkSpeed - max 1 ((s.chip.hp h).accel * 50 / 1000)) →
        (t.chip.hoist h).checkSpeed = check ∧
        (t.chip.hoist h).overspeedRun = (if check + (s.chip.hp h).overspeedMargin < (t.chip.unit h).speed.natAbs then
          satInc 2 (s.chip.hoist h).overspeedRun else 0)) ∧
      ((s.chip.hoist h).overspeedRun = 1 → (t.chip.hoist h).overspeedRun = 2 → (t.chip.hoist h).phase = .faulted ∧
        ((t.chip.hoist h).fault.first = some .overspeed ∨
          ∃ set, (t.chip.hoist h).fault.further = some set ∧ set.getLsbD FaultCause.overspeed.code = true) ∧
        ((s.chip.hoist h).phase ≠ .faulted → s.chip.timeoutReached h = false → (s.chip.unit h).referenced = false →
          (t.chip.hoist h).fault = { first := some .overspeed, detail := none
                                     phaseAt := some (s.chip.hoist h).workPhase, further := some 0
                                     count := satInc 255 (s.chip.hoist h).fault.count })) ∧
      (∀ tr, (s.chip.hoist h).active = some tr → tr.leg = .loaded →
        s.chip.holdsSource h .active tr.source = true → (s.chip.bay tr.source).occupant = none →
        t.chip.bay tr.source =
          if s.chip.params.clearHeight < apart (t.chip.unit h).elevation (s.chip.elevationOf tr.source) then
            { s.chip.bay tr.source with state := .barred, occupant := none, cause := some .foreign, holder := none }
          else s.chip.bay tr.source) ∧
      (s.chip.expectedMarkers h).Pairwise (· < ·) ∧
      (∀ e, e ∈ s.chip.expectedMarkers h ↔ ∃ b, (s.chip.bay b).elevation = some e ∧ s.chip.reaches h b = true) ∧
      ((s.chip.unit h).referenced = false → (t.chip.unit h).referenced = false ∧
        (t.chip.unit h).markers = (s.chip.unit h).markers ∧ (t.chip.unit h).missRun = (s.chip.unit h).missRun ∧
        (t.chip.unit h).missedMarkers = (s.chip.unit h).missedMarkers) ∧
      (∀ (after : Nat → MarkerState) (missed : Nat → Bool) (misses : List Nat),
        (s.chip.unit h).referenced = true → (s.chip.unit h).missedMarkers ≤ 65535 →
        (∀ e ∈ s.chip.expectedMarkers h, markerRule s.chip.params.slipLimit
          (s.chip.elevationAt h (s.chip.unit h).previousCount) (t.chip.unit h).elevation e
          (markerState (s.chip.unit h).markers e) (after e) (missed e)) →
        misses = (s.chip.expectedMarkers h).filter missed →
        (misses[1 - (s.chip.unit h).missRun]? = none → (t.chip.unit h).referenced = true ∧
          (∀ e, markerState (t.chip.unit h).markers e = if e ∈ s.chip.expectedMarkers h then after e else .idle) ∧
          (t.chip.unit h).missRun = (s.chip.unit h).missRun + misses.length ∧
          (t.chip.unit h).missedMarkers = min 65535 ((s.chip.unit h).missedMarkers + misses.length)) ∧
        (∀ e, misses[1 - (s.chip.unit h).missRun]? = some e → (t.chip.unit h).referenced = false ∧
          (t.chip.unit h).markers = [] ∧ (t.chip.unit h).missRun = 0 ∧
          (t.chip.unit h).missedMarkers =
            min 65535 ((s.chip.unit h).missedMarkers + (1 - (s.chip.unit h).missRun) + 1) ∧
          (t.chip.hoist h).phase = .faulted ∧
          ((s.chip.hoist h).phase ≠ .faulted → (s.chip.timeoutReached h = false ∨ (s.chip.hoist h).phase = .idle) →
            (t.chip.hoist h).fault.first = some .position ∧
            ∀ b, s.chip.namesMarker h e b → (t.chip.hoist h).fault.detail = some b.val) ∧
          ((s.chip.hoist h).phase = .faulted → (t.chip.hoist h).fault.first = (s.chip.hoist h).fault.first) ∧
          (((s.chip.hoist h).phase = .faulted ∨ s.chip.timeoutReached h = true ∧ (s.chip.hoist h).phase ≠ .idle) →
            ∃ set, (t.chip.hoist h).fault.further = some set ∧ set.getLsbD FaultCause.position.code = true)))

/-- The phase tests of a segment event (R94 to R96): TRAVEL gives way to APPROACH, ENGAGE, RELEASE or DWELL, APPROACH to ENGAGE or RELEASE
at the target, DWELL to TRAVEL on a share; in every other case the phase is kept. SEGMENT_EVENT makes them, at the elevation it finds: a
hoist that it leaves without a fault is as they leave it, an automatic loaded trip without a share having reached reference 0 where the
reference before was within a ramp step of it (R150). That a hoist which leaves DWELL makes no test of TRAVEL at that event is the model's
reading (log 23). -/
def Obligations.PhaseTestsMoveTheHoist : Prop :=
  (∀ (p : Chip) (h : HoistId) (tr : Trip) (previous : Int) (d : Nat) (stopped : Bool),
    (p.hoist h).active = some tr → d = apart (p.elevationOf (if tr.leg = .empty then tr.source else tr.destination))
      (p.unit h).elevation → stopped = decide (p.referenceFor h previous .travel = 0) →
    p.phaseMoved h tr d stopped ((p.phaseTest h previous).hoist h) ∧
    (p.phaseStays h tr d stopped → p.phaseTest h previous = p)) ∧
  ∀ (s : State) (h : HoistId) (tr : Trip), s.chip.Kept → s.chip.segmentOpen h = true →
    (s.chip.hoist h).active = some tr → ∃ t, exec (.segmentEvent h) s = .next t ∧
      ∀ (d : Nat) (stopped : Bool), (t.chip.hoist h).phase ≠ .faulted →
        d = apart (s.chip.elevationOf (if tr.leg = .empty then tr.source else tr.destination))
          (t.chip.unit h).elevation →
        stopped = decide ((s.chip.hoist h).speedRef.natAbs ≤ max 1 ((s.chip.hp h).accel * 50 / 1000)) →
        s.chip.phaseMoved h tr d stopped (t.chip.hoist h) ∧
        (s.chip.phaseStays h tr d stopped → (t.chip.hoist h).phase = (s.chip.hoist h).phase ∧
          (t.chip.hoist h).phaseTimer = (s.chip.hoist h).phaseTimer ∧
          (t.chip.hoist h).dwellTimer = (s.chip.hoist h).dwellTimer ∧
          (t.chip.hoist h).latchCommand = (s.chip.hoist h).latchCommand)

/-- The ramp of R150, case by case; the stopping cap of R149, an integer square root rounded down, with CREEP as its floor; the target speed
in TRAVEL by leg and kind (R147, R148) and in APPROACH, CREEP (R151); and the references they give there, bounded by v_lim, and 0 in every
other phase and while the brake is SET (R152). SEGMENT_EVENT computes them for the phase it leaves, and counts a late approach where the
reference before the entry into APPROACH was above CREEP (R151). That a target at z itself has the sign 0, and that a target speed of 0 is
fallen to as from either sign, is the model's reading (log 35); the reference before is that of the segment event as the event finds it. -/
def Obligations.RampAndStoppingCap : Prop :=
  (∀ (step : Nat) (capped : Bool) (r t : Int),
    (r * t < 0 → (ramp step capped r t).natAbs = r.natAbs - step ∧ 0 ≤ ramp step capped r t * r) ∧
    ((r = 0 ∨ 0 < r * t) → r.natAbs < t.natAbs →
      (ramp step capped r t).natAbs = min (r.natAbs + step) t.natAbs ∧ 0 ≤ ramp step capped r t * t) ∧
    (0 ≤ r * t → t.natAbs < r.natAbs → ramp step true r t = t ∧
      (ramp step false r t).natAbs = max (r.natAbs - step) t.natAbs ∧ 0 ≤ ramp step false r t * r) ∧
    ramp step capped r r = r ∧ (ramp step false r t - r).natAbs ≤ step) ∧
  (∀ n : Nat, isqrt n * isqrt n ≤ n ∧ n < (isqrt n + 1) * (isqrt n + 1)) ∧
  (∀ (p : Chip) (h : HoistId) (tr : Trip),
    (tr.leg = .empty → p.travelSpeed h tr = (p.hp h).vReposition) ∧
    (tr.leg = .loaded → tr.kind = .directed → p.travelSpeed h tr = (p.hp h).vTransfer) ∧
    (∀ measured, tr.leg = .loaded → tr.kind ≠ .directed → tr.measured = some measured → p.travelSpeed h tr =
      p.power.share.get h * 1000000000 / (((p.hp h).tare + measured) * p.params.gravity))) ∧
  (∀ (p : Chip) (h : HoistId) (tr : Trip) (previous : Int) (target d cap speed limit step : Nat),
    (p.hoist h).active = some tr → target = p.elevationOf (if tr.leg = .empty then tr.source else tr.destination) →
    d = apart target (p.unit h).elevation →
    cap = max (isqrt (2 * (p.hp h).accel * (d - p.params.approachDist))) (p.hp h).creep → speed = p.travelSpeed h tr →
    step = max 1 ((p.hp h).accel * 50 / 1000) →
    limit = max ((p.hp h).vRated / 2 ^ (p.hp h).gear) (previous.natAbs - step) →
    (p.brakeIn h .travel = .release → p.referenceFor h previous .travel = ramp step (decide (cap < speed)) previous
      (((target : Int) - (p.unit h).elevation).sign * (min (min speed cap) limit : Nat))) ∧
    (p.brakeIn h .approach = .release → p.referenceFor h previous .approach = ramp step false previous
      (((target : Int) - (p.unit h).elevation).sign * (min (p.hp h).creep limit : Nat))) ∧
    ∀ phase : Phase, (phase ≠ .travel ∧ phase ≠ .approach ∨ p.brakeIn h phase = .set) →
      p.referenceFor h previous phase = 0) ∧
  ∀ (s : State) (h : HoistId), s.chip.Kept → s.chip.segmentOpen h = true →
    ∃ t, exec (.segmentEvent h) s = .next t ∧
      (t.chip.hoist h).speedRef = t.chip.referenceFor h (s.chip.hoist h).speedRef (t.chip.hoist h).phase ∧
      (approachEntered (s.chip.hoist h).phase (t.chip.hoist h).phase →
        (s.chip.hp h).creep < (s.chip.hoist h).speedRef.natAbs →
        (t.chip.hoist h).lateApproach = satInc16 (s.chip.hoist h).lateApproach) ∧
      ((¬approachEntered (s.chip.hoist h).phase (t.chip.hoist h).phase ∨
          (s.chip.hoist h).speedRef.natAbs ≤ (s.chip.hp h).creep) →
        (t.chip.hoist h).lateApproach = (s.chip.hoist h).lateApproach)

/-! ### Hoist Links -/

/-- Bytes of a reply are gathered; the seventh completes it: a reply that fails its check is counted, and the first good one of a segment
is taken and moves the link state; a partial reply is discarded at its 50th mark as one that fails, and the next byte begins a new reply
(R158, R159, R197). A reply fails by its sum, its ready byte, its code or its byte 2, and else gives ready flag, code and load (R197). One
handed on with a code other than 0, or from a drive not ready in TRAVEL, APPROACH or DWELL, is a DRIVE fault with the code, 0 for the
latter, as detail (R161). That the byte's own event makes the discard where REPLY_PARTIAL_TIMEOUT has not is the model's choice (log 41).
-/
def Obligations.HoistLinkBytesAndRepliesComplete : Prop :=
  ∀ (s : State) (h : HoistId) (b : Byte), s.chip.Kept →
    (∀ bytes : List Byte, bytes.length = 7 →
      (driveReplyOf bytes = none ↔ (bytes.map BitVec.toNat).sum % 256 ≠ 0 ∨ 1 < (⟨bytes⟩ : Frame).byte 0 ∨
        15 < (⟨bytes⟩ : Frame).byte 1 ∨ (⟨bytes⟩ : Frame).byte 2 ≠ 0) ∧
      ∀ r, driveReplyOf bytes = some r → (r.ready = true ↔ (⟨bytes⟩ : Frame).byte 0 = 1) ∧
        r.code = (⟨bytes⟩ : Frame).byte 1 ∧ r.load = 65536 * (⟨bytes⟩ : Frame).byte 3 +
          256 * (⟨bytes⟩ : Frame).byte 4 + (⟨bytes⟩ : Frame).byte 5) ∧
    ((s.chip.link h).buffer.length < 6 → ((s.chip.link h).buffer = [] ∨ (s.chip.link h).gap < 50) →
      ∃ t, exec (.hoistLinkReplyByte h b) s = .next t ∧ t.pending = s.pending ∧
      s.chip.unchangedBut t.chip [.links] ∧ s.chip.otherLinksSame t.chip h ∧
      t.chip.link h = { s.chip.link h with buffer := (s.chip.link h).buffer ++ [b], gap := 0 }) ∧
    ((s.chip.link h).buffer ≠ [] → 50 ≤ (s.chip.link h).gap →
      ∃ t, exec (.hoistLinkReplyByte h b) s = .next t ∧ t.pending = s.pending ∧
        s.chip.unchangedBut t.chip [.links] ∧ s.chip.otherLinksSame t.chip h ∧ t.chip.link h =
          { s.chip.link h with buffer := [b], gap := 0, replyErrors := satInc16 (s.chip.link h).replyErrors }) ∧
    ((s.chip.link h).buffer ≠ [] → 50 ≤ (s.chip.link h).gap →
      ∃ t, exec (.replyPartialTimeout h) s = .next t ∧ t.pending = s.pending ∧
        s.chip.unchangedBut t.chip [.links] ∧ s.chip.otherLinksSame t.chip h ∧ t.chip.link h =
          { s.chip.link h with buffer := [], gap := 0, replyErrors := satInc16 (s.chip.link h).replyErrors }) ∧
    ((s.chip.link h).buffer.length = 6 → (s.chip.link h).gap < 50 →
      ∃ t, exec (.hoistLinkReply h b) s = .next t ∧ t.pending = s.pending ∧
      s.chip.unchangedBut t.chip [.masses, .bays, .hoists, .selector, .orders, .power, .links, .port] ∧
      s.chip.otherLinksSame t.chip h ∧ s.chip.otherHoistsSame t.chip h ∧
      (t.chip.link h).buffer = [] ∧ (t.chip.link h).gap = 0 ∧
      (driveReplyOf ((s.chip.link h).buffer ++ [b]) = none → s.chip.unchangedBut t.chip [.links] ∧ t.chip.link h =
        { s.chip.link h with buffer := [], gap := 0, replyErrors := satInc16 (s.chip.link h).replyErrors }) ∧
      (∀ r, driveReplyOf ((s.chip.link h).buffer ++ [b]) = some r → (s.chip.link h).segmentReply = true →
        s.chip.unchangedBut t.chip [.links] ∧ t.chip.link h = { s.chip.link h with buffer := [], gap := 0 }) ∧
      (∀ r, driveReplyOf ((s.chip.link h).buffer ++ [b]) = some r → (s.chip.link h).segmentReply = false →
        (t.chip.link h).last = some r ∧ (t.chip.link h).segmentReply = true ∧
        ((s.chip.link h).state = .down → (t.chip.link h).state = .down ∧ t.chip.hoists = s.chip.hoists) ∧
        ((s.chip.link h).state = .proving → (t.chip.link h).proving = (s.chip.link h).proving + 1 ∧
          (t.chip.link h).state = (if 4 ≤ (s.chip.link h).proving + 1 then .up else .proving)) ∧
        ((s.chip.link h).state = .up → (t.chip.link h).state = .up ∧ (t.chip.link h).missed = 0) ∧
        ((s.chip.link h).state = .lost → (t.chip.link h).state = .proving ∧ (t.chip.link h).proving = 1) ∧
        (∀ stopped : Bool, (s.chip.link h).state ≠ .down →
          stopped = decide ((s.chip.hoist h).phase ≠ .travel ∧ (s.chip.hoist h).phase ≠ .approach ∧
            (s.chip.hoist h).phase ≠ .dwell) →
          ((r.code ≠ 0 ∨ r.ready = false ∧ stopped = false) → (t.chip.hoist h).phase = .faulted ∧
            ((s.chip.hoist h).phase ≠ .faulted → (t.chip.hoist h).fault = {
              first := some .drive, detail := some r.code, phaseAt := some (s.chip.hoist h).workPhase, further := some 0
              count := satInc 255 (s.chip.hoist h).fault.count }) ∧
            ((s.chip.hoist h).phase = .faulted → (t.chip.hoist h).fault = { (s.chip.hoist h).fault with
              further := some (((s.chip.hoist h).fault.further.getD 0) ||| 2#9) })) ∧
          (r.code = 0 → (r.ready = true ∨ stopped = true) →
            (t.chip.hoist h).fault = (s.chip.hoist h).fault))))

/-- LINK_TIMEOUT makes an UP link LOST and counts it; the hoist is faulted with cause LINK unless it is IDLE (R159, R160, R165, R166).
That the closing is taken by itself is the model's reading (log 6). -/
def Obligations.LinkTimeoutCompletes : Prop :=
  ∀ (s : State) (h : HoistId), s.chip.Kept → s.chip.segmentOpen h = true → (s.chip.link h).state = .up →
    (s.chip.link h).segmentReply = false → s.chip.params.linkTimeout ≤ satInc 255 (s.chip.link h).missed →
    (s.chip.link h).closedAhead = false →
    ∃ t, exec (.linkTimeout h) s = .next t ∧ t.pending = s.pending ∧
      s.chip.unchangedBut t.chip [.masses, .bays, .hoists, .selector, .orders, .power, .links, .port] ∧
      s.chip.otherLinksSame t.chip h ∧ s.chip.otherHoistsSame t.chip h ∧
      t.chip.link h = { s.chip.link h with
        state := .lost, missed := satInc 255 (s.chip.link h).missed
        linkLosses := satInc16 (s.chip.link h).linkLosses, closedAhead := true } ∧
      (t.chip.hoist h).able = false ∧ (t.chip.hoist h).brake = .set ∧ (t.chip.hoist h).speedRef = 0 ∧
      t.chip.port.attention.linkLost = true ∧
      ((s.chip.hoist h).phase = .idle → (t.chip.hoist h).phase = .idle ∧
        (t.chip.hoist h).fault = (s.chip.hoist h).fault) ∧
      ((s.chip.hoist h).phase ≠ .idle → (s.chip.hoist h).phase ≠ .faulted →
        (t.chip.hoist h).phase = .faulted ∧ s.chip.stagedDropped t.chip h ∧
        (t.chip.hoist h).fault = { first := some .link, detail := none, phaseAt := some (s.chip.hoist h).workPhase,
                                   further := some 0, count := satInc 255 (s.chip.hoist h).fault.count } ∧
        t.chip.port.attention.faultedHoist = true) ∧
      ((s.chip.hoist h).phase = .faulted → (t.chip.hoist h).fault = { (s.chip.hoist h).fault with
        further := some (((s.chip.hoist h).fault.further.getD 0) ||| 1#9) })

/-- A good reply of a segment completes an ENGAGE by its weighing, or a RELEASE (R97 to R99, R101, R102): a staged trip is dropped under
STEP and promoted otherwise (R91), and a source still held without occupant is barred (R42). How the phase reply is kept is the model's
reading (log 10), as is that NO_BAY becomes no with the end of the trip (log 11). -/
def Obligations.RepliesCompleteEngageAndRelease : Prop :=
  ∀ (s : State) (h : HoistId) (b : Byte) (tr : Trip) (r : DriveReply) (nominal : Nat), s.chip.Kept →
    (s.chip.link h).buffer.length = 6 → (s.chip.link h).gap < 50 →
    driveReplyOf ((s.chip.link h).buffer ++ [b]) = some r → r.code = 0 → (s.chip.link h).segmentReply = false →
    (s.chip.link h).state ≠ .down → (s.chip.hoist h).active = some tr →
    (s.chip.mass tr.mass).nominal = some nominal →
    ∃ t, exec (.hoistLinkReply h b) s = .next t ∧ t.pending = s.pending ∧
      s.chip.unchangedBut t.chip [.masses, .bays, .hoists, .selector, .orders, .power, .links, .port] ∧
      s.chip.otherLinksSame t.chip h ∧ s.chip.otherHoistsSame t.chip h ∧
      ((s.chip.hoist h).phase = .engage → (s.chip.hoist h).withdrawal = .none →
        (s.chip.hoist h).latchLevel = some .closed → (s.chip.hp h).tare + nominal / 2 ≤ r.load →
        s.chip.weighingMade t.chip h tr nominal (r.load - (s.chip.hp h).tare)) ∧
      ((s.chip.hoist h).phase = .engage → r.load < (s.chip.hp h).tare + nominal / 2 →
        (t.chip.hoist h).phase = .engage ∧ (t.chip.hoist h).phaseReply = some r.load ∧
        (t.chip.hoist h).active = some tr ∧ t.chip.masses = s.chip.masses) ∧
      ((s.chip.hoist h).phase = .release → (s.chip.hoist h).latchLevel = some .opened →
        (s.chip.bay tr.destination).sensor = some .occupied → r.load ≤ (s.chip.hp h).loadEmptyMax →
        (∀ staged, (s.chip.hoist h).staged = some staged → staged.mass ≠ tr.mass) →
        s.chip.releaseMade t.chip h tr)

/-! ### The lines of the shaft -/

/-- A sample instant of a group comes about on the marks that R53 to R56 give it, or just before (log 2), and samples every line of the
group: the first sample of a line is its accepted level, a later one that differs is accepted at once with code 0 and otherwise where the
sample before it agrees; the owner's field follows (R53 to R55, R59, R60). An acceptance of OPEN on a latch line completes a withdrawal
under way (R99, R100, R103) or a RELEASE (R101, R102), and with a trip in leg LOADED outside RELEASE is a LATCH fault (R163); one of CLOSED
completes an ENGAGE by its weighing (R97 to R99); stated where it is the one change of its instant, since the order of several is the
model's choice (log 14). That the withdrawal holds the fate of the order is its reading (log 12), as is that NO_BAY becomes no with the end
of the trip (log 11). -/
def Obligations.FilterSampleInstantCompletes : Prop :=
  ∀ s : State, s.chip.Kept →
    (∀ levels : BitVec 64, s.chip.sampleOpen (.bay levels) = true ↔ s.chip.sensors.bayGroup.due = true ∨
      s.chip.sensors.bayGroup.ahead = false ∧
        s.chip.sensors.bayGroup.instantOnNextMark s.chip.params.bayFilter) ∧
    (∀ levels : BitVec 4, s.chip.sampleOpen (.latch levels) = true ↔ s.chip.sensors.latchGroup.due = true ∨
      s.chip.sensors.latchGroup.ahead = false ∧
        s.chip.sensors.latchGroup.instantOnNextMark s.chip.params.latchFilter) ∧
    (∀ levels : BitVec 64, s.chip.sampleOpen (.bay levels) = true →
      ∃ t, exec (.filterSampleInstant (.bay levels)) s = .next t ∧ t.pending = s.pending ∧
        s.chip.unchangedBut t.chip [.masses, .bays, .sensors, .hoists, .selector, .orders, .power, .port] ∧
        t.chip.sensors = { s.chip.sensors with
          bayLines := t.chip.sensors.bayLines
          bayGroup := { since := 0, fresh := false, due := false, ahead := !s.chip.sensors.bayGroup.due } } ∧
        ∀ (b : BayId) (level : Occupancy) (l : LineFilter Occupancy),
          level = (if levels.getLsbD b.val then .occupied else .empty) → l = s.chip.sensors.bayLines[b] →
          (t.chip.sensors.bayLines[b]).previous = some level ∧
          (l.accepted = none → (t.chip.sensors.bayLines[b]).accepted = some level ∧
            (t.chip.bay b).sensor = some level) ∧
          (∀ a, l.accepted = some a →
            (level ≠ a → (s.chip.params.bayFilter = 0 ∨ l.previous = some level) →
              (t.chip.sensors.bayLines[b]).accepted = some level ∧ (t.chip.bay b).sensor = some level) ∧
            ((level = a ∨ s.chip.params.bayFilter ≠ 0 ∧ l.previous ≠ some level) →
              (t.chip.sensors.bayLines[b]).accepted = some a ∧ (t.chip.bay b).sensor = (s.chip.bay b).sensor))) ∧
    (∀ levels : BitVec 4, s.chip.sampleOpen (.latch levels) = true →
      ∃ t, exec (.filterSampleInstant (.latch levels)) s = .next t ∧ t.pending = s.pending ∧
        s.chip.unchangedBut t.chip [.masses, .bays, .sensors, .hoists, .selector, .orders, .power, .port] ∧
        t.chip.sensors = { s.chip.sensors with
          latchLines := t.chip.sensors.latchLines
          latchGroup := { since := 0, fresh := false, due := false, ahead := !s.chip.sensors.latchGroup.due } } ∧
        ∀ (h : HoistId) (level : Latch) (l : LineFilter Latch),
          level = (if levels.getLsbD h.val then .closed else .opened) → l = s.chip.sensors.latchLines.get h →
          (t.chip.sensors.latchLines.get h).previous = some level ∧
          (l.accepted = none → (t.chip.hoist h).latchLevel = some level) ∧
          (∀ a, l.accepted = some a →
            (level ≠ a → (s.chip.params.latchFilter = 0 ∨ l.previous = some level) →
              (t.chip.sensors.latchLines.get h).accepted = some level ∧ (t.chip.hoist h).latchLevel = some level) ∧
            ((level = a ∨ s.chip.params.latchFilter ≠ 0 ∧ l.previous ≠ some level) →
              (t.chip.sensors.latchLines.get h).accepted = some a ∧
              (t.chip.hoist h).latchLevel = (s.chip.hoist h).latchLevel))) ∧
    (∀ (levels : BitVec 4) (h : HoistId), s.chip.sampleOpen (.latch levels) = true → levels.getLsbD h.val = false →
      (s.chip.sensors.latchLines.get h).accepted = some .closed →
      (s.chip.params.latchFilter = 0 ∨ (s.chip.sensors.latchLines.get h).previous = some .opened) →
      (∀ k, k ≠ h → (s.chip.sensors.latchLines.get k).accepted =
        some (if levels.getLsbD k.val then .closed else .opened)) →
      ∃ t, exec (.filterSampleInstant (.latch levels)) s = .next t ∧ s.chip.otherHoistsSame t.chip h ∧
        (∀ tr, (s.chip.hoist h).active = some tr → (s.chip.hoist h).withdrawal ≠ .none →
          s.chip.activeEnded t.chip h ∧ (t.chip.hoist h).phaseReply = none ∧
          ((s.chip.hoist h).withdrawal = .mismatch → t.chip.mass tr.mass =
            { s.chip.mass tr.mass with state := .parked, measured := tr.measured, weighHold := true }) ∧
          (∀ fate, (s.chip.hoist h).withdrawal = .abandon fate →
            t.chip.mass tr.mass = { s.chip.mass tr.mass with state := .parked }) ∧
          (s.chip.holdsSource h .active tr.source = true → (s.chip.bay tr.source).occupant ≠ none →
            t.chip.bay tr.source = { s.chip.bay tr.source with state := .occupied, holder := none }) ∧
          (s.chip.holdsDestination h .active tr.destination = true → (t.chip.bay tr.destination).state =
            if (s.chip.bay tr.destination).sensor = some .occupied then .barred else .opened) ∧
          ∀ o, s.chip.held h .active = some o →
            ((s.chip.hoist h).withdrawal = .mismatch → t.chip.orders.queue = s.chip.orders.queue ∧
              t.chip.orders.dropped = satInc16 s.chip.orders.dropped) ∧
            ((s.chip.hoist h).withdrawal = .abandon .discarded → t.chip.orders.queue = s.chip.orders.queue ∧
              t.chip.orders.dropped = s.chip.orders.dropped) ∧
            ((s.chip.hoist h).withdrawal = .abandon .returned →
              t.chip.orders.queue = o :: s.chip.orders.queue ∧ t.chip.orders.dropped = s.chip.orders.dropped)) ∧
        ((s.chip.hoist h).withdrawal = .none → (s.chip.hoist h).loaded = true →
          (s.chip.hoist h).workPhase ≠ .release → (t.chip.hoist h).phase = .faulted ∧
          ((s.chip.hoist h).phase ≠ .faulted → s.chip.stagedDropped t.chip h ∧
            (t.chip.hoist h).fault = { first := some .latch, detail := none
                                       phaseAt := some (s.chip.hoist h).workPhase, further := some 0
                                       count := satInc 255 (s.chip.hoist h).fault.count }) ∧
          ((s.chip.hoist h).phase = .faulted → (t.chip.hoist h).fault = { (s.chip.hoist h).fault with
            further := some (((s.chip.hoist h).fault.further.getD 0) ||| 32#9) })) ∧
        ((s.chip.hoist h).withdrawal = .none →
          ((s.chip.hoist h).loaded = false ∨ (s.chip.hoist h).workPhase = .release) →
          (t.chip.hoist h).fault = (s.chip.hoist h).fault ∧
          ((s.chip.hoist h).phase ≠ .release → s.chip.latchOnlyRecorded t.chip h .opened) ∧
          (∀ tr, (s.chip.hoist h).active = some tr → (s.chip.hoist h).phase = .release →
            (∀ load, (s.chip.hoist h).phaseReply = some load →
              (s.chip.bay tr.destination).sensor = some .occupied → load ≤ (s.chip.hp h).loadEmptyMax →
              (∀ staged, (s.chip.hoist h).staged = some staged → staged.mass ≠ tr.mass) →
              s.chip.releaseMade t.chip h tr) ∧
            (((s.chip.bay tr.destination).sensor ≠ some .occupied ∨
                ∀ load, (s.chip.hoist h).phaseReply = some load → (s.chip.hp h).loadEmptyMax < load) →
              s.chip.latchOnlyRecorded t.chip h .opened)))) ∧
    (∀ (levels : BitVec 4) (h : HoistId), s.chip.sampleOpen (.latch levels) = true → levels.getLsbD h.val = true →
      (s.chip.sensors.latchLines.get h).accepted = some .opened →
      (s.chip.params.latchFilter = 0 ∨ (s.chip.sensors.latchLines.get h).previous = some .closed) →
      (∀ k, k ≠ h → (s.chip.sensors.latchLines.get k).accepted =
        some (if levels.getLsbD k.val then .closed else .opened)) →
      ∃ t, exec (.filterSampleInstant (.latch levels)) s = .next t ∧ s.chip.otherHoistsSame t.chip h ∧
        (t.chip.hoist h).latchLevel = some .closed ∧ (t.chip.hoist h).fault = (s.chip.hoist h).fault ∧
        (((s.chip.hoist h).phase ≠ .engage ∨ (s.chip.hoist h).withdrawal ≠ .none ∨ (s.chip.hoist h).phaseReply = none) →
          s.chip.latchOnlyRecorded t.chip h .closed) ∧
        (∀ tr nominal, (s.chip.hoist h).active = some tr → (s.chip.mass tr.mass).nominal = some nominal →
          (∀ load, (s.chip.hoist h).phase = .engage → (s.chip.hoist h).withdrawal = .none →
            (s.chip.hoist h).phaseReply = some load → (s.chip.hp h).tare + nominal / 2 ≤ load →
            s.chip.weighingMade t.chip h tr nominal (load - (s.chip.hp h).tare)) ∧
          (∀ load, (s.chip.hoist h).phaseReply = some load → load < (s.chip.hp h).tare + nominal / 2 →
            s.chip.latchOnlyRecorded t.chip h .closed)))

/-- What a change of accepted level does at a bay, by its state (R17, R38 to R40), and to the trip that held the bay: loss of source (R104)
and loss of destination (R105, by slot, leg and phase). FILTER_SAMPLE_INSTANT does so where one bay's line is accepted as changed; the
order of several is the model's choice (log 14). The latch command where a trip that finds no bay is abandoned from HALTED or FAULTED is
its reading (log 40), and so are NO_BAY at an empty leg and at the end of the trip (log 11) and the fate of the order held in the
withdrawal (log 12). That a mass lost after a mismatch whose latch has not reopened keeps its measured field as it was is the model's choice
(log 43). -/
def Obligations.AcceptancesAreReconciled : Prop :=
  (∀ (p : Chip) (b : BayId),
    ((p.bay b).state = .unsurveyed ∨ (p.bay b).state = .barred → ∀ level, p.reconcile b level = p) ∧
    ((p.bay b).state = .opened → ((p.reconcile b .occupied).bay b).state = .barred ∧
      ((p.reconcile b .occupied).bay b).cause = some .foreign ∧ p.otherBaysSame (p.reconcile b .occupied) b ∧
      p.unchangedBut (p.reconcile b .occupied) [.bays]) ∧
    (∀ m, (p.bay b).state = .occupied → (p.bay b).occupant = some m → (p.mass m).state = .parked →
      ((p.reconcile b .empty).bay b).state = .barred ∧ ((p.reconcile b .empty).bay b).cause = some .lost ∧
      ((p.reconcile b .empty).bay b).occupant = none ∧
      (p.reconcile b .empty).mass m =
        { p.mass m with state := .missing, lastBay := (p.mass m).bay, bay := none } ∧
      p.otherBaysSame (p.reconcile b .empty) b ∧ p.otherMassesSame (p.reconcile b .empty) m ∧
      p.unchangedBut (p.reconcile b .empty) [.masses, .bays, .orders]) ∧
    (∀ m, (p.bay b).state = .occupied → (p.bay b).occupant = some m → (p.mass m).state = .retiring →
      ((p.reconcile b .empty).bay b).state = .opened ∧ ((p.reconcile b .empty).bay b).occupant = none ∧
      (p.reconcile b .empty).mass m = MassRecord.empty ∧ (p.reconcile b .empty).selector.request = true ∧
      p.otherBaysSame (p.reconcile b .empty) b ∧ p.otherMassesSame (p.reconcile b .empty) m ∧
      p.unchangedBut (p.reconcile b .empty) [.masses, .bays, .selector, .orders]) ∧
    ((p.bay b).state = .outbound → (p.bay b).occupant = none →
      ((p.reconcile b .empty).bay b).state = .opened ∧ ((p.reconcile b .empty).bay b).holder = none ∧
      p.unchangedBut (p.reconcile b .empty) [.bays, .selector]) ∧
    (∀ m, (p.bay b).state = .outbound → (p.bay b).occupant = some m →
      ((p.reconcile b .empty).bay b).state = .barred ∧ ((p.reconcile b .empty).bay b).cause = some .lost ∧
      ((p.reconcile b .empty).mass m).state = .missing ∧
      p.unchangedBut (p.reconcile b .empty) [.masses, .bays, .hoists, .selector, .orders]) ∧
    (∀ holder, (p.bay b).state = .inbound → (p.bay b).holder = some holder → p.releaseInProgress holder = false →
      p.reconcile b .empty = p ∧ ((p.reconcile b .occupied).bay b).state = .barred ∧
      ((p.reconcile b .occupied).bay b).cause = some .foreign ∧ ((p.reconcile b .occupied).bay b).holder = none ∧
      p.unchangedBut (p.reconcile b .occupied) [.masses, .bays, .hoists, .selector, .orders]) ∧
    (∀ holder level, (p.bay b).state = .inbound → (p.bay b).holder = some holder →
      p.releaseInProgress holder = true → p.reconcile b level = p.releaseTest holder.1) ∧
    (∀ (q : Chip) (m : MassId) (h : HoistId) (slot : Slot) (tr : Trip), q = p.reconcile b .empty →
      (p.bay b).state = .outbound → (p.bay b).occupant = some m → (p.bay b).holder = some (h, slot) →
      (slot = .staged → (p.hoist h).staged = some tr) → (slot = .active → (p.hoist h).active = some tr) →
      p.queued m = false →
      (p.holdsDestination h slot tr.destination = true → (q.bay tr.destination).state =
        if (p.bay tr.destination).sensor = some .occupied then .barred else .opened) ∧
      q.orders.queue = p.orders.queue ∧
      q.orders.dropped = (if p.held h slot = none then p.orders.dropped else satInc16 p.orders.dropped) ∧
      (slot = .staged → q.hoist h = { p.hoist h with staged := none } ∧ q.held h .staged = none) ∧
      (slot = .active → p.emptyEnded q h)) ∧
    (∀ (q : Chip) (h : HoistId) (tr : Trip), q = p.reconcile b .occupied → (p.bay b).state = .inbound →
      (p.bay b).holder = some (h, .staged) → (p.hoist h).staged = some tr →
      q.hoist h = { p.hoist h with staged := none } ∧ q.mass tr.mass = { p.mass tr.mass with state := .parked } ∧
      (p.holdsSource h .staged tr.source = true → (p.bay tr.source).occupant ≠ none →
        q.bay tr.source = { p.bay tr.source with state := .occupied, holder := none }) ∧
      q.held h .staged = none ∧
      (∀ o, p.held h .staged = some o → q.orders.queue = o :: p.orders.queue)) ∧
    (∀ (q : Chip) (h : HoistId) (tr : Trip) (zr : Nat), q = p.reconcile b .occupied → (p.bay b).state = .inbound →
      (p.bay b).holder = some (h, .active) → (p.hoist h).active = some tr → (p.hoist h).workPhase ≠ .release →
      zr = (if tr.leg = .loaded then (p.unit h).elevation else p.elevationOf tr.source) →
      p.retargetRule h zr (p.retargetBay h zr) ∧
      ((tr.leg = .empty ∨ (p.hoist h).phase = .travel ∨ (p.hoist h).phase = .dwell) →
        (∀ k, p.retargetBay h zr = some k → p.destinationTaken q h k ∧
          q.hoist h = { p.hoist h with active := some (p.retargeted tr zr k), noBay := false }) ∧
        (p.retargetBay h zr = none → tr.leg = .loaded →
          (q.hoist h).phase = .halted ∧ (q.hoist h).speedRef = 0 ∧ (q.hoist h).noBay = true ∧
          (q.hoist h).active = some { tr with resumePhase := some .travel, haltCause := some .noBay }) ∧
        (p.retargetBay h zr = none → tr.leg = .empty →
          ((p.hoist h).withdrawal ≠ .none → q.hoist h = { p.hoist h with noBay := true } ∧ q.masses = p.masses) ∧
          ((p.hoist h).withdrawal = .none → (p.hoist h).waitsForLatch = true → q.masses = p.masses ∧
            q.hoist h = { p.hoist h with
              noBay := true, latchCommand := .opened, withdrawal := .abandon .returned }) ∧
          ((p.hoist h).withdrawal = .none → (p.hoist h).waitsForLatch = false →
            p.emptyEnded q h ∧ q.mass tr.mass = { p.mass tr.mass with state := .parked } ∧
            ∀ o, p.held h .active = some o → q.orders.queue = o :: p.orders.queue))) ∧
      (tr.leg = .loaded → (p.hoist h).phase = .approach → (q.hoist h).phase = .halted ∧ (q.hoist h).speedRef = 0 ∧
        (q.hoist h).phaseTimer = none ∧
        (q.hoist h).active = some { tr with resumePhase := some .approach, haltCause := some .destLost }) ∧
      (tr.leg = .loaded → (p.hoist h).phase = .halted →
        q.hoist h = { p.hoist h with active := some { tr with haltCause := some .destLost } }) ∧
      (tr.leg = .loaded → (p.hoist h).phase = .faulted → q.hoist h = p.hoist h))) ∧
  ∀ (s : State) (levels : BitVec 64) (b : BayId) (level a : Occupancy) (q : Chip), s.chip.Kept →
    s.chip.sampleOpen (.bay levels) = true → level = (if levels.getLsbD b.val then .occupied else .empty) →
    (s.chip.sensors.bayLines[b]).accepted = some a → level ≠ a →
    (s.chip.params.bayFilter = 0 ∨ (s.chip.sensors.bayLines[b]).previous = some level) →
    (∀ k : BayId, k ≠ b → (s.chip.sensors.bayLines[k]).accepted =
      some (if levels.getLsbD k.val then .occupied else .empty)) →
    q = (s.chip.updBay b fun r => { r with sensor := some level }).reconcile b level →
    ∃ t, exec (.filterSampleInstant (.bay levels)) s = .next t ∧ t.chip.masses = q.masses ∧ t.chip.bays = q.bays ∧
      t.chip.orders = q.orders ∧ ∀ h, t.chip.hoist h = { q.hoist h with
        able := (t.chip.hoist h).able, brake := (t.chip.hoist h).brake, speedRef := (t.chip.hoist h).speedRef }

/-- The interlock: the 1,000th closed sample makes the qualifier CLOSED (R57); each hoist takes an acceptance of closed by becoming able
where it can (R61), and one of open by HALTED with cause INTERLOCK where it was working (R107). That the acceptance at the 1,000th sample
is an event of its own is the model's reading (log 7), and that each hoist takes the level at one (log 8). -/
def Obligations.InterlockEventsComplete : Prop :=
  ∀ (s : State) (h : HoistId), s.chip.Kept →
    (s.chip.sensors.qualifier = .qualifying → 1000 ≤ s.chip.sensors.closing →
      ∃ t, exec .interlockClosedAcceptance s = .next t ∧ t.pending = s.pending ∧
        s.chip.unchangedBut t.chip [.sensors, .hoists] ∧ t.chip.interlock = .closed ∧
        t.chip.sensors = { s.chip.sensors with qualifier := .closed, closing := 0 } ∧
        ∀ k, (t.chip.hoist k).phase = (s.chip.hoist k).phase ∧ (t.chip.hoist k).able = (s.chip.hoist k).able) ∧
    (s.chip.interlock = .closed → (s.chip.hoist h).interlockSeen = .opened →
      ∃ t, exec (.interlockClosedTaken h) s = .next t ∧ t.pending = s.pending ∧
        s.chip.unchangedBut t.chip [.hoists, .selector] ∧ s.chip.otherHoistsSame t.chip h ∧
        t.chip.hoist h = { s.chip.hoist h with interlockSeen := .closed, able := t.chip.ableLaw h } ∧
        t.chip.selector.request =
          (s.chip.selector.request || ((t.chip.hoist h).able && !(s.chip.hoist h).able))) ∧
    (s.chip.interlock = .opened → (s.chip.hoist h).interlockSeen = .closed →
      ∃ t, exec (.interlockHalt h) s = .next t ∧ t.pending = s.pending ∧
        s.chip.unchangedBut t.chip [.hoists, .power, .port] ∧ s.chip.otherHoistsSame t.chip h ∧
        (t.chip.hoist h).interlockSeen = .opened ∧ (t.chip.hoist h).able = false ∧
        (t.chip.hoist h).latchCommand = (s.chip.hoist h).latchCommand ∧
        (t.chip.hoist h).withdrawal = (s.chip.hoist h).withdrawal ∧
        (t.chip.hoist h).staged = (s.chip.hoist h).staged ∧
        (((s.chip.hoist h).phase = .idle ∨ (s.chip.hoist h).phase = .halted ∨ (s.chip.hoist h).phase = .faulted) →
          (t.chip.hoist h).phase = (s.chip.hoist h).phase ∧ (t.chip.hoist h).active = (s.chip.hoist h).active) ∧
        (∀ tr, (s.chip.hoist h).active = some tr →
          ((s.chip.hoist h).phase = .travel ∨ (s.chip.hoist h).phase = .approach ∨ (s.chip.hoist h).phase = .dwell ∨
            (s.chip.hoist h).phase = .engage ∨ (s.chip.hoist h).phase = .release) →
          (t.chip.hoist h).phase = .halted ∧ (t.chip.hoist h).speedRef = 0 ∧ (t.chip.hoist h).brake = .set ∧
          (t.chip.hoist h).phaseTimer = none ∧ (t.chip.hoist h).dwellTimer = none ∧
          (t.chip.hoist h).active =
            some { tr with resumePhase := some (s.chip.hoist h).phase, haltCause := some .interlock } ∧
          t.chip.port.attention.haltedHoist = true))

/-- ENCODER_EDGE counts a step forward or backward along the cycle, holds the count at the ends of its range (R66), and counts an illegal
transition, the second of which in a segment is an ENCODER fault (R64, R65). MARKER_PULSE is ignored, or warns of a slip where no marker is
expected (R77); else the nearest marker's deviation corrects the offset, warns of a slip, or is a POSITION fault, by the table of R78 and
the drift test of R79. That such a fault leaves every marker IDLE, the one met among them, is the model's reading (log 30); that a hoist to
which no message has been sent has reference 0 where its moving is judged is its choice (log 44). -/
def Obligations.EncoderAndMarkerEventsComplete : Prop :=
  ∀ (s : State) (h : HoistId) (levels : Channels), s.chip.Kept →
    (∀ before after : Channels,
      (transitionOf before after = .forward ↔ (before, after) ∈ [(⟨false, false⟩, ⟨true, false⟩),
        (⟨true, false⟩, ⟨true, true⟩), (⟨true, true⟩, ⟨false, true⟩), (⟨false, true⟩, ⟨false, false⟩)]) ∧
      (transitionOf before after = .backward ↔ transitionOf after before = .forward)) ∧
    (s.chip.moving h = true ↔ (∃ m, (s.chip.link h).sent = some m ∧ m.speed ≠ 0) ∨ (s.chip.unit h).speed ≠ 0) ∧
    (∃ t, exec (.encoderEdge h levels) s = .next t ∧ t.pending = s.pending ∧
      s.chip.unchangedBut t.chip [.masses, .bays, .units, .hoists, .selector, .orders, .power, .port] ∧
      s.chip.otherUnitsSame t.chip h ∧ s.chip.otherHoistsSame t.chip h ∧
      (t.chip.unit h).channels = levels ∧
      (levels = (s.chip.unit h).channels → s.chip.unchangedBut t.chip [] ∧ t.chip.unit h = s.chip.unit h) ∧
      (transitionOf (s.chip.unit h).channels levels = .forward → -2147483648 ≤ (s.chip.unit h).count →
        (s.chip.unit h).count < 2147483647 →
        s.chip.unchangedBut t.chip [.units] ∧
        t.chip.unit h = { s.chip.unit h with channels := levels, count := (s.chip.unit h).count + 1 }) ∧
      (transitionOf (s.chip.unit h).channels levels = .backward → -2147483648 < (s.chip.unit h).count →
        (s.chip.unit h).count ≤ 2147483647 →
        s.chip.unchangedBut t.chip [.units] ∧
        t.chip.unit h = { s.chip.unit h with channels := levels, count := (s.chip.unit h).count - 1 }) ∧
      ((transitionOf (s.chip.unit h).channels levels = .forward ∧ (s.chip.unit h).count = 2147483647 ∨
          transitionOf (s.chip.unit h).channels levels = .backward ∧ (s.chip.unit h).count = -2147483648) →
        s.chip.unchangedBut t.chip [.units] ∧ t.chip.unit h = { s.chip.unit h with
          channels := levels, encoderErrors := satInc16 (s.chip.unit h).encoderErrors }) ∧
      (levels.a ≠ (s.chip.unit h).channels.a → levels.b ≠ (s.chip.unit h).channels.b →
        ((s.chip.unit h).illegal = 0 → s.chip.unchangedBut t.chip [.units] ∧ t.chip.unit h = { s.chip.unit h with
          channels := levels, encoderErrors := satInc16 (s.chip.unit h).encoderErrors, illegal := 1 }) ∧
        (1 ≤ (s.chip.unit h).illegal → t.chip.unit h = { s.chip.unit h with
            channels := levels, encoderErrors := satInc16 (s.chip.unit h).encoderErrors
            illegal := satInc 2 (s.chip.unit h).illegal, referenced := false, markers := [], missRun := 0 } ∧
          (t.chip.hoist h).phase = .faulted ∧
          ((s.chip.hoist h).phase ≠ .faulted → (t.chip.hoist h).fault.first = some .encoder ∧
            (t.chip.hoist h).fault.detail = none) ∧
          ((s.chip.hoist h).phase = .faulted → (t.chip.hoist h).fault = { (s.chip.hoist h).fault with
            further := some (((s.chip.hoist h).fault.further.getD 0) ||| 8#9) })))) ∧
    ((s.chip.unit h).referenced = false → exec (.markerPulse h) s = .next s) ∧
    (∀ n, (s.chip.unit h).lastPulse = some n → s.chip.sensors.mark < n + 200 → exec (.markerPulse h) s = .next s) ∧
    ((s.chip.unit h).referenced = true →
      (∀ n, (s.chip.unit h).lastPulse = some n → n + 200 ≤ s.chip.sensors.mark) → s.chip.expectedMarkers h = [] →
      ∃ t, exec (.markerPulse h) s = .next t ∧ t.pending = s.pending ∧ s.chip.unchangedBut t.chip [.units] ∧
        s.chip.otherUnitsSame t.chip h ∧ t.chip.unit h = { s.chip.unit h with
          lastPulse := some s.chip.sensors.mark, missRun := 0
          slipWarnings := satInc16 (s.chip.unit h).slipWarnings }) ∧
    (∀ (zb : Nat) (dev : Int), (s.chip.unit h).referenced = true →
      (∀ n, (s.chip.unit h).lastPulse = some n → n + 200 ≤ s.chip.sensors.mark) →
      zb ∈ s.chip.expectedMarkers h → dev = zb - s.chip.elevationAt h (s.chip.unit h).count →
      (∀ e ∈ s.chip.expectedMarkers h, e ≠ zb →
        dev.natAbs < apart e (s.chip.elevationAt h (s.chip.unit h).count) ∨
          dev.natAbs = apart e (s.chip.elevationAt h (s.chip.unit h).count) ∧ zb < e) →
      ∃ t, exec (.markerPulse h) s = .next t ∧ t.pending = s.pending ∧
        s.chip.unchangedBut t.chip [.masses, .bays, .units, .hoists, .selector, .orders, .power, .port] ∧
        s.chip.otherUnitsSame t.chip h ∧ s.chip.otherHoistsSame t.chip h ∧
        (dev.natAbs ≤ s.chip.params.slipLimit → s.chip.params.syncWindow ≤ s.chip.params.slipLimit →
          ((s.chip.unit h).drift + dev).natAbs ≤ s.chip.params.driftLimit →
          s.chip.unchangedBut t.chip [.units] ∧ s.chip.markerMet t.chip h zb ∧
          (-2147483648 ≤ (s.chip.unit h).offset + dev → (s.chip.unit h).offset + dev ≤ 2147483647 →
            (t.chip.unit h).offset = (s.chip.unit h).offset + dev) ∧
          t.chip.unit h = { s.chip.unit h with
            lastPulse := some s.chip.sensors.mark, missRun := 0, drift := (s.chip.unit h).drift + dev
            slipWarnings := if dev.natAbs ≤ s.chip.params.syncWindow then (s.chip.unit h).slipWarnings else
              satInc16 (s.chip.unit h).slipWarnings
            offset := (t.chip.unit h).offset, markers := (t.chip.unit h).markers }) ∧
        (s.chip.params.slipLimit < dev.natAbs → s.chip.params.syncWindow ≤ s.chip.params.slipLimit →
          s.chip.moving h = false → s.chip.unchangedBut t.chip [.units] ∧ s.chip.markerMet t.chip h zb ∧
          t.chip.unit h = { s.chip.unit h with
            lastPulse := some s.chip.sensors.mark, missRun := 0
            slipWarnings := satInc16 (s.chip.unit h).slipWarnings, markers := (t.chip.unit h).markers }) ∧
        ((dev.natAbs ≤ s.chip.params.slipLimit ∧ s.chip.params.driftLimit < ((s.chip.unit h).drift + dev).natAbs ∨
            s.chip.params.slipLimit < dev.natAbs ∧ s.chip.moving h = true) →
          s.chip.params.syncWindow ≤ s.chip.params.slipLimit →
          t.chip.unit h = { s.chip.unit h with
            lastPulse := some s.chip.sensors.mark, missRun := 0, referenced := false, markers := [] } ∧
          (t.chip.hoist h).phase = .faulted ∧
          ((s.chip.hoist h).phase ≠ .faulted → (t.chip.hoist h).fault.first = some .position ∧
            ∀ b, s.chip.namesMarker h zb b → (t.chip.hoist h).fault.detail = some b.val) ∧
          ((s.chip.hoist h).phase = .faulted → (t.chip.hoist h).fault = { (s.chip.hoist h).fault with
            further := some (((s.chip.hoist h).fault.further.getD 0) ||| 4#9) })))

/-- PHASE_TIMER_EXPIRY faults the hoist with the timeout cause of its phase (R109, R165); DWELL_LIMIT_EXPIRY re-targets the dwelling trip
from z, or sets the NO_BAY indication (R96, R106); the bay it takes is that of R135. What clears NO_BAY beside a re-target is the model's
reading (log 11). -/
def Obligations.TimerExpiriesComplete : Prop :=
  ∀ (s : State) (h : HoistId), s.chip.Kept →
    (∀ (x : Timer) (cause : FaultCause), (s.chip.hoist h).phaseTimer = some x → x.limit ≤ x.counted →
      ((s.chip.hoist h).phase = .engage ∧ cause = .timeoutEngage ∨
        (s.chip.hoist h).phase = .release ∧ cause = .timeoutRelease ∨
        (s.chip.hoist h).phase = .approach ∧ cause = .timeoutApproach) →
      ∃ t, exec (.phaseTimerExpiry h) s = .next t ∧ t.pending = s.pending ∧
        s.chip.unchangedBut t.chip [.masses, .bays, .hoists, .selector, .orders, .power, .port] ∧
        s.chip.otherHoistsSame t.chip h ∧ (t.chip.hoist h).phase = .faulted ∧
        (t.chip.hoist h).fault = { first := some cause, detail := none, phaseAt := some (s.chip.hoist h).phase,
                                   further := some 0, count := satInc 255 (s.chip.hoist h).fault.count } ∧
        (t.chip.hoist h).phaseTimer = none ∧ (t.chip.hoist h).speedRef = 0 ∧ (t.chip.hoist h).brake = .set ∧
        (t.chip.hoist h).able = false ∧ s.chip.stagedDropped t.chip h ∧
        (t.chip.hoist h).latchCommand = (s.chip.hoist h).latchCommand ∧
        (t.chip.hoist h).withdrawal = (s.chip.hoist h).withdrawal ∧
        (∀ tr, (s.chip.hoist h).active = some tr →
          (t.chip.hoist h).active = some { tr with resumePhase := none, haltCause := none }) ∧
        t.chip.port.attention.faultedHoist = true) ∧
    (∀ (x : Timer) (tr : Trip), (s.chip.hoist h).dwellTimer = some x → x.limit ≤ x.counted →
      (s.chip.hoist h).phase = .dwell → (s.chip.hoist h).active = some tr →
      ∃ t, exec (.dwellLimitExpiry h) s = .next t ∧ t.pending = s.pending ∧
        s.chip.unchangedBut t.chip [.bays, .hoists, .selector, .power, .port] ∧ s.chip.otherHoistsSame t.chip h ∧
        s.chip.retargetRule h (s.chip.unit h).elevation (s.chip.retargetBay h (s.chip.unit h).elevation) ∧
        (s.chip.retargetBay h (s.chip.unit h).elevation = none →
          (t.chip.hoist h).active = some tr ∧ (t.chip.hoist h).noBay = true ∧ (t.chip.hoist h).phase = .dwell ∧
          (t.chip.hoist h).dwellTimer = startTimer s.chip.params.dwellLimit ∧ t.chip.bays = s.chip.bays) ∧
        (∀ b, s.chip.retargetBay h (s.chip.unit h).elevation = some b →
          (t.chip.bay b).state = .inbound ∧ (t.chip.bay b).holder = some (h, .active) ∧
          (t.chip.hoist h).noBay = false ∧
          (∃ tr', (t.chip.hoist h).active = some tr' ∧ tr'.destination = b ∧ tr'.mass = tr.mass ∧
            tr'.retargets = satInc 255 tr.retargets ∧ tr'.orderTag = tr.orderTag ∧
            (s.chip.power.mode = .charge → tr'.kind = .charge) ∧
            (s.chip.power.mode = .discharge → tr'.kind = .discharge) ∧
            (s.chip.power.mode = .standby → tr'.kind = .directed)) ∧
          (s.chip.power.mode = .standby → (t.chip.hoist h).phase = .travel ∧ (t.chip.hoist h).dwellTimer = none) ∧
          (s.chip.power.mode ≠ .standby → (t.chip.hoist h).phase = .dwell ∧
            (t.chip.hoist h).dwellTimer = startTimer s.chip.params.dwellLimit)))
end

