-- ==== Sys2Proof/Laws/Codec.lean ====
section
/-! SUPPORT. The laws of the byte codec (spec/11 R193, R194): how many bytes a field takes, and that reading it gives back what was written. -/

namespace Sys2Proof

@[simp] theorem bigEndian_length (n v : Nat) : (bigEndian n v).length = n := by
  induction n generalizing v with
  | zero => rfl
  | succ n ih => simp [bigEndian, ih]

@[simp] theorem bigEndianSigned_length (n : Nat) (x : Int) : (bigEndianSigned n x).length = n := by
  simp [bigEndianSigned]

@[simp] theorem withCrc_length (l : List Byte) : (withCrc l).length = l.length + 2 := by
  simp [withCrc]

/-- A byte within the first part of a joined list. -/
theorem Frame.byte_append_left (l r : List Byte) (i : Nat) (inside : i < l.length) :
    (⟨l ++ r⟩ : Frame).byte i = (⟨l⟩ : Frame).byte i := by
  simp [Frame.byte, List.getD_eq_getElem?_getD, List.getElem?_append_left inside]

/-- A byte past the first part of a joined list. -/
theorem Frame.byte_append_right (l r : List Byte) (i : Nat) :
    (⟨l ++ r⟩ : Frame).byte (l.length + i) = (⟨r⟩ : Frame).byte i := by
  simp [Frame.byte, List.getD_eq_getElem?_getD, List.getElem?_append_right (Nat.le_add_right l.length i)]

/-- A byte of a frame is below 256. -/
theorem Frame.byte_lt (f : Frame) (i : Nat) : f.byte i < 256 := (f.bytes.getD i 0).isLt

/-- A number of `n` bytes is below 256 to the `n`. -/
theorem Frame.number_lt (f : Frame) (i n : Nat) : f.number i n < 256 ^ n := by
  induction n with
  | zero => simp [Frame.number]
  | succ n ih =>
    have b := f.byte_lt (i + n)
    have e : 256 ^ (n + 1) = 256 ^ n * 256 := Nat.pow_succ ..
    simp only [Frame.number]
    omega

/-- A number within the first part of a joined list. -/
theorem Frame.number_append_left (l r : List Byte) (i n : Nat) (inside : i + n ≤ l.length) :
    (⟨l ++ r⟩ : Frame).number i n = (⟨l⟩ : Frame).number i n := by
  induction n with
  | zero => rfl
  | succ n ih =>
    simp only [Frame.number]
    rw [ih (by omega), Frame.byte_append_left _ _ _ (by omega)]

/-- A number past the first part of a joined list. -/
theorem Frame.number_append_right (l r : List Byte) (i n : Nat) :
    (⟨l ++ r⟩ : Frame).number (l.length + i) n = (⟨r⟩ : Frame).number i n := by
  induction n with
  | zero => rfl
  | succ n ih =>
    simp only [Frame.number]
    rw [ih, Nat.add_assoc, Frame.byte_append_right]

/-- The number read from the bytes of a number that they can carry. -/
theorem Frame.number_bigEndian (n v : Nat) (fits : v < 256 ^ n) : (⟨bigEndian n v⟩ : Frame).number 0 n = v := by
  induction n generalizing v with
  | zero =>
    simp only [Nat.pow_zero] at fits
    simp only [Frame.number]
    omega
  | succ n ih =>
    have e : 256 ^ (n + 1) = 256 ^ n * 256 := Nat.pow_succ ..
    have high : v / 256 < 256 ^ n := by omega
    have last : (⟨bigEndian n (v / 256) ++ [BitVec.ofNat 8 v]⟩ : Frame).byte (0 + n) = v % 256 := by
      have h := Frame.byte_append_right (bigEndian n (v / 256)) [BitVec.ofNat 8 v] 0
      rw [bigEndian_length, Nat.add_zero] at h
      rw [Nat.zero_add, h]
      simp [Frame.byte]
    simp only [Frame.number, bigEndian]
    rw [Frame.number_append_left _ _ _ _ (by simp), ih _ high, last]
    omega

/-- The signed number read from the bytes of a signed number that they can carry. -/
theorem signedOf_toNat (n : Nat) (x : Int) (positive : 0 < n) (low : -(2 ^ (8 * n - 1) : Int) ≤ x)
    (high : x < 2 ^ (8 * n - 1)) : signedOf n (x % (2 ^ (8 * n) : Int)).toNat = x := by
  have e : (2 : Int) ^ (8 * n) = 2 * 2 ^ (8 * n - 1) := by
    rw [← pow_succ']
    congr 1
    omega
  have en : ((2 ^ (8 * n - 1) : Nat) : Int) = 2 ^ (8 * n - 1) := by push_cast; rfl
  have pos : (0 : Int) < 2 ^ (8 * n - 1) := by positivity
  unfold signedOf
  rcases lt_or_ge x 0 with neg | nonneg
  · have m : x % (2 ^ (8 * n) : Int) = x + 2 ^ (8 * n) := by
      rw [← Int.add_emod_right]
      exact Int.emod_eq_of_lt (by omega) (by omega)
    rw [m, if_neg (by omega)]
    omega
  · have m : x % (2 ^ (8 * n) : Int) = x := Int.emod_eq_of_lt nonneg (by omega)
    rw [m, if_pos (by omega)]
    omega

end Sys2Proof
end

