-- ==== Sys2Proof/Laws/State.lean ====
section
/-! SUPPORT. The laws of the part's updates: for each update, what every component and every record reads after it. -/

namespace Sys2Proof.Machine


/-! ### updMass -/

@[simp] theorem Chip.updMass_bays (p : Chip) (i : MassId) (f : MassRecord → MassRecord) : (p.updMass i f).bays = p.bays := rfl

@[simp] theorem Chip.updMass_sensors (p : Chip) (i : MassId) (f : MassRecord → MassRecord) : (p.updMass i f).sensors = p.sensors := rfl

@[simp] theorem Chip.updMass_units (p : Chip) (i : MassId) (f : MassRecord → MassRecord) : (p.updMass i f).units = p.units := rfl

@[simp] theorem Chip.updMass_hoists (p : Chip) (i : MassId) (f : MassRecord → MassRecord) : (p.updMass i f).hoists = p.hoists := rfl

@[simp] theorem Chip.updMass_selector (p : Chip) (i : MassId) (f : MassRecord → MassRecord) : (p.updMass i f).selector = p.selector := rfl

@[simp] theorem Chip.updMass_orders (p : Chip) (i : MassId) (f : MassRecord → MassRecord) : (p.updMass i f).orders = p.orders := rfl

@[simp] theorem Chip.updMass_power (p : Chip) (i : MassId) (f : MassRecord → MassRecord) : (p.updMass i f).power = p.power := rfl

@[simp] theorem Chip.updMass_links (p : Chip) (i : MassId) (f : MassRecord → MassRecord) : (p.updMass i f).links = p.links := rfl

@[simp] theorem Chip.updMass_port (p : Chip) (i : MassId) (f : MassRecord → MassRecord) : (p.updMass i f).port = p.port := rfl

@[simp] theorem Chip.updMass_params (p : Chip) (i : MassId) (f : MassRecord → MassRecord) : (p.updMass i f).params = p.params := rfl

@[simp] theorem Chip.updMass_hoistParams (p : Chip) (i : MassId) (f : MassRecord → MassRecord) : (p.updMass i f).hoistParams = p.hoistParams := rfl

@[simp] theorem Chip.updMass_draws (p : Chip) (i : MassId) (f : MassRecord → MassRecord) : (p.updMass i f).draws = p.draws := rfl

@[simp] theorem Chip.updMass_bay (p : Chip) (i : MassId) (f : MassRecord → MassRecord) (b : BayId) : (p.updMass i f).bay b = p.bay b := rfl

@[simp] theorem Chip.updMass_hoist (p : Chip) (i : MassId) (f : MassRecord → MassRecord) (k : HoistId) : (p.updMass i f).hoist k = p.hoist k := rfl

@[simp] theorem Chip.updMass_unit (p : Chip) (i : MassId) (f : MassRecord → MassRecord) (k : HoistId) : (p.updMass i f).unit k = p.unit k := rfl

@[simp] theorem Chip.updMass_link (p : Chip) (i : MassId) (f : MassRecord → MassRecord) (k : HoistId) : (p.updMass i f).link k = p.link k := rfl

@[simp] theorem Chip.updMass_hp (p : Chip) (i : MassId) (f : MassRecord → MassRecord) (k : HoistId) : (p.updMass i f).hp k = p.hp k := rfl

@[simp] theorem Chip.updMass_interlock (p : Chip) (i : MassId) (f : MassRecord → MassRecord) : (p.updMass i f).interlock = p.interlock := rfl

/-! ### updBay -/

@[simp] theorem Chip.updBay_masses (p : Chip) (i : BayId) (f : BayRecord → BayRecord) : (p.updBay i f).masses = p.masses := rfl

@[simp] theorem Chip.updBay_sensors (p : Chip) (i : BayId) (f : BayRecord → BayRecord) : (p.updBay i f).sensors = p.sensors := rfl

@[simp] theorem Chip.updBay_units (p : Chip) (i : BayId) (f : BayRecord → BayRecord) : (p.updBay i f).units = p.units := rfl

@[simp] theorem Chip.updBay_hoists (p : Chip) (i : BayId) (f : BayRecord → BayRecord) : (p.updBay i f).hoists = p.hoists := rfl

@[simp] theorem Chip.updBay_selector (p : Chip) (i : BayId) (f : BayRecord → BayRecord) : (p.updBay i f).selector = p.selector := rfl

@[simp] theorem Chip.updBay_orders (p : Chip) (i : BayId) (f : BayRecord → BayRecord) : (p.updBay i f).orders = p.orders := rfl

@[simp] theorem Chip.updBay_power (p : Chip) (i : BayId) (f : BayRecord → BayRecord) : (p.updBay i f).power = p.power := rfl

@[simp] theorem Chip.updBay_links (p : Chip) (i : BayId) (f : BayRecord → BayRecord) : (p.updBay i f).links = p.links := rfl

@[simp] theorem Chip.updBay_port (p : Chip) (i : BayId) (f : BayRecord → BayRecord) : (p.updBay i f).port = p.port := rfl

@[simp] theorem Chip.updBay_params (p : Chip) (i : BayId) (f : BayRecord → BayRecord) : (p.updBay i f).params = p.params := rfl

@[simp] theorem Chip.updBay_hoistParams (p : Chip) (i : BayId) (f : BayRecord → BayRecord) : (p.updBay i f).hoistParams = p.hoistParams := rfl

@[simp] theorem Chip.updBay_draws (p : Chip) (i : BayId) (f : BayRecord → BayRecord) : (p.updBay i f).draws = p.draws := rfl

@[simp] theorem Chip.updBay_mass (p : Chip) (i : BayId) (f : BayRecord → BayRecord) (m : MassId) : (p.updBay i f).mass m = p.mass m := rfl

@[simp] theorem Chip.updBay_hoist (p : Chip) (i : BayId) (f : BayRecord → BayRecord) (k : HoistId) : (p.updBay i f).hoist k = p.hoist k := rfl

@[simp] theorem Chip.updBay_unit (p : Chip) (i : BayId) (f : BayRecord → BayRecord) (k : HoistId) : (p.updBay i f).unit k = p.unit k := rfl

@[simp] theorem Chip.updBay_link (p : Chip) (i : BayId) (f : BayRecord → BayRecord) (k : HoistId) : (p.updBay i f).link k = p.link k := rfl

@[simp] theorem Chip.updBay_hp (p : Chip) (i : BayId) (f : BayRecord → BayRecord) (k : HoistId) : (p.updBay i f).hp k = p.hp k := rfl

@[simp] theorem Chip.updBay_interlock (p : Chip) (i : BayId) (f : BayRecord → BayRecord) : (p.updBay i f).interlock = p.interlock := rfl

/-! ### updHoist -/

@[simp] theorem Chip.updHoist_masses (p : Chip) (h : HoistId) (f : HoistCtl → HoistCtl) : (p.updHoist h f).masses = p.masses := rfl

@[simp] theorem Chip.updHoist_bays (p : Chip) (h : HoistId) (f : HoistCtl → HoistCtl) : (p.updHoist h f).bays = p.bays := rfl

@[simp] theorem Chip.updHoist_sensors (p : Chip) (h : HoistId) (f : HoistCtl → HoistCtl) : (p.updHoist h f).sensors = p.sensors := rfl

@[simp] theorem Chip.updHoist_units (p : Chip) (h : HoistId) (f : HoistCtl → HoistCtl) : (p.updHoist h f).units = p.units := rfl

@[simp] theorem Chip.updHoist_selector (p : Chip) (h : HoistId) (f : HoistCtl → HoistCtl) : (p.updHoist h f).selector = p.selector := rfl

@[simp] theorem Chip.updHoist_orders (p : Chip) (h : HoistId) (f : HoistCtl → HoistCtl) : (p.updHoist h f).orders = p.orders := rfl

@[simp] theorem Chip.updHoist_power (p : Chip) (h : HoistId) (f : HoistCtl → HoistCtl) : (p.updHoist h f).power = p.power := rfl

@[simp] theorem Chip.updHoist_links (p : Chip) (h : HoistId) (f : HoistCtl → HoistCtl) : (p.updHoist h f).links = p.links := rfl

@[simp] theorem Chip.updHoist_port (p : Chip) (h : HoistId) (f : HoistCtl → HoistCtl) : (p.updHoist h f).port = p.port := rfl

@[simp] theorem Chip.updHoist_params (p : Chip) (h : HoistId) (f : HoistCtl → HoistCtl) : (p.updHoist h f).params = p.params := rfl

@[simp] theorem Chip.updHoist_hoistParams (p : Chip) (h : HoistId) (f : HoistCtl → HoistCtl) : (p.updHoist h f).hoistParams = p.hoistParams := rfl

@[simp] theorem Chip.updHoist_draws (p : Chip) (h : HoistId) (f : HoistCtl → HoistCtl) : (p.updHoist h f).draws = p.draws := rfl

@[simp] theorem Chip.updHoist_mass (p : Chip) (h : HoistId) (f : HoistCtl → HoistCtl) (m : MassId) : (p.updHoist h f).mass m = p.mass m := rfl

@[simp] theorem Chip.updHoist_bay (p : Chip) (h : HoistId) (f : HoistCtl → HoistCtl) (b : BayId) : (p.updHoist h f).bay b = p.bay b := rfl

@[simp] theorem Chip.updHoist_unit (p : Chip) (h : HoistId) (f : HoistCtl → HoistCtl) (k : HoistId) : (p.updHoist h f).unit k = p.unit k := rfl

@[simp] theorem Chip.updHoist_link (p : Chip) (h : HoistId) (f : HoistCtl → HoistCtl) (k : HoistId) : (p.updHoist h f).link k = p.link k := rfl

@[simp] theorem Chip.updHoist_hp (p : Chip) (h : HoistId) (f : HoistCtl → HoistCtl) (k : HoistId) : (p.updHoist h f).hp k = p.hp k := rfl

@[simp] theorem Chip.updHoist_interlock (p : Chip) (h : HoistId) (f : HoistCtl → HoistCtl) : (p.updHoist h f).interlock = p.interlock := rfl

/-! ### updUnit -/

@[simp] theorem Chip.updUnit_masses (p : Chip) (h : HoistId) (f : PositionUnit → PositionUnit) : (p.updUnit h f).masses = p.masses := rfl

@[simp] theorem Chip.updUnit_bays (p : Chip) (h : HoistId) (f : PositionUnit → PositionUnit) : (p.updUnit h f).bays = p.bays := rfl

@[simp] theorem Chip.updUnit_sensors (p : Chip) (h : HoistId) (f : PositionUnit → PositionUnit) : (p.updUnit h f).sensors = p.sensors := rfl

@[simp] theorem Chip.updUnit_hoists (p : Chip) (h : HoistId) (f : PositionUnit → PositionUnit) : (p.updUnit h f).hoists = p.hoists := rfl

@[simp] theorem Chip.updUnit_selector (p : Chip) (h : HoistId) (f : PositionUnit → PositionUnit) : (p.updUnit h f).selector = p.selector := rfl

@[simp] theorem Chip.updUnit_orders (p : Chip) (h : HoistId) (f : PositionUnit → PositionUnit) : (p.updUnit h f).orders = p.orders := rfl

@[simp] theorem Chip.updUnit_power (p : Chip) (h : HoistId) (f : PositionUnit → PositionUnit) : (p.updUnit h f).power = p.power := rfl

@[simp] theorem Chip.updUnit_links (p : Chip) (h : HoistId) (f : PositionUnit → PositionUnit) : (p.updUnit h f).links = p.links := rfl

@[simp] theorem Chip.updUnit_port (p : Chip) (h : HoistId) (f : PositionUnit → PositionUnit) : (p.updUnit h f).port = p.port := rfl

@[simp] theorem Chip.updUnit_params (p : Chip) (h : HoistId) (f : PositionUnit → PositionUnit) : (p.updUnit h f).params = p.params := rfl

@[simp] theorem Chip.updUnit_hoistParams (p : Chip) (h : HoistId) (f : PositionUnit → PositionUnit) : (p.updUnit h f).hoistParams = p.hoistParams := rfl

@[simp] theorem Chip.updUnit_draws (p : Chip) (h : HoistId) (f : PositionUnit → PositionUnit) : (p.updUnit h f).draws = p.draws := rfl

@[simp] theorem Chip.updUnit_mass (p : Chip) (h : HoistId) (f : PositionUnit → PositionUnit) (m : MassId) : (p.updUnit h f).mass m = p.mass m := rfl

@[simp] theorem Chip.updUnit_bay (p : Chip) (h : HoistId) (f : PositionUnit → PositionUnit) (b : BayId) : (p.updUnit h f).bay b = p.bay b := rfl

@[simp] theorem Chip.updUnit_hoist (p : Chip) (h : HoistId) (f : PositionUnit → PositionUnit) (k : HoistId) : (p.updUnit h f).hoist k = p.hoist k := rfl

@[simp] theorem Chip.updUnit_link (p : Chip) (h : HoistId) (f : PositionUnit → PositionUnit) (k : HoistId) : (p.updUnit h f).link k = p.link k := rfl

@[simp] theorem Chip.updUnit_hp (p : Chip) (h : HoistId) (f : PositionUnit → PositionUnit) (k : HoistId) : (p.updUnit h f).hp k = p.hp k := rfl

@[simp] theorem Chip.updUnit_interlock (p : Chip) (h : HoistId) (f : PositionUnit → PositionUnit) : (p.updUnit h f).interlock = p.interlock := rfl

/-! ### updLink -/

@[simp] theorem Chip.updLink_masses (p : Chip) (h : HoistId) (f : LinkPort → LinkPort) : (p.updLink h f).masses = p.masses := rfl

@[simp] theorem Chip.updLink_bays (p : Chip) (h : HoistId) (f : LinkPort → LinkPort) : (p.updLink h f).bays = p.bays := rfl

@[simp] theorem Chip.updLink_sensors (p : Chip) (h : HoistId) (f : LinkPort → LinkPort) : (p.updLink h f).sensors = p.sensors := rfl

@[simp] theorem Chip.updLink_units (p : Chip) (h : HoistId) (f : LinkPort → LinkPort) : (p.updLink h f).units = p.units := rfl

@[simp] theorem Chip.updLink_hoists (p : Chip) (h : HoistId) (f : LinkPort → LinkPort) : (p.updLink h f).hoists = p.hoists := rfl

@[simp] theorem Chip.updLink_selector (p : Chip) (h : HoistId) (f : LinkPort → LinkPort) : (p.updLink h f).selector = p.selector := rfl

@[simp] theorem Chip.updLink_orders (p : Chip) (h : HoistId) (f : LinkPort → LinkPort) : (p.updLink h f).orders = p.orders := rfl

@[simp] theorem Chip.updLink_power (p : Chip) (h : HoistId) (f : LinkPort → LinkPort) : (p.updLink h f).power = p.power := rfl

@[simp] theorem Chip.updLink_port (p : Chip) (h : HoistId) (f : LinkPort → LinkPort) : (p.updLink h f).port = p.port := rfl

@[simp] theorem Chip.updLink_params (p : Chip) (h : HoistId) (f : LinkPort → LinkPort) : (p.updLink h f).params = p.params := rfl

@[simp] theorem Chip.updLink_hoistParams (p : Chip) (h : HoistId) (f : LinkPort → LinkPort) : (p.updLink h f).hoistParams = p.hoistParams := rfl

@[simp] theorem Chip.updLink_draws (p : Chip) (h : HoistId) (f : LinkPort → LinkPort) : (p.updLink h f).draws = p.draws := rfl

@[simp] theorem Chip.updLink_mass (p : Chip) (h : HoistId) (f : LinkPort → LinkPort) (m : MassId) : (p.updLink h f).mass m = p.mass m := rfl

@[simp] theorem Chip.updLink_bay (p : Chip) (h : HoistId) (f : LinkPort → LinkPort) (b : BayId) : (p.updLink h f).bay b = p.bay b := rfl

@[simp] theorem Chip.updLink_hoist (p : Chip) (h : HoistId) (f : LinkPort → LinkPort) (k : HoistId) : (p.updLink h f).hoist k = p.hoist k := rfl

@[simp] theorem Chip.updLink_unit (p : Chip) (h : HoistId) (f : LinkPort → LinkPort) (k : HoistId) : (p.updLink h f).unit k = p.unit k := rfl

@[simp] theorem Chip.updLink_hp (p : Chip) (h : HoistId) (f : LinkPort → LinkPort) (k : HoistId) : (p.updLink h f).hp k = p.hp k := rfl

@[simp] theorem Chip.updLink_interlock (p : Chip) (h : HoistId) (f : LinkPort → LinkPort) : (p.updLink h f).interlock = p.interlock := rfl

/-! ### request -/

@[simp] theorem Chip.request_masses (p : Chip) : p.request.masses = p.masses := rfl

@[simp] theorem Chip.request_bays (p : Chip) : p.request.bays = p.bays := rfl

@[simp] theorem Chip.request_sensors (p : Chip) : p.request.sensors = p.sensors := rfl

@[simp] theorem Chip.request_units (p : Chip) : p.request.units = p.units := rfl

@[simp] theorem Chip.request_hoists (p : Chip) : p.request.hoists = p.hoists := rfl

@[simp] theorem Chip.request_orders (p : Chip) : p.request.orders = p.orders := rfl

@[simp] theorem Chip.request_power (p : Chip) : p.request.power = p.power := rfl

@[simp] theorem Chip.request_links (p : Chip) : p.request.links = p.links := rfl

@[simp] theorem Chip.request_port (p : Chip) : p.request.port = p.port := rfl

@[simp] theorem Chip.request_params (p : Chip) : p.request.params = p.params := rfl

@[simp] theorem Chip.request_hoistParams (p : Chip) : p.request.hoistParams = p.hoistParams := rfl

@[simp] theorem Chip.request_draws (p : Chip) : p.request.draws = p.draws := rfl

@[simp] theorem Chip.request_mass (p : Chip) (m : MassId) : p.request.mass m = p.mass m := rfl

@[simp] theorem Chip.request_bay (p : Chip) (b : BayId) : p.request.bay b = p.bay b := rfl

@[simp] theorem Chip.request_hoist (p : Chip) (k : HoistId) : p.request.hoist k = p.hoist k := rfl

@[simp] theorem Chip.request_unit (p : Chip) (k : HoistId) : p.request.unit k = p.unit k := rfl

@[simp] theorem Chip.request_link (p : Chip) (k : HoistId) : p.request.link k = p.link k := rfl

@[simp] theorem Chip.request_hp (p : Chip) (k : HoistId) : p.request.hp k = p.hp k := rfl

@[simp] theorem Chip.request_interlock (p : Chip) : p.request.interlock = p.interlock := rfl

/-! ### report -/

@[simp] theorem Chip.report_masses (p : Chip) : p.report.masses = p.masses := rfl

@[simp] theorem Chip.report_bays (p : Chip) : p.report.bays = p.bays := rfl

@[simp] theorem Chip.report_sensors (p : Chip) : p.report.sensors = p.sensors := rfl

@[simp] theorem Chip.report_units (p : Chip) : p.report.units = p.units := rfl

@[simp] theorem Chip.report_hoists (p : Chip) : p.report.hoists = p.hoists := rfl

@[simp] theorem Chip.report_selector (p : Chip) : p.report.selector = p.selector := rfl

@[simp] theorem Chip.report_orders (p : Chip) : p.report.orders = p.orders := rfl

@[simp] theorem Chip.report_power (p : Chip) : p.report.power = p.power := rfl

@[simp] theorem Chip.report_links (p : Chip) : p.report.links = p.links := rfl

@[simp] theorem Chip.report_params (p : Chip) : p.report.params = p.params := rfl

@[simp] theorem Chip.report_hoistParams (p : Chip) : p.report.hoistParams = p.hoistParams := rfl

@[simp] theorem Chip.report_draws (p : Chip) : p.report.draws = p.draws := rfl

@[simp] theorem Chip.report_mass (p : Chip) (m : MassId) : p.report.mass m = p.mass m := rfl

@[simp] theorem Chip.report_bay (p : Chip) (b : BayId) : p.report.bay b = p.bay b := rfl

@[simp] theorem Chip.report_hoist (p : Chip) (k : HoistId) : p.report.hoist k = p.hoist k := rfl

@[simp] theorem Chip.report_unit (p : Chip) (k : HoistId) : p.report.unit k = p.unit k := rfl

@[simp] theorem Chip.report_link (p : Chip) (k : HoistId) : p.report.link k = p.link k := rfl

@[simp] theorem Chip.report_hp (p : Chip) (k : HoistId) : p.report.hp k = p.hp k := rfl

@[simp] theorem Chip.report_interlock (p : Chip) : p.report.interlock = p.interlock := rfl

/-! ### The four values of a hoist's table -/

end Sys2Proof.Machine

namespace Sys2Proof

@[simp] theorem Quad.get_tab {α : Type} (f : HoistId → α) (h : HoistId) : (Quad.tab f).get h = f h := by
  match h with
  | 0 => rfl
  | 1 => rfl
  | 2 => rfl
  | 3 => rfl

@[simp] theorem Quad.get_all {α : Type} (x : α) (h : HoistId) : (Quad.all x).get h = x := by
  match h with
  | 0 => rfl
  | 1 => rfl
  | 2 => rfl
  | 3 => rfl

theorem Quad.get_set {α : Type} (q : Quad α) (h k : HoistId) (x : α) :
    (q.set h x).get k = if k = h then x else q.get k := by
  match h, k with
  | 0, 0 | 0, 1 | 0, 2 | 0, 3 | 1, 0 | 1, 1 | 1, 2 | 1, 3 | 2, 0 | 2, 1 | 2, 2 | 2, 3 | 3, 0 | 3, 1 | 3, 2 | 3, 3 => rfl

@[simp] theorem Quad.get_set_self {α : Type} (q : Quad α) (h : HoistId) (x : α) : (q.set h x).get h = x := by
  rw [Quad.get_set, if_pos rfl]

theorem Quad.get_set_of_ne {α : Type} (q : Quad α) (h k : HoistId) (x : α) (ne : k ≠ h) :
    (q.set h x).get k = q.get k := by
  rw [Quad.get_set, if_neg ne]

/-- Two tables that agree at every hoist are equal. -/
theorem Quad.ext_get {α : Type} (q r : Quad α) (same : ∀ h, q.get h = r.get h) : q = r := by
  cases q; cases r
  have h0 := same 0
  have h1 := same 1
  have h2 := same 2
  have h3 := same 3
  simp only [Quad.get] at h0 h1 h2 h3
  simp only [h0, h1, h2, h3]

end Sys2Proof

namespace Sys2Proof.Machine

/-! ### Reading the record that an update changed -/

theorem Chip.updHoist_hoist (p : Chip) (h k : HoistId) (f : HoistCtl → HoistCtl) :
    (p.updHoist h f).hoist k = if k = h then f (p.hoist h) else p.hoist k := Quad.get_set _ _ _ _

@[simp] theorem Chip.updHoist_hoist_self (p : Chip) (h : HoistId) (f : HoistCtl → HoistCtl) :
    (p.updHoist h f).hoist h = f (p.hoist h) := Quad.get_set_self _ _ _

theorem Chip.updHoist_hoist_of_ne (p : Chip) (h k : HoistId) (f : HoistCtl → HoistCtl) (ne : k ≠ h) :
    (p.updHoist h f).hoist k = p.hoist k := Quad.get_set_of_ne _ _ _ _ ne

theorem Chip.updUnit_unit (p : Chip) (h k : HoistId) (f : PositionUnit → PositionUnit) :
    (p.updUnit h f).unit k = if k = h then f (p.unit h) else p.unit k := Quad.get_set _ _ _ _

@[simp] theorem Chip.updUnit_unit_self (p : Chip) (h : HoistId) (f : PositionUnit → PositionUnit) :
    (p.updUnit h f).unit h = f (p.unit h) := Quad.get_set_self _ _ _

theorem Chip.updUnit_unit_of_ne (p : Chip) (h k : HoistId) (f : PositionUnit → PositionUnit) (ne : k ≠ h) :
    (p.updUnit h f).unit k = p.unit k := Quad.get_set_of_ne _ _ _ _ ne

theorem Chip.updLink_link (p : Chip) (h k : HoistId) (f : LinkPort → LinkPort) :
    (p.updLink h f).link k = if k = h then f (p.link h) else p.link k := Quad.get_set _ _ _ _

@[simp] theorem Chip.updLink_link_self (p : Chip) (h : HoistId) (f : LinkPort → LinkPort) :
    (p.updLink h f).link h = f (p.link h) := Quad.get_set_self _ _ _

theorem Chip.updLink_link_of_ne (p : Chip) (h k : HoistId) (f : LinkPort → LinkPort) (ne : k ≠ h) :
    (p.updLink h f).link k = p.link k := Quad.get_set_of_ne _ _ _ _ ne

theorem Chip.updMass_mass (p : Chip) (i m : MassId) (f : MassRecord → MassRecord) :
    (p.updMass i f).mass m = if m = i then f (p.mass i) else p.mass m := by
  by_cases e : m = i
  · subst e; simp [Chip.updMass, Chip.mass]
  · have : i.val ≠ m.val := fun h => e (Fin.ext h.symm)
    simp [Chip.updMass, Chip.mass, e, this]

@[simp] theorem Chip.updMass_mass_self (p : Chip) (m : MassId) (f : MassRecord → MassRecord) :
    (p.updMass m f).mass m = f (p.mass m) := by
  rw [Chip.updMass_mass, if_pos rfl]

theorem Chip.updMass_mass_of_ne (p : Chip) (i m : MassId) (f : MassRecord → MassRecord) (ne : m ≠ i) :
    (p.updMass i f).mass m = p.mass m := by
  rw [Chip.updMass_mass, if_neg ne]

theorem Chip.updBay_bay (p : Chip) (i b : BayId) (f : BayRecord → BayRecord) :
    (p.updBay i f).bay b = if b = i then f (p.bay i) else p.bay b := by
  by_cases e : b = i
  · subst e; simp [Chip.updBay, Chip.bay]
  · have : i.val ≠ b.val := fun h => e (Fin.ext h.symm)
    simp [Chip.updBay, Chip.bay, e, this]

@[simp] theorem Chip.updBay_bay_self (p : Chip) (b : BayId) (f : BayRecord → BayRecord) :
    (p.updBay b f).bay b = f (p.bay b) := by
  rw [Chip.updBay_bay, if_pos rfl]

theorem Chip.updBay_bay_of_ne (p : Chip) (i b : BayId) (f : BayRecord → BayRecord) (ne : b ≠ i) :
    (p.updBay i f).bay b = p.bay b := by
  rw [Chip.updBay_bay, if_neg ne]

/-! ### The held orders -/

@[simp] theorem Chip.setHeld_masses (p : Chip) (h : HoistId) (slot : Slot) (o : Option Order) :
    (p.setHeld h slot o).masses = p.masses := by cases slot <;> rfl

@[simp] theorem Chip.setHeld_bays (p : Chip) (h : HoistId) (slot : Slot) (o : Option Order) :
    (p.setHeld h slot o).bays = p.bays := by cases slot <;> rfl

@[simp] theorem Chip.setHeld_sensors (p : Chip) (h : HoistId) (slot : Slot) (o : Option Order) :
    (p.setHeld h slot o).sensors = p.sensors := by cases slot <;> rfl

@[simp] theorem Chip.setHeld_units (p : Chip) (h : HoistId) (slot : Slot) (o : Option Order) :
    (p.setHeld h slot o).units = p.units := by cases slot <;> rfl

@[simp] theorem Chip.setHeld_hoists (p : Chip) (h : HoistId) (slot : Slot) (o : Option Order) :
    (p.setHeld h slot o).hoists = p.hoists := by cases slot <;> rfl

@[simp] theorem Chip.setHeld_selector (p : Chip) (h : HoistId) (slot : Slot) (o : Option Order) :
    (p.setHeld h slot o).selector = p.selector := by cases slot <;> rfl

@[simp] theorem Chip.setHeld_power (p : Chip) (h : HoistId) (slot : Slot) (o : Option Order) :
    (p.setHeld h slot o).power = p.power := by cases slot <;> rfl

@[simp] theorem Chip.setHeld_links (p : Chip) (h : HoistId) (slot : Slot) (o : Option Order) :
    (p.setHeld h slot o).links = p.links := by cases slot <;> rfl

@[simp] theorem Chip.setHeld_port (p : Chip) (h : HoistId) (slot : Slot) (o : Option Order) :
    (p.setHeld h slot o).port = p.port := by cases slot <;> rfl

@[simp] theorem Chip.setHeld_params (p : Chip) (h : HoistId) (slot : Slot) (o : Option Order) :
    (p.setHeld h slot o).params = p.params := by cases slot <;> rfl

@[simp] theorem Chip.setHeld_hoistParams (p : Chip) (h : HoistId) (slot : Slot) (o : Option Order) :
    (p.setHeld h slot o).hoistParams = p.hoistParams := by cases slot <;> rfl

@[simp] theorem Chip.setHeld_draws (p : Chip) (h : HoistId) (slot : Slot) (o : Option Order) :
    (p.setHeld h slot o).draws = p.draws := by cases slot <;> rfl

@[simp] theorem Chip.setHeld_queue (p : Chip) (h : HoistId) (slot : Slot) (o : Option Order) :
    (p.setHeld h slot o).orders.queue = p.orders.queue := by cases slot <;> rfl

@[simp] theorem Chip.setHeld_dropped (p : Chip) (h : HoistId) (slot : Slot) (o : Option Order) :
    (p.setHeld h slot o).orders.dropped = p.orders.dropped := by cases slot <;> rfl

theorem Chip.setHeld_held (p : Chip) (h k : HoistId) (slot slot' : Slot) (o : Option Order) :
    (p.setHeld h slot o).held k slot' = if k = h ∧ slot' = slot then o else p.held k slot' := by
  cases slot <;> cases slot' <;> simp [Chip.setHeld, Chip.held, Quad.get_set]

@[simp] theorem Chip.request_pending (p : Chip) : p.request.selector.request = true := rfl

end Sys2Proof.Machine
end

