-- ==== Sys2Proof/Laws/Finish.lean ====
section
/-! SUPPORT. What the end of an event does (`Chip.finish`), component by component, so that no proof unfolds it. -/

namespace Sys2Proof.Machine

/-! ### One hoist's items kept true -/

/-- Hoist `h`'s controller with able, the brake command and the reference as the part's records have them (R89, R93, R152). -/
def Chip.keptHoist (p : Chip) (h : HoistId) : HoistCtl :=
  { p.hoist h with
    able := p.ableLaw h
    brake := p.brakeLaw h
    speedRef := if p.brakeLaw h = .set then 0 else (p.hoist h).speedRef }

theorem Chip.keep_masses (before p : Chip) (h : HoistId) : (Chip.keep before p h).masses = p.masses := rfl

theorem Chip.keep_bays (before p : Chip) (h : HoistId) : (Chip.keep before p h).bays = p.bays := rfl

theorem Chip.keep_sensors (before p : Chip) (h : HoistId) : (Chip.keep before p h).sensors = p.sensors := rfl

theorem Chip.keep_units (before p : Chip) (h : HoistId) : (Chip.keep before p h).units = p.units := rfl

theorem Chip.keep_links (before p : Chip) (h : HoistId) : (Chip.keep before p h).links = p.links := rfl

theorem Chip.keep_orders (before p : Chip) (h : HoistId) : (Chip.keep before p h).orders = p.orders := rfl

theorem Chip.keep_params (before p : Chip) (h : HoistId) : (Chip.keep before p h).params = p.params := rfl

theorem Chip.keep_hoistParams (before p : Chip) (h : HoistId) : (Chip.keep before p h).hoistParams = p.hoistParams := rfl

theorem Chip.keep_draws (before p : Chip) (h : HoistId) : (Chip.keep before p h).draws = p.draws := rfl

theorem Chip.keep_port (before p : Chip) (h : HoistId) : (Chip.keep before p h).port = p.port := rfl

theorem Chip.keep_hoist (before p : Chip) (h k : HoistId) :
    (Chip.keep before p h).hoist k = if k = h then p.keptHoist h else p.hoist k := Quad.get_set _ _ _ _

theorem Chip.keep_unit (before p : Chip) (h k : HoistId) : (Chip.keep before p h).unit k = p.unit k := rfl

theorem Chip.keep_link (before p : Chip) (h k : HoistId) : (Chip.keep before p h).link k = p.link k := rfl

theorem Chip.keep_ableLaw (before p : Chip) (h k : HoistId) : (Chip.keep before p h).ableLaw k = p.ableLaw k := by
  unfold Chip.ableLaw
  rw [Chip.keep_hoist, Chip.keep_link, Chip.keep_unit]
  by_cases e : k = h
  · subst e
    rw [if_pos rfl]
    rfl
  · rw [if_neg e]

theorem Chip.keep_brakeLaw (before p : Chip) (h k : HoistId) : (Chip.keep before p h).brakeLaw k = p.brakeLaw k := by
  unfold Chip.brakeLaw Chip.brakeIn
  rw [Chip.keep_hoist, Chip.keep_link]
  by_cases e : k = h
  · subst e
    rw [if_pos rfl]
    rfl
  · rw [if_neg e]
    rfl

theorem Chip.keep_keptHoist (before p : Chip) (h k : HoistId) (ne : k ≠ h) :
    (Chip.keep before p h).keptHoist k = p.keptHoist k := by
  unfold Chip.keptHoist
  rw [Chip.keep_ableLaw, Chip.keep_brakeLaw, Chip.keep_hoist, if_neg ne]

theorem Chip.keep_pointer (before p : Chip) (h : HoistId) :
    (Chip.keep before p h).selector.pointer = p.selector.pointer := rfl

theorem Chip.keep_serving (before p : Chip) (h : HoistId) :
    (Chip.keep before p h).selector.serving = p.selector.serving := rfl

theorem Chip.keep_request (before p : Chip) (h : HoistId) :
    (Chip.keep before p h).selector.request = (p.selector.request || (p.ableLaw h && !(p.hoist h).able)) := rfl

theorem Chip.keep_power (before p : Chip) (h : HoistId) :
    (Chip.keep before p h).power = { p.power with handed := (Chip.keep before p h).power.handed } := rfl

theorem Chip.keep_handed (before p : Chip) (h k : HoistId) :
    (Chip.keep before p h).power.handed.get k =
      if k = h then p.power.handed.get h || decide ((before.hoist h).powerView ≠ (p.hoist h).powerView)
      else p.power.handed.get k := Quad.get_set _ _ _ _

/-! ### The end of an event -/

/-- The four hoists' items kept true, before the conditions are reported. -/
def Chip.settle (before p : Chip) : Chip :=
  Chip.keep before (Chip.keep before (Chip.keep before (Chip.keep before p 0) 1) 2) 3

theorem Chip.finish_eq (before p : Chip) : Chip.finish before p = (Chip.settle before p).report := rfl

@[simp] theorem Chip.finish_masses (before p : Chip) : (Chip.finish before p).masses = p.masses := by
  rw [Chip.finish_eq, Chip.report_masses]
  simp only [Chip.settle, Chip.keep_masses]

@[simp] theorem Chip.finish_bays (before p : Chip) : (Chip.finish before p).bays = p.bays := by
  rw [Chip.finish_eq, Chip.report_bays]
  simp only [Chip.settle, Chip.keep_bays]

@[simp] theorem Chip.finish_sensors (before p : Chip) : (Chip.finish before p).sensors = p.sensors := by
  rw [Chip.finish_eq, Chip.report_sensors]
  simp only [Chip.settle, Chip.keep_sensors]

@[simp] theorem Chip.finish_units (before p : Chip) : (Chip.finish before p).units = p.units := by
  rw [Chip.finish_eq, Chip.report_units]
  simp only [Chip.settle, Chip.keep_units]

@[simp] theorem Chip.finish_links (before p : Chip) : (Chip.finish before p).links = p.links := by
  rw [Chip.finish_eq, Chip.report_links]
  simp only [Chip.settle, Chip.keep_links]

@[simp] theorem Chip.finish_orders (before p : Chip) : (Chip.finish before p).orders = p.orders := by
  rw [Chip.finish_eq, Chip.report_orders]
  simp only [Chip.settle, Chip.keep_orders]

@[simp] theorem Chip.finish_params (before p : Chip) : (Chip.finish before p).params = p.params := by
  rw [Chip.finish_eq, Chip.report_params]
  simp only [Chip.settle, Chip.keep_params]

@[simp] theorem Chip.finish_hoistParams (before p : Chip) : (Chip.finish before p).hoistParams = p.hoistParams := by
  rw [Chip.finish_eq, Chip.report_hoistParams]
  simp only [Chip.settle, Chip.keep_hoistParams]

@[simp] theorem Chip.finish_draws (before p : Chip) : (Chip.finish before p).draws = p.draws := by
  rw [Chip.finish_eq, Chip.report_draws]
  simp only [Chip.settle, Chip.keep_draws]

@[simp] theorem Chip.finish_mass (before p : Chip) (m : MassId) : (Chip.finish before p).mass m = p.mass m := by
  unfold Chip.mass
  rw [Chip.finish_masses]

@[simp] theorem Chip.finish_bay (before p : Chip) (b : BayId) : (Chip.finish before p).bay b = p.bay b := by
  unfold Chip.bay
  rw [Chip.finish_bays]

@[simp] theorem Chip.finish_unit (before p : Chip) (k : HoistId) : (Chip.finish before p).unit k = p.unit k := by
  unfold Chip.unit
  rw [Chip.finish_units]

@[simp] theorem Chip.finish_link (before p : Chip) (k : HoistId) : (Chip.finish before p).link k = p.link k := by
  unfold Chip.link
  rw [Chip.finish_links]

@[simp] theorem Chip.finish_hp (before p : Chip) (k : HoistId) : (Chip.finish before p).hp k = p.hp k := by
  unfold Chip.hp
  rw [Chip.finish_hoistParams]

@[simp] theorem Chip.finish_interlock (before p : Chip) : (Chip.finish before p).interlock = p.interlock := by
  unfold Chip.interlock
  rw [Chip.finish_sensors]

/-- What every hoist holds after the end of an event. -/
theorem Chip.finish_hoist (before p : Chip) (h : HoistId) : (Chip.finish before p).hoist h = p.keptHoist h := by
  show (Chip.settle before p).hoist h = _
  unfold Chip.settle
  have n1 : ∀ k : HoistId, k = 0 ∨ k = 1 ∨ k = 2 ∨ k = 3 := by decide
  rcases n1 h with e | e | e | e <;> subst e <;> simp [Chip.keep_hoist, Chip.keep_keptHoist]

@[simp] theorem Chip.finish_ableLaw (before p : Chip) (h : HoistId) :
    (Chip.finish before p).ableLaw h = p.ableLaw h := by
  unfold Chip.ableLaw
  rw [Chip.finish_hoist, Chip.finish_link, Chip.finish_unit]
  rfl

@[simp] theorem Chip.finish_brakeLaw (before p : Chip) (h : HoistId) :
    (Chip.finish before p).brakeLaw h = p.brakeLaw h := by
  unfold Chip.brakeLaw Chip.brakeIn
  rw [Chip.finish_hoist, Chip.finish_link, Chip.finish_interlock]
  rfl

/-- Able is true to its conditions after every event (R89). -/
theorem Chip.finish_able (before p : Chip) (h : HoistId) :
    ((Chip.finish before p).hoist h).able = (Chip.finish before p).ableLaw h := by
  rw [Chip.finish_ableLaw, Chip.finish_hoist]
  rfl

/-- The brake command is true to its law after every event (R93). -/
theorem Chip.finish_brake (before p : Chip) (h : HoistId) :
    ((Chip.finish before p).hoist h).brake = (Chip.finish before p).brakeLaw h := by
  rw [Chip.finish_brakeLaw, Chip.finish_hoist]
  rfl

/-- The reference is 0 while the brake command is SET (R152). -/
theorem Chip.finish_stopped (before p : Chip) (h : HoistId)
    (braked : ((Chip.finish before p).hoist h).brake = .set) : ((Chip.finish before p).hoist h).speedRef = 0 := by
  rw [Chip.finish_hoist] at braked ⊢
  exact if_pos braked

@[simp] theorem Chip.finish_pointer (before p : Chip) :
    (Chip.finish before p).selector.pointer = p.selector.pointer := rfl

@[simp] theorem Chip.finish_serving (before p : Chip) :
    (Chip.finish before p).selector.serving = p.selector.serving := rfl

/-- A selection request that was pending stays pending through the end of an event. -/
theorem Chip.finish_request_of (before p : Chip) (pending : p.selector.request = true) :
    (Chip.finish before p).selector.request = true := by
  show (Chip.settle before p).selector.request = true
  unfold Chip.settle
  simp [Chip.keep_request, pending]

/-- A hoist that becomes able raises a selection request (R89, R126). -/
theorem Chip.finish_request_joined (before p : Chip) (h : HoistId) (able : p.ableLaw h = true)
    (notYet : (p.hoist h).able = false) : (Chip.finish before p).selector.request = true := by
  show (Chip.settle before p).selector.request = true
  unfold Chip.settle
  have n1 : ∀ k : HoistId, k = 0 ∨ k = 1 ∨ k = 2 ∨ k = 3 := by decide
  rcases n1 h with e | e | e | e <;> subst e <;>
    simp [Chip.keep_request, Chip.keep_ableLaw, Chip.keep_hoist, able, notYet]

@[simp] theorem Chip.finish_setpoint (before p : Chip) : (Chip.finish before p).power.setpoint = p.power.setpoint := rfl

@[simp] theorem Chip.finish_mode (before p : Chip) : (Chip.finish before p).power.mode = p.power.mode := rfl

@[simp] theorem Chip.finish_eligible (before p : Chip) : (Chip.finish before p).power.eligible = p.power.eligible := rfl

@[simp] theorem Chip.finish_share (before p : Chip) : (Chip.finish before p).power.share = p.power.share := rfl

@[simp] theorem Chip.finish_total (before p : Chip) : (Chip.finish before p).power.total = p.power.total := rfl

@[simp] theorem Chip.finish_unserved (before p : Chip) : (Chip.finish before p).power.unserved = p.power.unserved := rfl

@[simp] theorem Chip.finish_modeRequests (before p : Chip) : (Chip.finish before p).power.modeRequests = p.power.modeRequests := rfl

/-- A change of a hoist's phase or trip is handed to the Power Allocator (R141). -/
theorem Chip.finish_handed (before p : Chip) (h : HoistId) :
    (Chip.finish before p).power.handed.get h =
      (p.power.handed.get h || decide ((before.hoist h).powerView ≠ (p.hoist h).powerView)) := by
  show (Chip.settle before p).power.handed.get h = _
  unfold Chip.settle
  have n1 : ∀ k : HoistId, k = 0 ∨ k = 1 ∨ k = 2 ∨ k = 3 := by decide
  rcases n1 h with e | e | e | e <;> subst e <;> simp [Chip.keep_handed, Chip.keep_hoist]

/-- The conditions read only what the end of an event leaves. -/
theorem Chip.finish_conditions (before p : Chip) : (Chip.finish before p).conditions = p.conditions := by
  unfold Chip.conditions
  simp only [Chip.finish_hoist, Chip.finish_link, Chip.finish_bays, Chip.finish_masses, Chip.finish_unserved,
    Chip.finish_params]
  rfl

theorem Chip.settle_conditions (before p : Chip) : (Chip.settle before p).conditions = p.conditions :=
  Chip.finish_conditions before p

/-- The attention set after an event is the set of the conditions then present (R190). -/
theorem Chip.finish_attention (before p : Chip) :
    (Chip.finish before p).port.attention = (Chip.finish before p).conditions := by
  rw [Chip.finish_conditions]
  exact Chip.settle_conditions before p

/-- CHANGED after an event: as it was, or set by a condition that has become present (R190). -/
theorem Chip.finish_changed (before p : Chip) :
    (Chip.finish before p).port.changed = (p.port.changed || p.port.attention.rises p.conditions) := by
  show (p.port.changed || p.port.attention.rises (Chip.settle before p).conditions) = _
  rw [Chip.settle_conditions]

/-- The end of an event touches no other item of the port. -/
theorem Chip.finish_port (before p : Chip) :
    (Chip.finish before p).port =
      { p.port with
        attention := p.conditions, changed := p.port.changed || p.port.attention.rises p.conditions } := by
  rw [← Chip.finish_changed before p, ← Chip.finish_conditions before p, ← Chip.finish_attention before p]
  rfl

@[simp] theorem Chip.finish_rate (before p : Chip) : (Chip.finish before p).port.rate = p.port.rate := rfl

@[simp] theorem Chip.finish_buffer (before p : Chip) : (Chip.finish before p).port.buffer = p.port.buffer := rfl

@[simp] theorem Chip.finish_gap (before p : Chip) : (Chip.finish before p).port.gap = p.port.gap := rfl

@[simp] theorem Chip.finish_inHand (before p : Chip) : (Chip.finish before p).port.inHand = p.port.inHand := rfl

@[simp] theorem Chip.finish_nextFrame (before p : Chip) : (Chip.finish before p).port.nextFrame = p.port.nextFrame := rfl

@[simp] theorem Chip.finish_sending (before p : Chip) : (Chip.finish before p).port.sending = p.port.sending := rfl

@[simp] theorem Chip.finish_restart (before p : Chip) : (Chip.finish before p).port.restart = p.port.restart := rfl

@[simp] theorem Chip.finish_lengthErrors (before p : Chip) : (Chip.finish before p).port.lengthErrors = p.port.lengthErrors := rfl

@[simp] theorem Chip.finish_characterErrors (before p : Chip) : (Chip.finish before p).port.characterErrors = p.port.characterErrors := rfl

@[simp] theorem Chip.finish_checkErrors (before p : Chip) : (Chip.finish before p).port.checkErrors = p.port.checkErrors := rfl

@[simp] theorem Chip.finish_overruns (before p : Chip) : (Chip.finish before p).port.overruns = p.port.overruns := rfl

@[simp] theorem Chip.finish_answered (before p : Chip) : (Chip.finish before p).port.answered = p.port.answered := rfl

@[simp] theorem Chip.finish_refusals (before p : Chip) : (Chip.finish before p).port.refusals = p.port.refusals := rfl

end Sys2Proof.Machine
end

