-- ==== Sys2Proof/Laws/Ends.lean ====
section
/-! SUPPORT. What the ends of a meaning do: an event, a query and a command, and the reply whose sending begins. -/

namespace Sys2Proof.Machine

/-! ### Replies -/

theorem Chip.reply_of_none (p : Chip) (a : Answer) (empty : p.port.inHand = none) : p.reply a = p := by
  unfold Chip.reply
  rw [empty]

/-- All that a reply does: its sending begins, the two counts move, and the draws counter. -/
theorem Chip.reply_of_some (p : Chip) (a : Answer) (f : Frame) (inHand : p.port.inHand = some f) :
    p.reply a =
      { p with
        draws := p.draws + 1
        port := { p.port with
          sending := some (replyOf f a)
          answered := satInc16 p.port.answered
          refusals := if a.status.isRefusal then satInc16 p.port.refusals else p.port.refusals } } := by
  unfold Chip.reply
  rw [inHand]

@[simp] theorem Chip.reply_masses (p : Chip) (a : Answer) : (p.reply a).masses = p.masses := by
  unfold Chip.reply
  split <;> rfl

@[simp] theorem Chip.reply_bays (p : Chip) (a : Answer) : (p.reply a).bays = p.bays := by
  unfold Chip.reply
  split <;> rfl

@[simp] theorem Chip.reply_sensors (p : Chip) (a : Answer) : (p.reply a).sensors = p.sensors := by
  unfold Chip.reply
  split <;> rfl

@[simp] theorem Chip.reply_units (p : Chip) (a : Answer) : (p.reply a).units = p.units := by
  unfold Chip.reply
  split <;> rfl

@[simp] theorem Chip.reply_hoists (p : Chip) (a : Answer) : (p.reply a).hoists = p.hoists := by
  unfold Chip.reply
  split <;> rfl

@[simp] theorem Chip.reply_selector (p : Chip) (a : Answer) : (p.reply a).selector = p.selector := by
  unfold Chip.reply
  split <;> rfl

@[simp] theorem Chip.reply_orders (p : Chip) (a : Answer) : (p.reply a).orders = p.orders := by
  unfold Chip.reply
  split <;> rfl

@[simp] theorem Chip.reply_power (p : Chip) (a : Answer) : (p.reply a).power = p.power := by
  unfold Chip.reply
  split <;> rfl

@[simp] theorem Chip.reply_links (p : Chip) (a : Answer) : (p.reply a).links = p.links := by
  unfold Chip.reply
  split <;> rfl

@[simp] theorem Chip.reply_params (p : Chip) (a : Answer) : (p.reply a).params = p.params := by
  unfold Chip.reply
  split <;> rfl

@[simp] theorem Chip.reply_hoistParams (p : Chip) (a : Answer) : (p.reply a).hoistParams = p.hoistParams := by
  unfold Chip.reply
  split <;> rfl

@[simp] theorem Chip.reply_mass (p : Chip) (a : Answer) (m : MassId) : (p.reply a).mass m = p.mass m := by
  unfold Chip.reply
  split <;> rfl

@[simp] theorem Chip.reply_bay (p : Chip) (a : Answer) (b : BayId) : (p.reply a).bay b = p.bay b := by
  unfold Chip.reply
  split <;> rfl

@[simp] theorem Chip.reply_hoist (p : Chip) (a : Answer) (k : HoistId) : (p.reply a).hoist k = p.hoist k := by
  unfold Chip.reply
  split <;> rfl

@[simp] theorem Chip.reply_unit (p : Chip) (a : Answer) (k : HoistId) : (p.reply a).unit k = p.unit k := by
  unfold Chip.reply
  split <;> rfl

@[simp] theorem Chip.reply_link (p : Chip) (a : Answer) (k : HoistId) : (p.reply a).link k = p.link k := by
  unfold Chip.reply
  split <;> rfl

@[simp] theorem Chip.reply_hp (p : Chip) (a : Answer) (k : HoistId) : (p.reply a).hp k = p.hp k := by
  unfold Chip.reply
  split <;> rfl

@[simp] theorem Chip.reply_rate (p : Chip) (a : Answer) : (p.reply a).port.rate = p.port.rate := by
  unfold Chip.reply
  split <;> rfl

@[simp] theorem Chip.reply_buffer (p : Chip) (a : Answer) : (p.reply a).port.buffer = p.port.buffer := by
  unfold Chip.reply
  split <;> rfl

@[simp] theorem Chip.reply_gap (p : Chip) (a : Answer) : (p.reply a).port.gap = p.port.gap := by
  unfold Chip.reply
  split <;> rfl

@[simp] theorem Chip.reply_inHand (p : Chip) (a : Answer) : (p.reply a).port.inHand = p.port.inHand := by
  unfold Chip.reply
  split <;> rfl

@[simp] theorem Chip.reply_nextFrame (p : Chip) (a : Answer) : (p.reply a).port.nextFrame = p.port.nextFrame := by
  unfold Chip.reply
  split <;> rfl

@[simp] theorem Chip.reply_restart (p : Chip) (a : Answer) : (p.reply a).port.restart = p.port.restart := by
  unfold Chip.reply
  split <;> rfl

@[simp] theorem Chip.reply_attention (p : Chip) (a : Answer) : (p.reply a).port.attention = p.port.attention := by
  unfold Chip.reply
  split <;> rfl

@[simp] theorem Chip.reply_changed (p : Chip) (a : Answer) : (p.reply a).port.changed = p.port.changed := by
  unfold Chip.reply
  split <;> rfl

@[simp] theorem Chip.reply_lengthErrors (p : Chip) (a : Answer) : (p.reply a).port.lengthErrors = p.port.lengthErrors := by
  unfold Chip.reply
  split <;> rfl

@[simp] theorem Chip.reply_characterErrors (p : Chip) (a : Answer) : (p.reply a).port.characterErrors = p.port.characterErrors := by
  unfold Chip.reply
  split <;> rfl

@[simp] theorem Chip.reply_checkErrors (p : Chip) (a : Answer) : (p.reply a).port.checkErrors = p.port.checkErrors := by
  unfold Chip.reply
  split <;> rfl

@[simp] theorem Chip.reply_overruns (p : Chip) (a : Answer) : (p.reply a).port.overruns = p.port.overruns := by
  unfold Chip.reply
  split <;> rfl

@[simp] theorem Chip.reply_interlock (p : Chip) (a : Answer) : (p.reply a).interlock = p.interlock := by
  unfold Chip.interlock
  rw [Chip.reply_sensors]

@[simp] theorem Chip.reply_ableLaw (p : Chip) (a : Answer) (h : HoistId) : (p.reply a).ableLaw h = p.ableLaw h := by
  unfold Chip.ableLaw
  rw [Chip.reply_hoist, Chip.reply_link, Chip.reply_unit]

@[simp] theorem Chip.reply_brakeLaw (p : Chip) (a : Answer) (h : HoistId) : (p.reply a).brakeLaw h = p.brakeLaw h := by
  unfold Chip.brakeLaw Chip.brakeIn
  rw [Chip.reply_hoist, Chip.reply_link, Chip.reply_interlock]

@[simp] theorem Chip.reply_conditions (p : Chip) (a : Answer) : (p.reply a).conditions = p.conditions := by
  unfold Chip.conditions
  simp only [Chip.reply_hoist, Chip.reply_link, Chip.reply_bays, Chip.reply_masses, Chip.reply_power, Chip.reply_params]

/-! ### The command handed over -/

/-- A command handed over is that of the frame in hand, with no reply being sent and no RESTART under way. -/
theorem Chip.handedCommand_eq_some (p : Chip) (i : Instr) (handed : p.handedCommand = some i) :
    ∃ f, p.port.inHand = some f ∧ f.command = some i ∧ p.port.sending = none ∧ p.port.restart = none := by
  unfold Chip.handedCommand at handed
  split at handed
  · rename_i f h1 h2 h3
    exact ⟨f, h1, handed, h2, h3⟩
  · exact absurd handed (by simp)

/-- Once its reply's sending has begun, the command is no longer handed over. -/
theorem Chip.handedCommand_of_sending (p : Chip) (r : Reply) (sending : p.port.sending = some r) :
    p.handedCommand = none := by
  unfold Chip.handedCommand
  rw [sending]
  cases p.port.inHand <;> rfl

/-! ### The three ends -/

theorem State.event_of (s : State) (arises : Bool) (effect : Chip) (yes : arises = true) :
    s.event arises effect = .next { s with chip := s.chip.finish effect } := by
  unfold State.event
  rw [if_pos yes]
  rfl

theorem State.event_of_not (s : State) (arises : Bool) (effect : Chip) (no : arises = false) :
    s.event arises effect = .next s := by
  unfold State.event
  rw [no]
  rfl

/-- All that an event can do. -/
theorem State.event_next (s t : State) (arises : Bool) (effect : Chip) (next : s.event arises effect = .next t) :
    t = s ∨ (arises = true ∧ t = { s with chip := s.chip.finish effect }) := by
  cases e : arises with
  | true =>
    rw [State.event_of _ _ _ e] at next
    exact Or.inr ⟨rfl, (Host.Outcome.next.inj next).symm⟩
  | false =>
    rw [State.event_of_not _ _ _ e] at next
    exact Or.inl (Host.Outcome.next.inj next).symm

theorem State.query_of (s : State) (i : Instr) (a : Answer) (handed : s.chip.handedCommand = some i) :
    s.query i a = .next { s with chip := s.chip.reply a } := by
  unfold State.query
  rw [if_pos handed]
  rfl

theorem State.query_of_not (s : State) (i : Instr) (a : Answer) (no : s.chip.handedCommand ≠ some i) :
    s.query i a = .next s := by
  unfold State.query
  rw [if_neg no]

/-- All that a query can do. -/
theorem State.query_next (s t : State) (i : Instr) (a : Answer) (next : s.query i a = .next t) :
    t = s ∨ (s.chip.handedCommand = some i ∧ t = { s with chip := s.chip.reply a }) := by
  by_cases e : s.chip.handedCommand = some i
  · rw [State.query_of _ _ _ e] at next
    exact Or.inr ⟨e, (Host.Outcome.next.inj next).symm⟩
  · rw [State.query_of_not _ _ _ e] at next
    exact Or.inl (Host.Outcome.next.inj next).symm

theorem State.command_of_refused (s : State) (i : Instr) (taken : Chip × Answer)
    (handed : s.chip.handedCommand = some i) (refused : taken.2.status.isRefusal = true) :
    s.command i taken = .next { s with chip := s.chip.reply taken.2 } := by
  unfold State.command
  rw [if_pos handed, if_pos refused]
  rfl

theorem State.command_of_done (s : State) (i : Instr) (taken : Chip × Answer)
    (handed : s.chip.handedCommand = some i) (carriedOut : taken.2.status.isRefusal = false) :
    s.command i taken = .next { s with chip := (s.chip.finish taken.1).reply taken.2 } := by
  unfold State.command
  rw [if_pos handed, carriedOut]
  rfl

theorem State.command_of_not (s : State) (i : Instr) (taken : Chip × Answer)
    (no : s.chip.handedCommand ≠ some i) : s.command i taken = .next s := by
  unfold State.command
  rw [if_neg no]

/-- All that a command can do: nothing, where it has not been handed over; a refusal; its effect, with its reply. -/
theorem State.command_next (s t : State) (i : Instr) (taken : Chip × Answer) (next : s.command i taken = .next t) :
    t = s ∨
    (s.chip.handedCommand = some i ∧ taken.2.status.isRefusal = true ∧ t = { s with chip := s.chip.reply taken.2 }) ∨
    (s.chip.handedCommand = some i ∧ taken.2.status.isRefusal = false ∧
      t = { s with chip := (s.chip.finish taken.1).reply taken.2 }) := by
  by_cases e : s.chip.handedCommand = some i
  · cases r : taken.2.status.isRefusal with
    | true =>
      rw [State.command_of_refused _ _ _ e r] at next
      exact Or.inr (Or.inl ⟨e, rfl, (Host.Outcome.next.inj next).symm⟩)
    | false =>
      rw [State.command_of_done _ _ _ e r] at next
      exact Or.inr (Or.inr ⟨e, rfl, (Host.Outcome.next.inj next).symm⟩)
  · rw [State.command_of_not _ _ _ e] at next
    exact Or.inl (Host.Outcome.next.inj next).symm

/-! ### Answers -/

@[simp] theorem refuse_isRefusal (r : Reason) : (refuse r).status.isRefusal = true := rfl

@[simp] theorem answerDone_isRefusal (fields : List Byte) : (answerDone fields).status.isRefusal = false := rfl

@[simp] theorem answerDone_status (fields : List Byte) : (answerDone fields).status = .done := rfl

@[simp] theorem answerTaken_isRefusal (adjusted : Bool) (fields : List Byte) :
    (answerTaken adjusted fields).status.isRefusal = false := by cases adjusted <;> rfl

/-- A result always has 24 bytes (R184). -/
theorem resultBytes_length (l : List Byte) : (resultBytes l).length = 24 := by
  unfold resultBytes
  simp

/-! ### Operand forms -/

theorem hoistOf_val (h : HoistId) : hoistOf h.val = some h := by
  unfold hoistOf
  rw [dif_pos h.isLt]

theorem hoistOf_eq_some (n : Nat) (h : HoistId) (e : hoistOf n = some h) : n = h.val := by
  unfold hoistOf at e
  split at e
  · injection e with e; subst e; rfl
  · exact absurd e (by simp)

theorem bayOf_val (b : BayId) : bayOf b.val = some b := by
  unfold bayOf
  rw [dif_pos b.isLt]

theorem bayOf_eq_some (n : Nat) (b : BayId) (e : bayOf n = some b) : n = b.val := by
  unfold bayOf at e
  split at e
  · injection e with e; subst e; rfl
  · exact absurd e (by simp)

theorem massOf_massNumber (m : MassId) : massOf (massNumber m) = some m := by
  unfold massOf massNumber
  have := m.isLt
  rw [dif_pos (by omega)]
  rfl

theorem massOf_eq_some (n : Nat) (m : MassId) (e : massOf n = some m) : n = massNumber m := by
  unfold massOf at e
  split at e
  · injection e with e
    subst e
    unfold massNumber
    simp
    omega
  · exact absurd e (by simp)

end Sys2Proof.Machine
end

