-- ==== Sys2Proof/Laws/Kept.lean ====
section
/-! SUPPORT. What the end of an event and a reply do in a part whose items are true to its records (`Chip.Kept`). -/

namespace Sys2Proof.Machine

/-- Every event leaves the items true to the records, whatever it did to the records. -/
theorem Chip.finish_kept (before p : Chip) : (Chip.finish before p).Kept :=
  ⟨Chip.finish_able before p, Chip.finish_brake before p, Chip.finish_stopped before p, Chip.finish_attention before p⟩

theorem Chip.Kept.reply {p : Chip} (kept : p.Kept) (a : Answer) : (p.reply a).Kept where
  able h := by rw [Chip.reply_hoist, Chip.reply_ableLaw]; exact kept.able h
  brake h := by rw [Chip.reply_hoist, Chip.reply_brakeLaw]; exact kept.brake h
  stopped h := by rw [Chip.reply_hoist]; exact kept.stopped h
  attention := by rw [Chip.reply_attention, Chip.reply_conditions]; exact kept.attention

/-- A hoist is as the records have it. -/
theorem Chip.Kept.keptHoist {p : Chip} (kept : p.Kept) (h : HoistId) : p.keptHoist h = p.hoist h := by
  have speed : (if p.brakeLaw h = .set then 0 else (p.hoist h).speedRef) = (p.hoist h).speedRef := by
    by_cases e : p.brakeLaw h = .set
    · rw [if_pos e, kept.stopped h ((kept.brake h).trans e)]
    · rw [if_neg e]
  unfold Chip.keptHoist
  rw [speed, ← kept.able h, ← kept.brake h]

/-- The kept items of a hoist read its controller, its link, its unit's referenced flag and the interlock, and nothing else. -/
theorem Chip.keptHoist_congr {p q : Chip} {h : HoistId} (hoist : q.hoist h = p.hoist h) (link : q.link h = p.link h)
    (referenced : (q.unit h).referenced = (p.unit h).referenced) (interlock : q.interlock = p.interlock) :
    q.keptHoist h = p.keptHoist h := by
  unfold Chip.keptHoist Chip.ableLaw Chip.brakeLaw Chip.brakeIn
  rw [hoist, link, referenced, interlock]

/-- An event that leaves a hoist's controller, its link, its referenced flag and the interlock as they were leaves the controller as it was
after its end as well. -/
theorem Chip.finish_hoist_same {before p : Chip} {h : HoistId} (kept : before.Kept) (hoist : p.hoist h = before.hoist h)
    (link : p.link h = before.link h) (referenced : (p.unit h).referenced = (before.unit h).referenced)
    (interlock : p.interlock = before.interlock) : (Chip.finish before p).hoist h = before.hoist h := by
  rw [Chip.finish_hoist, Chip.keptHoist_congr hoist link referenced interlock, kept.keptHoist]

/-- A state of the four hoists is given hoist by hoist. -/
theorem Chip.hoists_ext {p q : Chip} (same : ∀ h, q.hoist h = p.hoist h) : q.hoists = p.hoists := by
  have e0 : q.hoists.h0 = p.hoists.h0 := same 0
  have e1 : q.hoists.h1 = p.hoists.h1 := same 1
  have e2 : q.hoists.h2 = p.hoists.h2 := same 2
  have e3 : q.hoists.h3 = p.hoists.h3 := same 3
  cases hq : q.hoists
  cases hp : p.hoists
  simp_all

/-- A part is given by its components; the four that the end of an event may move are named. -/
theorem Chip.eq_moved {p q : Chip} (masses : q.masses = p.masses) (bays : q.bays = p.bays)
    (sensors : q.sensors = p.sensors) (units : q.units = p.units) (orders : q.orders = p.orders)
    (links : q.links = p.links) (params : q.params = p.params) (hoistParams : q.hoistParams = p.hoistParams)
    (draws : q.draws = p.draws) :
    q = { p with hoists := q.hoists, selector := q.selector, power := q.power, port := q.port } := by
  cases q
  cases p
  simp_all

/-- The end of an event moves the controllers, the selector, the allocator and the port only. -/
theorem Chip.finish_moved (before p : Chip) :
    Chip.finish before p = { p with
      hoists := (Chip.finish before p).hoists, selector := (Chip.finish before p).selector
      power := (Chip.finish before p).power, port := (Chip.finish before p).port } :=
  Chip.eq_moved (Chip.finish_masses _ _) (Chip.finish_bays _ _) (Chip.finish_sensors _ _) (Chip.finish_units _ _)
    (Chip.finish_orders _ _) (Chip.finish_links _ _) (Chip.finish_params _ _) (Chip.finish_hoistParams _ _)
    (Chip.finish_draws _ _)

/-- All that the end of an event does where the event left the controllers, the links, the referenced flags and the interlock as they were:
the conditions are reported. -/
theorem Chip.finish_quiet {before p : Chip} (kept : before.Kept) (hoists : p.hoists = before.hoists)
    (links : p.links = before.links) (referenced : ∀ h, (p.unit h).referenced = (before.unit h).referenced)
    (interlock : p.interlock = before.interlock) :
    Chip.finish before p = { p with port := { p.port with
      attention := p.conditions, changed := p.port.changed || p.port.attention.rises p.conditions } } := by
  have hoist : ∀ h, p.hoist h = before.hoist h := fun h => by unfold Chip.hoist; rw [hoists]
  have link : ∀ h, p.link h = before.link h := fun h => by unfold Chip.link; rw [links]
  have able : ∀ h, p.ableLaw h = (p.hoist h).able := fun h => by
    rw [hoist h, kept.able h]
    unfold Chip.ableLaw
    rw [hoist h, link h, referenced h]
  have request : (Chip.finish before p).selector.request = p.selector.request := by
    show (Chip.settle before p).selector.request = _
    unfold Chip.settle
    simp [Chip.keep_request, Chip.keep_ableLaw, Chip.keep_hoist, able]
  have handed : (Chip.finish before p).power.handed = p.power.handed := by
    have each : ∀ h, (Chip.finish before p).power.handed.get h = p.power.handed.get h := fun h => by
      rw [Chip.finish_handed, hoist h]
      simp
    have e0 := each 0
    have e1 := each 1
    have e2 := each 2
    have e3 := each 3
    simp only [Quad.get] at e0 e1 e2 e3
    cases hq : (Chip.finish before p).power.handed
    cases hp : p.power.handed
    simp_all
  have controllers : (Chip.finish before p).hoists = p.hoists :=
    Chip.hoists_ext fun h => by
      rw [Chip.finish_hoist_same kept (hoist h) (link h) (referenced h) interlock, hoist h]
  have selector : (Chip.finish before p).selector = p.selector := by
    have e : (Chip.finish before p).selector =
        { p.selector with request := (Chip.finish before p).selector.request } := rfl
    rw [e, request]
  have power : (Chip.finish before p).power = p.power := by
    have e : (Chip.finish before p).power = { p.power with handed := (Chip.finish before p).power.handed } := rfl
    rw [e, handed]
  rw [Chip.finish_moved before p, controllers, selector, power, Chip.finish_port]

/-- An event that changes nothing leaves the part as it was. -/
theorem Chip.finish_self {p : Chip} (kept : p.Kept) : Chip.finish p p = p := by
  have rises : p.port.attention.rises p.conditions = false := by
    rw [kept.attention]
    simp [Attention.rises]
  rw [Chip.finish_quiet kept rfl rfl (fun _ => rfl) rfl, rises, ← kept.attention, Bool.or_false]

/-! ### Frames -/

theorem Chip.unchangedBut_refl (p : Chip) (parts : List Part) : p.unchangedBut p parts := by
  intro x _
  cases x <;> rfl

theorem Chip.unchangedBut_trans {p q r : Chip} {parts : List Part} (first : p.unchangedBut q parts)
    (second : q.unchangedBut r parts) : p.unchangedBut r parts := by
  intro x out
  have a := first x out
  have b := second x out
  cases x <;> exact b.trans a

theorem Chip.unchangedBut_mono {p q : Chip} {parts more : List Part} (frame : p.unchangedBut q parts)
    (within : ∀ x ∈ parts, x ∈ more) : p.unchangedBut q more :=
  fun x out => frame x fun inside => out (within x inside)

/-- The end of an event touches no part but the controllers, the selector, the allocator and the port. -/
theorem Chip.finish_unchangedBut (before p : Chip) :
    p.unchangedBut (Chip.finish before p) [.hoists, .selector, .power, .port] := by
  intro x out
  cases x <;> simp at out <;> simp [Chip.same]

/-- A reply touches the port only. -/
theorem Chip.reply_unchangedBut (p : Chip) (a : Answer) : p.unchangedBut (p.reply a) [.port] := by
  intro x out
  cases x <;> simp at out <;> simp [Chip.same]

end Sys2Proof.Machine
end

