-- ==== Sys2Proof/Laws/PerInstr.lean ====
section
/-! SUPPORT. The family Frame: a command that a frame carries has a code of one byte and payload bytes that fit the 26 of a frame
(spec/11 R194), one lemma for each command. -/

namespace Sys2Proof.Laws.Frame

/-- The command's code is one byte and its fields fit a frame's payload, where a frame carries it at all. -/
def Statement (i : Instr) : Prop :=
  ∀ code fields, i.payload = some (code, fields) → code < 256 ∧ fields.length ≤ 26

/-- A command that no frame carries. -/
theorem of_none {i : Instr} (e : i.payload = none) : Statement i := by
  intro code fields h
  rw [e] at h
  exact absurd h (by simp)

/-- A command that a frame carries, by its code and fields. -/
theorem of_some {i : Instr} {code : Nat} {fields : List Byte} (e : i.payload = some (code, fields)) (c : code < 256)
    (l : fields.length ≤ 26) : Statement i := by
  intro code' fields' h
  rw [e] at h
  cases h
  exact ⟨c, l⟩

theorem powerOnReset (straps : BitVec 2) (channels : Quad Channels) : Statement (.powerOnReset straps channels) := of_none rfl

theorem millisecondMark (line : Interlock) : Statement (.millisecondMark line) := of_none rfl

theorem segmentEvent (h : HoistId) : Statement (.segmentEvent h) := of_none rfl

theorem linkTimeout (h : HoistId) : Statement (.linkTimeout h) := of_none rfl

theorem hoistLinkReply (h : HoistId) (byte : Byte) : Statement (.hoistLinkReply h byte) := of_none rfl

theorem replyPartialTimeout (h : HoistId) : Statement (.replyPartialTimeout h) := of_none rfl

theorem filterSampleInstant (sample : GroupSample) : Statement (.filterSampleInstant sample) := of_none rfl

theorem interlockClosedAcceptance : Statement .interlockClosedAcceptance := of_none rfl

theorem interlockHalt (h : HoistId) : Statement (.interlockHalt h) := of_none rfl

theorem interlockClosedTaken (h : HoistId) : Statement (.interlockClosedTaken h) := of_none rfl

theorem markerPulse (h : HoistId) : Statement (.markerPulse h) := of_none rfl

theorem encoderEdge (h : HoistId) (levels : Channels) : Statement (.encoderEdge h levels) := of_none rfl

theorem phaseTimerExpiry (h : HoistId) : Statement (.phaseTimerExpiry h) := of_none rfl

theorem dwellLimitExpiry (h : HoistId) : Statement (.dwellLimitExpiry h) := of_none rfl

theorem servingStart : Statement .servingStart := of_none rfl

theorem tryHoist : Statement .tryHoist := of_none rfl

theorem eligibilityReevaluation (h : HoistId) : Statement (.eligibilityReevaluation h) := of_none rfl

theorem endTripsOfAnotherKind (h : HoistId) : Statement (.endTripsOfAnotherKind h) := of_none rfl

theorem frameComplete (byte : Byte) : Statement (.frameComplete byte) := of_none rfl

theorem frameGapTimeout : Statement .frameGapTimeout := of_none rfl

theorem characterError : Statement .characterError := of_none rfl

theorem replyEnd : Statement .replyEnd := of_none rfl

theorem getMass (mass : Nat) : Statement (.getMass mass) := of_some rfl (by decide) (by simp)

theorem nextMass (start filter : Nat) : Statement (.nextMass start filter) := of_some rfl (by decide) (by simp)

theorem getBay (bay : Nat) : Statement (.getBay bay) := of_some rfl (by decide) (by simp)

theorem nextBay (start filter : Nat) : Statement (.nextBay start filter) := of_some rfl (by decide) (by simp)

theorem getHoist (hoist page : Nat) : Statement (.getHoist hoist page) := of_some rfl (by decide) (by simp)

theorem getOrder (position : Nat) : Statement (.getOrder position) := of_some rfl (by decide) (by simp)

theorem getEnergy (page : Nat) : Statement (.getEnergy page) := of_some rfl (by decide) (by simp)

theorem getParam (identifier hoist : Nat) : Statement (.getParam identifier hoist) := of_some rfl (by decide) (by simp)

theorem getPlant (page : Nat) : Statement (.getPlant page) := of_some rfl (by decide) (by simp)

theorem snapshot : Statement .snapshot := of_some rfl (by decide) (by simp)

theorem admitMass (mass nominal bay : Nat) : Statement (.admitMass mass nominal bay) := of_some rfl (by decide) (by simp)

theorem amendMass (mass nominal : Nat) : Statement (.amendMass mass nominal) := of_some rfl (by decide) (by simp)

theorem retireMass (mass : Nat) : Statement (.retireMass mass) := of_some rfl (by decide) (by simp)

theorem foundMass (mass bay : Nat) : Statement (.foundMass mass bay) := of_some rfl (by decide) (by simp)

theorem surveyBay (bay elevation access service : Nat) : Statement (.surveyBay bay elevation access service) := of_some rfl (by decide) (by simp)

theorem barBay (bay : Nat) : Statement (.barBay bay) := of_some rfl (by decide) (by simp)

theorem unbarBay (bay : Nat) : Statement (.unbarBay bay) := of_some rfl (by decide) (by simp)

theorem orderMove (mass destination hoist : Nat) : Statement (.orderMove mass destination hoist) := of_some rfl (by decide) (by simp)

theorem cancelOrder (mass : Nat) : Statement (.cancelOrder mass) := of_some rfl (by decide) (by simp)

theorem setPower (kW : Int) : Statement (.setPower kW) := of_some rfl (by decide) (by simp)

theorem holdHoist (hoist mode : Nat) : Statement (.holdHoist hoist mode) := of_some rfl (by decide) (by simp)

theorem resume (hoist : Nat) : Statement (.resume hoist) := of_some rfl (by decide) (by simp)

theorem abandonTrip (hoist : Nat) : Statement (.abandonTrip hoist) := of_some rfl (by decide) (by simp)

theorem retarget (hoist bay : Nat) : Statement (.retarget hoist bay) := of_some rfl (by decide) (by simp)

theorem referenceHoist (hoist bay : Nat) : Statement (.referenceHoist hoist bay) := of_some rfl (by decide) (by simp)

theorem clearFault (hoist : Nat) : Statement (.clearFault hoist) := of_some rfl (by decide) (by simp)

theorem enableHoist (hoist setting : Nat) : Statement (.enableHoist hoist setting) := of_some rfl (by decide) (by simp)

theorem setParam (identifier hoist : Nat) (value : Int) : Statement (.setParam identifier hoist value) := of_some rfl (by decide) (by simp)

theorem restart : Statement .restart := of_some rfl (by decide) (by simp)

theorem restartOrderQueue : Statement .restartOrderQueue := of_none rfl

theorem restartPowerAllocator : Statement .restartPowerAllocator := of_none rfl

theorem restartHoist (h : HoistId) : Statement (.restartHoist h) := of_none rfl

theorem plantLinkByte (byte : Byte) : Statement (.plantLinkByte byte) := of_none rfl

theorem hoistLinkReplyByte (h : HoistId) (byte : Byte) : Statement (.hoistLinkReplyByte h byte) := of_none rfl

end Sys2Proof.Laws.Frame
end

