-- ==== Sys2Proof/Laws/Position.lean ====
section
/-! SUPPORT. Laws of the marker checks: `checkMarker` is the table of R80 that `markerRule` states, and that table has one outcome. -/

namespace Sys2Proof.Machine

variable (slip zp z zb : Nat) (state : MarkerState)

/-- The check of a marker follows the table of R80. -/
theorem markerRule_checkMarker :
    markerRule slip zp z zb state (checkMarker slip zp z zb state).1 (checkMarker slip zp z zb state).2 := by
  intro tested e
  subst e
  unfold checkMarker testMarker apart
  cases state <;> grind

/-- The table of R80 has one outcome, that of `checkMarker`. -/
theorem checkMarker_of_markerRule (after : MarkerState) (missed : Bool)
    (rule : markerRule slip zp z zb state after missed) : checkMarker slip zp z zb state = (after, missed) := by
  have out := rule _ rfl
  unfold checkMarker testMarker
  unfold apart at *
  cases state <;> grind

/-- The markers of a list that are missed, in their order. -/
def missedOf (states : Nat → MarkerState) (expected : List Nat) : List Nat :=
  expected.filter fun e => (checkMarker slip zp z e (states e)).2

theorem satInc16_of_le (n : Nat) (room : n ≤ 65535) : satInc16 n = min 65535 (n + 1) := by
  unfold satInc16 satInc
  split <;> omega

/-- A pass whose misses leave the run below 2 checks every marker (R80, R81). -/
theorem passMarkers_clear (states : Nat → MarkerState) (run missed : Nat) (expected : List Nat) (room : missed ≤ 65535)
    (few : (missedOf slip zp z states expected).length ≤ 1 - run) :
    passMarkers slip zp z states run missed expected =
      { states := (expected.map fun e => (e, (checkMarker slip zp z e (states e)).1)).filter fun x => decide (x.2 ≠ .idle)
        run := run + (missedOf slip zp z states expected).length
        missed := min 65535 (missed + (missedOf slip zp z states expected).length), fault := none } := by
  induction expected generalizing run missed with
  | nil => simp [passMarkers, missedOf]; omega
  | cons e rest ih =>
    rw [passMarkers]
    by_cases miss : (checkMarker slip zp z e (states e)).2 = true
    · have length : (missedOf slip zp z states (e :: rest)).length = (missedOf slip zp z states rest).length + 1 := by
        simp [missedOf, miss]
      have low : ¬1 ≤ run := by omega
      simp only [miss, low, decide_false, Bool.and_false, Bool.false_eq_true, if_false, if_true]
      rw [ih (run + 1) (satInc16 missed) (by rw [satInc16_of_le _ room]; omega) (by omega), satInc16_of_le _ room, length]
      by_cases idle : (checkMarker slip zp z e (states e)).1 = .idle <;> simp [idle] <;> omega
    · have length : (missedOf slip zp z states (e :: rest)).length = (missedOf slip zp z states rest).length := by
        simp [missedOf, miss]
      simp only [miss, Bool.false_and, Bool.false_eq_true, if_false]
      rw [ih run missed room (by omega), length]
      by_cases idle : (checkMarker slip zp z e (states e)).1 = .idle <;> simp [idle]

/-- A pass faults at the miss that raises the run to 2, and ends there (R81, log 15). -/
theorem passMarkers_fault (states : Nat → MarkerState) (run missed : Nat) (expected : List Nat) (zb : Nat) (room : missed ≤ 65535)
    (second : (missedOf slip zp z states expected)[1 - run]? = some zb) :
    passMarkers slip zp z states run missed expected =
      { states := [], run := 0, missed := min 65535 (missed + (1 - run) + 1), fault := some zb } := by
  induction expected generalizing run missed with
  | nil => simp [missedOf] at second
  | cons e rest ih =>
    rw [passMarkers]
    by_cases miss : (checkMarker slip zp z e (states e)).2 = true
    · have list : missedOf slip zp z states (e :: rest) = e :: missedOf slip zp z states rest := by simp [missedOf, miss]
      rw [list] at second
      by_cases low : 1 ≤ run
      · have zero : 1 - run = 0 := by omega
        rw [zero, List.getElem?_cons_zero] at second
        obtain rfl := Option.some.inj second
        simp [miss, low, zero, satInc16_of_le _ room]
      · obtain rfl : run = 0 := by omega
        simp only [miss, low, decide_false, Bool.and_false, Bool.false_eq_true, if_false, if_true]
        rw [ih 1 (satInc16 missed) (by rw [satInc16_of_le _ room]; omega) (by simpa using second), satInc16_of_le _ room]
        simp
        omega
    · have list : missedOf slip zp z states (e :: rest) = missedOf slip zp z states rest := by simp [missedOf, miss]
      rw [list] at second
      simp [miss, ih run missed room second]

end Sys2Proof.Machine
end

