-- ==== Sys2Proof/Laws/Trips.lean ====
section
/-! SUPPORT. The frame of the trip machine: no operation on hoist `h`'s trips touches the sensors, the Position Units, the links, the allocator,
the port, the parameters or another hoist's controller. One lemma for each operation of Machine/Ops.lean and Machine/Trips.lean. -/

namespace Sys2Proof.Machine

/-- `q` differs from `p` in no more than the mass and bay records, the orders, the selector, and hoist `h`'s controller. -/
structure Chip.TripFrame (h : HoistId) (p q : Chip) : Prop where
  sensors : q.sensors = p.sensors
  units : q.units = p.units
  links : q.links = p.links
  power : q.power = p.power
  port : q.port = p.port
  params : q.params = p.params
  hoistParams : q.hoistParams = p.hoistParams
  draws : q.draws = p.draws
  others : ∀ k, k ≠ h → q.hoist k = p.hoist k

namespace Chip.TripFrame

variable {h : HoistId} {p q r : Chip}

theorem refl (h : HoistId) (p : Chip) : TripFrame h p p := ⟨rfl, rfl, rfl, rfl, rfl, rfl, rfl, rfl, fun _ _ => rfl⟩

theorem trans (a : TripFrame h p q) (b : TripFrame h q r) : TripFrame h p r :=
  ⟨b.sensors.trans a.sensors, b.units.trans a.units, b.links.trans a.links, b.power.trans a.power, b.port.trans a.port,
    b.params.trans a.params, b.hoistParams.trans a.hoistParams, b.draws.trans a.draws,
    fun k ne => (b.others k ne).trans (a.others k ne)⟩

/-! ### Updates of one record -/

theorem updMass (m : MassId) (f : MassRecord → MassRecord) : TripFrame h p (p.updMass m f) :=
  ⟨rfl, rfl, rfl, rfl, rfl, rfl, rfl, rfl, fun _ _ => rfl⟩

theorem updBay (b : BayId) (f : BayRecord → BayRecord) : TripFrame h p (p.updBay b f) :=
  ⟨rfl, rfl, rfl, rfl, rfl, rfl, rfl, rfl, fun _ _ => rfl⟩

theorem updHoist (f : HoistCtl → HoistCtl) : TripFrame h p (p.updHoist h f) :=
  ⟨rfl, rfl, rfl, rfl, rfl, rfl, rfl, rfl, fun k ne => by
    show (p.hoists.set h (f (p.hoist h))).get k = _
    rw [Quad.get_set, if_neg ne]
    rfl⟩

theorem request : TripFrame h p p.request := ⟨rfl, rfl, rfl, rfl, rfl, rfl, rfl, rfl, fun _ _ => rfl⟩

theorem orders (o : OrderQueue) : TripFrame h p { p with orders := o } :=
  ⟨rfl, rfl, rfl, rfl, rfl, rfl, rfl, rfl, fun _ _ => rfl⟩

theorem selector (x : Selector) : TripFrame h p { p with selector := x } :=
  ⟨rfl, rfl, rfl, rfl, rfl, rfl, rfl, rfl, fun _ _ => rfl⟩

theorem setHeld (k : HoistId) (slot : Slot) (o : Option Order) : TripFrame h p (p.setHeld k slot o) := by
  cases slot <;> exact orders _

/-! ### Machine/Ops.lean -/

theorem notifyOrders (m : MassId) : TripFrame h p (p.notifyOrders m) := by
  unfold Chip.notifyOrders
  split
  · exact orders _
  · exact refl _ _

theorem endHeld (k : HoistId) (slot : Slot) (fate : OrderFate) : TripFrame h p (p.endHeld k slot fate) := by
  unfold Chip.endHeld
  split
  · exact refl _ _
  · cases fate
    · exact ((setHeld k slot none).trans (orders _)).trans request
    · exact setHeld k slot none
    · exact (setHeld k slot none).trans (orders _)

theorem massReleased (m : MassId) : TripFrame h p (p.massReleased m) := (updMass m _).trans request

theorem massMismatched (m : MassId) (x : Option Nat) : TripFrame h p (p.massMismatched m x) := (updMass m _).trans request

theorem massDelivered (m : MassId) (b : BayId) : TripFrame h p (p.massDelivered m b) := (updMass m _).trans request

theorem massAssigned (m : MassId) : TripFrame h p (p.massAssigned m) := updMass m _

theorem massAboard (m : MassId) (k : HoistId) (x : Nat) : TripFrame h p (p.massAboard m k x) := updMass m _

theorem massLostFromBay (m : MassId) : TripFrame h p (p.massLostFromBay m) := (updMass m _).trans (notifyOrders m)

theorem massLostAboard (m : MassId) : TripFrame h p (p.massLostAboard m) := (updMass m _).trans (notifyOrders m)

theorem massAbsent (m : MassId) : TripFrame h p (p.massAbsent m) := by
  unfold Chip.massAbsent
  simp only
  split
  · exact ((updMass m _).trans (notifyOrders m)).trans request
  · exact (updMass m _).trans (notifyOrders m)

theorem openBay (b : BayId) : TripFrame h p (p.openBay b) := (updBay b _).trans request

theorem barBay (b : BayId) (c : BarredCause) : TripFrame h p (p.barBay b c) := updBay b _

theorem occupyBay (b : BayId) (m : MassId) : TripFrame h p (p.occupyBay b m) := updBay b _

theorem holdSource (k : HoistId) (slot : Slot) (b : BayId) : TripFrame h p (p.holdSource k slot b) := updBay b _

theorem holdDestination (k : HoistId) (slot : Slot) (b : BayId) : TripFrame h p (p.holdDestination k slot b) := updBay b _

theorem giveUpSource (k : HoistId) (slot : Slot) (b : BayId) : TripFrame h p (p.giveUpSource k slot b) := by
  unfold Chip.giveUpSource
  split
  · exact updBay b _
  · exact refl _ _

theorem giveUpDestination (k : HoistId) (slot : Slot) (b : BayId) : TripFrame h p (p.giveUpDestination k slot b) := by
  unfold Chip.giveUpDestination
  split
  · split
    · exact barBay b _
    · exact openBay b
  · exact refl _ _

theorem barClearedSource (k : HoistId) (b : BayId) : TripFrame h p (p.barClearedSource k b) := by
  unfold Chip.barClearedSource
  split
  · exact barBay b _
  · exact refl _ _

theorem moveHold (k : HoistId) (b : BayId) : TripFrame h p (p.moveHold k b) := by
  unfold Chip.moveHold
  split
  · exact updBay b _
  · exact refl _ _

/-! ### Machine/Trips.lean -/

theorem enterPhase (phase : Phase) : TripFrame h p (p.enterPhase h phase) := updHoist _

theorem stopRef : TripFrame h p (p.stopRef h) := updHoist _

theorem updActive (f : Trip → Trip) : TripFrame h p (p.updActive h f) := updHoist _

theorem enterEngage : TripFrame h p (p.enterEngage h) := ((enterPhase _).trans stopRef).trans (updHoist _)

theorem enterRelease : TripFrame h p (p.enterRelease h) := ((enterPhase _).trans stopRef).trans (updHoist _)

theorem enterTravelEmpty : TripFrame h p (p.enterTravelEmpty h) := (enterPhase _).trans (updHoist _)

theorem haltHoist (cause : HaltCause) (resume : Phase) : TripFrame h p (p.haltHoist h cause resume) :=
  ((enterPhase _).trans stopRef).trans (updActive _)

theorem activate (halt : Option HaltCause) : TripFrame h p (p.activate h halt) := by
  unfold Chip.activate
  split
  · exact refl _ _
  · simp only
    split
    · exact (updActive _).trans (updHoist _)
    · split
      · exact enterEngage
      · exact enterTravelEmpty

theorem promote (t : Trip) (halt : Option HaltCause) : TripFrame h p (p.promote h t halt) :=
  (((((updHoist _).trans (moveHold h t.source)).trans (moveHold h t.destination)).trans
    (setHeld h .active _)).trans (setHeld h .staged none)).trans (activate halt)

theorem endActive : TripFrame h p (p.endActive h) := by
  unfold Chip.endActive
  simp only
  split
  · exact updHoist _
  · split
    · exact (updHoist _).trans (promote _ _)
    · exact (updHoist _).trans (enterPhase _)

theorem dropStaged (fate : OrderFate) : TripFrame h p (p.dropStaged h fate) := by
  unfold Chip.dropStaged
  split
  · exact refl _ _
  · exact ((((updHoist _).trans (massReleased _)).trans (giveUpSource h .staged _)).trans
      (giveUpDestination h .staged _)).trans (endHeld h .staged fate)

theorem endEmpty : TripFrame h p (p.endEmpty h) := (updHoist _).trans endActive

theorem completeAbandon (fate : OrderFate) (mismatch : Bool) : TripFrame h p (p.completeAbandon h fate mismatch) := by
  unfold Chip.completeAbandon
  split
  · exact refl _ _
  · cases mismatch
    · exact ((((massReleased _).trans (giveUpSource h .active _)).trans (giveUpDestination h .active _)).trans
        (endHeld h .active fate)).trans endEmpty
    · exact ((((massMismatched _ _).trans (giveUpSource h .active _)).trans (giveUpDestination h .active _)).trans
        (endHeld h .active fate)).trans endEmpty

theorem abandon (fate : OrderFate) : TripFrame h p (p.abandon h fate) := by
  unfold Chip.abandon
  simp only
  split
  · exact refl _ _
  · split
    · exact updHoist _
    · exact completeAbandon fate false

theorem completeWithdrawal : TripFrame h p (p.completeWithdrawal h) := by
  unfold Chip.completeWithdrawal
  split
  · exact refl _ _
  · exact completeAbandon _ _
  · exact completeAbandon _ _

theorem loseSource (slot : Slot) : TripFrame h p (p.loseSource h slot) := by
  unfold Chip.loseSource
  split
  · split
    · exact refl _ _
    · exact ((updHoist _).trans (giveUpDestination h .staged _)).trans (endHeld h .staged .counted)
  · split
    · exact refl _ _
    · exact ((giveUpDestination h .active _).trans (endHeld h .active .counted)).trans endEmpty

theorem takeDestination (t : Trip) (z : Nat) (b : BayId) (kind : TripKind) :
    TripFrame h p (p.takeDestination h t z b kind) := by
  unfold Chip.takeDestination
  exact (((giveUpDestination h .active t.destination).trans (holdDestination h .active b)).trans (updActive _)).trans
    (updHoist _)

theorem retargetFrom (t : Trip) (z : Nat) (taken : p.retargetFrom h t z = some q) : TripFrame h p q := by
  unfold Chip.retargetFrom at taken
  obtain ⟨b, _, e⟩ := Option.map_eq_some_iff.mp taken
  exact e ▸ takeDestination t z b _

theorem setNoBay : TripFrame h p (p.setNoBay h) := updHoist _

theorem loseDestination (slot : Slot) : TripFrame h p (p.loseDestination h slot) := by
  unfold Chip.loseDestination
  split
  · exact dropStaged _
  · split
    · exact refl _ _
    · split
      · split
        · rename_i e
          exact retargetFrom _ _ e
        · exact setNoBay.trans (abandon _)
      · split
        · split
          · rename_i e
            exact retargetFrom _ _ e
          · exact setNoBay.trans (haltHoist _ _)
        · split
          · rename_i e
            exact retargetFrom _ _ e
          · exact setNoBay.trans (haltHoist _ _)
        · exact haltHoist _ _
        · exact updActive _
        all_goals exact refl _ _

theorem takeFault (cause : FaultCause) (detail : Option Nat) : TripFrame h p (p.takeFault h cause detail) := by
  unfold Chip.takeFault
  simp only
  split
  · exact updHoist _
  · exact ((((dropStaged _).trans (enterPhase _)).trans stopRef).trans (updActive _)).trans (updHoist _)

theorem weighMatch (t : Trip) (x : Nat) : TripFrame h p (p.weighMatch h t x) :=
  ((((massAboard _ _ _).trans (updBay t.source _)).trans (setHeld h .active none)).trans (enterPhase _)).trans
    (updActive _)

theorem weighMismatch (x : Nat) : TripFrame h p (p.weighMismatch h x) := (updActive _).trans (updHoist _)

theorem engageTest : TripFrame h p (p.engageTest h) := by
  unfold Chip.engageTest
  split
  · exact refl _ _
  · split
    · exact refl _ _
    · split
      · exact weighMatch _ _
      · exact weighMismatch _

theorem completeRelease (t : Trip) : TripFrame h p (p.completeRelease h t) := by
  unfold Chip.completeRelease
  simp only
  have base : TripFrame h p (((p.massDelivered t.mass t.destination).occupyBay t.destination t.mass).barClearedSource h
      t.source) := ((massDelivered _ _).trans (occupyBay _ _)).trans (barClearedSource h t.source)
  split
  · exact ((base.trans (updHoist _)).trans (dropStaged _)).trans endActive
  · exact base.trans endActive

theorem releaseTest : TripFrame h p (p.releaseTest h) := by
  unfold Chip.releaseTest
  split
  · exact refl _ _
  · split
    · exact completeRelease _
    · exact refl _ _

theorem completionTest : TripFrame h p (p.completionTest h) := by
  unfold Chip.completionTest
  split
  · exact engageTest
  · exact releaseTest
  · exact refl _ _

/-! ### Machine/Power.lean, Machine/Motion.lean and Machine/Selection.lean -/

theorem endOtherKind (m : PlantMode) : TripFrame h p (p.endOtherKind h m) := by
  unfold Chip.endOtherKind
  simp only
  have first : TripFrame h p (match (p.hoist h).staged with
      | some t => if t.ofAnotherKind m then p.dropStaged h .returned else p
      | none => p) := by
    split
    · split
      · exact dropStaged _
      · exact refl _ _
    · exact refl _ _
  split
  · split
    · exact first.trans (abandon _)
    · exact first
  · exact first

theorem clearHeightCheck : TripFrame h p (p.clearHeightCheck h) := by
  unfold Chip.clearHeightCheck
  split
  · exact refl _ _
  · split
    · exact barBay _ _
    · exact refl _ _

theorem overspeedCheck : TripFrame h p (p.overspeedCheck h) := by
  unfold Chip.overspeedCheck
  simp only
  split <;> split
  all_goals first
    | exact (updHoist _).trans (takeFault _ _)
    | exact updHoist _

theorem approachTest (t : Trip) : TripFrame h p (p.approachTest h t) := by
  unfold Chip.approachTest
  split
  · split
    · exact enterEngage
    · exact enterRelease
  · exact refl _ _

theorem phaseTest (previous : Int) : TripFrame h p (p.phaseTest h previous) := by
  unfold Chip.phaseTest
  split
  · exact refl _ _
  · split
    · unfold Chip.travelTest
      split
      · exact ((enterPhase _).trans (updHoist _)).trans (approachTest _)
      · split
        · exact (enterPhase _).trans (updHoist _)
        · exact refl _ _
    · exact approachTest _
    · split
      · exact enterPhase _
      · exact refl _ _
    · exact refl _ _

theorem expirePhaseTimer : TripFrame h p (p.expirePhaseTimer h) := by
  unfold Chip.expirePhaseTimer
  split
  · exact takeFault _ _
  · exact updHoist _

theorem expireDwell : TripFrame h p (p.expireDwell h) := by
  unfold Chip.expireDwell
  split
  · exact updHoist _
  · split
    · rename_i e
      split
      · exact (retargetFrom _ _ e).trans (enterPhase _)
      · exact (retargetFrom _ _ e).trans (updHoist _)
    · exact setNoBay.trans (updHoist _)

theorem stage (t : Trip) (o : Option Order) : TripFrame h p (p.stage h t o) := by
  unfold Chip.stage
  simp only
  have base : ∀ slot, TripFrame h p
      (((({ p with selector := { p.selector with pointer := h } } : Chip).massAssigned t.mass).holdSource h slot
        t.source).holdDestination h slot t.destination) := fun slot =>
    (((selector _).trans (massAssigned _)).trans (holdSource h slot t.source)).trans
      (holdDestination h slot t.destination)
  cases o with
  | none =>
    split
    · exact (((base _).trans (updHoist _)).trans (activate _)).trans request
    · exact (base _).trans (updHoist _)
  | some o =>
    split
    · exact ((((base _).trans (setHeld h _ _)).trans (updHoist _)).trans (activate _)).trans request
    · exact ((base _).trans (setHeld h _ _)).trans (updHoist _)

theorem tryFor : TripFrame h p (p.tryFor h) := by
  unfold Chip.tryFor
  split
  · exact (orders _).trans (stage _ _)
  · split
    · exact stage _ _
    · exact refl _ _

end Chip.TripFrame

end Sys2Proof.Machine
end

