-- ==== Sys2Proof/Tests/Slice0.lean ====
section
/-! SUPPORT. The model's own tests: ill-formed commands refused by the well-formedness check, worked cases of the spec, and for each
statement of Certificates/Slice0/Obligations.lean concrete states and operands that meet its hypotheses, clause by clause. -/

namespace Sys2Proof.Tests

open Sys2Proof.Machine

set_option Elab.async false

/-! ### Well-formedness: each check refuses an ill-formed command -/

theorem test_wellFormed_queries :
    (Instr.getMass 256).wellFormed = false ∧ (Instr.nextMass 256 0).wellFormed = false ∧
    (Instr.nextMass 0 256).wellFormed = false ∧ (Instr.getBay 256).wellFormed = false ∧
    (Instr.nextBay 256 0).wellFormed = false ∧ (Instr.nextBay 0 256).wellFormed = false ∧
    (Instr.getHoist 256 0).wellFormed = false ∧ (Instr.getHoist 0 256).wellFormed = false ∧
    (Instr.getOrder 256).wellFormed = false ∧ (Instr.getEnergy 256).wellFormed = false ∧
    (Instr.getParam 256 0).wellFormed = false ∧ (Instr.getParam 0 256).wellFormed = false ∧
    (Instr.getPlant 256).wellFormed = false := by decide

theorem test_wellFormed_records :
    (Instr.admitMass 256 0 0).wellFormed = false ∧ (Instr.admitMass 0 16777216 0).wellFormed = false ∧
    (Instr.admitMass 0 0 256).wellFormed = false ∧ (Instr.amendMass 256 0).wellFormed = false ∧
    (Instr.amendMass 0 16777216).wellFormed = false ∧ (Instr.retireMass 256).wellFormed = false ∧
    (Instr.foundMass 256 0).wellFormed = false ∧ (Instr.foundMass 0 256).wellFormed = false ∧
    (Instr.surveyBay 256 0 0 0).wellFormed = false ∧ (Instr.surveyBay 0 16777216 0 0).wellFormed = false ∧
    (Instr.surveyBay 0 0 256 0).wellFormed = false ∧ (Instr.surveyBay 0 0 0 256).wellFormed = false ∧
    (Instr.barBay 256).wellFormed = false ∧ (Instr.unbarBay 256).wellFormed = false := by decide

theorem test_wellFormed_actions :
    (Instr.orderMove 256 0 0).wellFormed = false ∧ (Instr.orderMove 0 256 0).wellFormed = false ∧
    (Instr.orderMove 0 0 256).wellFormed = false ∧ (Instr.cancelOrder 256).wellFormed = false ∧
    (Instr.setPower 2147483648).wellFormed = false ∧ (Instr.setPower (-2147483649)).wellFormed = false ∧
    (Instr.holdHoist 256 0).wellFormed = false ∧ (Instr.holdHoist 0 256).wellFormed = false ∧
    (Instr.resume 256).wellFormed = false ∧ (Instr.abandonTrip 256).wellFormed = false ∧
    (Instr.retarget 256 0).wellFormed = false ∧ (Instr.retarget 0 256).wellFormed = false ∧
    (Instr.referenceHoist 256 0).wellFormed = false ∧ (Instr.referenceHoist 0 256).wellFormed = false ∧
    (Instr.clearFault 256).wellFormed = false ∧ (Instr.enableHoist 256 0).wellFormed = false ∧
    (Instr.enableHoist 0 256).wellFormed = false ∧ (Instr.setParam 256 0 0).wellFormed = false ∧
    (Instr.setParam 0 256 0).wellFormed = false ∧ (Instr.setParam 0 0 2147483648).wellFormed = false := by decide

/-! ### Worked cases of the spec -/

/-- The three divisions worked in spec/07 (R142). -/
theorem test_shares_worked :
    sharesOf 4003 ⟨true, true, true, false⟩ ⟨1500, 1200, 1500, 1500⟩ = ⟨1402, 1200, 1401, 0⟩ ∧
    sumQuad (sharesOf 4200 ⟨true, true, true, false⟩ ⟨1500, 1200, 1250, 1500⟩) = 3950 ∧
    sumQuad (sharesOf 6000 ⟨true, true, false, false⟩ ⟨1500, 1200, 1500, 1500⟩) = 2700 := by decide

/-- The ratio's bounds worked in spec/04 (R68). -/
theorem test_ratio_worked : adjustNum 500 25 = 400 ∧ adjustNum 1 5000 = 5 := by decide

theorem test_isqrt : isqrt 0 = 0 ∧ isqrt 1 = 1 ∧ isqrt 99 = 9 ∧ isqrt 100 = 10 ∧ isqrt 800000 = 894 := by decide +kernel

/-- Pointer 1 with hoists 0, 2 and 3 waiting gives the order 2, 3, 0 (R127). -/
theorem test_roundRobin : (roundRobin 1).filter (fun h => decide (h ≠ 1)) = [2, 3, 0] := by decide

/-- A frame written out by its bytes: SERVICE, REFERENCE_HOIST of hoist 2 at bay 17, tag 9 (R194). -/
theorem test_frame_fields :
    (⟨[0xA5, 2, 0x48, 9, 2, 17] ++ List.replicate 26 0⟩ : Frame).command = some (.referenceHoist 2 17) := by decide

/-- A signed payload field: SET_POWER of −1,500 (R193, R194). -/
theorem test_frame_signed :
    (⟨[0xA5, 1, 0x38, 0, 0xFF, 0xFF, 0xFA, 0x24] ++ List.replicate 24 0⟩ : Frame).command = some (.setPower (-1500)) := by
  decide

/-- The frame that carries SET_POWER agrees with its CRC and reads back (R183, R194). -/
theorem test_frame_crc :
    ((Instr.setPower (-1500)).encode .dispatch 7).map (fun f => (f.crcAgrees, f.command)) =
      some (true, some (.setPower (-1500))) := by decide +kernel

/-- A reply whose seven bytes sum to 0 is good, and one byte changed fails it (R197). -/
theorem test_driveReply :
    driveReplyOf [1, 0, 0, 0x00, 0x25, 0x1C, 0xBE] = some { ready := true, code := 0, load := 9500 } ∧
    driveReplyOf [1, 0, 0, 0x00, 0x25, 0x1D, 0xBE] = none := by decide

/-! ### A small plant -/

/-- An automatic trip of mass 1 from bay 0 to bay 1, on its way to its source. -/
def trip : Trip :=
  { kind := .charge, mass := 0, source := 0, destination := 1, leg := .empty, direction := .up, orderTag := none,
    measured := none, retargets := 0, resumePhase := none, haltCause := none }

/-- The same trip on its loaded leg. -/
def loadedTrip : Trip := { trip with leg := .loaded, measured := some 20000 }

/-- A surveyed bay. -/
def surveyed (state : BayState) (elevation : Nat) (sensor : Occupancy) : BayRecord :=
  { state := state, elevation := some elevation, access := some 15#4, service := some false, occupant := none,
    cause := none, sensor := some sensor, holder := none }

/-- A mass of nominal 20,000 kg. -/
def massIn (state : MassState) (bay : Option BayId) : MassRecord :=
  { MassRecord.empty with state := state, nominal := some 20000, bay := bay }

/-- Four hoists in service at bay 0's elevation with their links UP, the interlock closed; mass 1 in bay 0, mass 2 in the service bay 2, mass 3
missing; bays 1 and 5 OPEN, bay 3 BARRED (FOREIGN), bay 4 not surveyed. -/
def plant : Chip :=
  let p := Chip.powerOn .baud115200 (Quad.all ⟨false, false⟩)
  let p := { p with
    sensors := { p.sensors with
      qualifier := .closed, mark := 1000
      bayGroup := { since := 0, fresh := false, due := false, ahead := false }
      latchGroup := { since := 0, fresh := false, due := false, ahead := false } }
    units := Quad.all { PositionUnit.initial ⟨false, false⟩ with referenced := true, elevation := 140000 }
    hoists := Quad.all { HoistCtl.initial with interlockSeen := .closed, latchLevel := some .opened }
    links := Quad.all { LinkPort.initial with state := .up } }
  let p := ((p.updBay 0 fun _ => { surveyed .occupied 140000 .occupied with occupant := some 0 }).updBay 1 fun _ =>
    surveyed .opened 200000 .empty).updBay 2 fun _ =>
      { surveyed .occupied 100000 .occupied with service := some true, occupant := some 1 }
  let p := ((p.updBay 3 fun _ => { surveyed .barred 150000 .occupied with cause := some .foreign }).updBay 4 fun r =>
    { r with sensor := some .empty }).updBay 5 fun _ => surveyed .opened 260000 .empty
  ((p.updMass 0 fun _ => massIn .parked (some 0)).updMass 1 fun _ => massIn .parked (some 2)).updMass 2 fun _ =>
    massIn .missing none

/-- The plant with hoist 0 in a phase, with an active trip. -/
def working (phase : Phase) (t : Trip) : Chip :=
  (plant.updHoist 0 fun c => { c with phase := phase, active := some t }).updBay t.destination fun r =>
    { r with state := .inbound, holder := some (0, .active) }

/-- A part whose items are true to its records, with nothing waiting. -/
def kept (p : Chip) : State := { pending := [], chip := Chip.finish p p }

theorem kept_of (p : Chip) : (kept p).chip.Kept := Chip.finish_kept p p

/-- A part to which SERVICE has sent a command. -/
def given (p : Chip) (i : Instr) : Chip := { p with port := { p.port with inHand := i.encode .service 7 } }

/-- The state in which the port has handed over the command. -/
def handing (p : Chip) (i : Instr) : State := kept (given p i)

theorem hands_of (p : Chip) (i : Instr) (handed : (handing p i).chip.handedCommand = some i) : (handing p i).Hands i :=
  ⟨handed, kept_of _⟩

/-! ### Witnesses: the machine -/

theorem test_witness_StepTakesTheFront : ({ State.reset with pending := [.snapshot, .servingStart] } : State).pending =
    .snapshot :: [.servingStart] := rfl

theorem test_witness_EveryStepAnswersNext : State.reset.pending = [] := rfl

theorem test_witness_EventsNotComeAbout_marks :
    (kept { plant with sensors := { plant.sensors with qualifier := .qualifying, closing := 1000 } }).chip.settled = false ∧
    State.reset.chip.segmentOpen 0 = false ∧ State.reset.chip.timeoutReached 0 = false ∧
    (State.reset.chip.link 0).buffer.length ≠ 6 ∧
    6 ≤ ((plant.updLink 0 fun l => { l with buffer := List.replicate 6 0 }).link 0).buffer.length ∧
    (State.reset.chip.link 0).partialExpired = false ∧ plant.sampleOpen (.bay 0) = false ∧
    plant.sampleOpen (.latch 0) = false ∧ State.reset.chip.sensors.closingComplete = false := by decide +kernel

theorem test_witness_EventsNotComeAbout_hoists :
    (State.reset.chip.interlock = .opened ∧ (State.reset.chip.hoist 0).interlockSeen = .opened) ∧
    (plant.interlock = .closed ∧ (plant.hoist 0).interlockSeen = .closed) ∧
    expired (State.reset.chip.hoist 0).phaseTimer = false ∧ expired (State.reset.chip.hoist 0).dwellTimer = false ∧
    State.reset.chip.selector.request = false ∧ State.reset.chip.selector.serving = [] ∧
    State.reset.chip.power.handed.get 0 = false ∧ State.reset.chip.power.modeRequests.get 0 = [] := by decide +kernel

theorem test_witness_EventsNotComeAbout_port :
    State.reset.chip.port.buffer.length ≠ 31 ∧ State.reset.chip.port.buffer = [] ∧ State.reset.chip.port.sending = none ∧
    State.reset.chip.port.restart = none ∧ Instr.snapshot.payload.isSome = true ∧
    State.reset.chip.handedCommand ≠ some .snapshot ∧
    31 ≤ ({ plant with port := { plant.port with buffer := List.replicate 31 0 } } : Chip).port.buffer.length := by
  decide +kernel

theorem test_witness_EventsNotComeAbout_discards :
    ((plant.updLink 0 fun l => { l with buffer := List.replicate 6 0, gap := 50 }).link 0).partialExpired = true ∧
    ((plant.updLink 0 fun l => { l with buffer := List.replicate 6 0, gap := 49 }).link 0).partialExpired = false ∧
    ({ plant.port with buffer := List.replicate 31 0, gap := 6 } : PlantPort).gapReached = true ∧
    ({ plant.port with buffer := List.replicate 31 0, gap := 5 } : PlantPort).gapReached = false := by decide +kernel

/-- A state in which every law that the steps keep holds, and a step from it. -/
def lawful : State := { kept plant with pending := [.servingStart] }

theorem test_witness_StepKeeps_step : ∃ t, step lawful = .next t := ⟨_, rfl⟩

theorem test_witness_StepKeepsItemsTrueToRecords : lawful.chip.Kept := kept_of plant

theorem test_witness_StepKeepsSixteenOrderPlaces : lawful.chip.queueLength + lawful.chip.heldCount ≤ 16 := by
  decide +kernel

theorem test_witness_StepKeepsPowerRecords : lawful.chip.PowerRecords :=
  ⟨by decide +kernel, by decide +kernel, by decide +kernel, by decide +kernel, by decide +kernel⟩

theorem test_witness_StepKeepsParameters_plant : PlantParams.powerOn.InRange := by constructor <;> decide

theorem test_witness_StepKeepsParameters_hoist : HoistParams.powerOn.InRange := by constructor <;> decide

theorem test_witness_StepKeepsParametersInRange : lawful.chip.ParamsInRange :=
  ⟨test_witness_StepKeepsParameters_plant,
    fun h => by
      have e : lawful.chip.hp h = HoistParams.powerOn := by revert h; decide +kernel
      rw [e]
      exact test_witness_StepKeepsParameters_hoist,
    by decide +kernel⟩

theorem test_witness_StepKeepsPositionUnitsInRange (h : HoistId) : (lawful.chip.unit h).InRange := by
  constructor <;> revert h <;> decide +kernel

theorem test_witness_StepKeepsBayRecords_shape (b : BayId) : (lawful.chip.bay b).Shape := by
  constructor <;> revert b <;> decide +kernel

theorem test_witness_StepKeepsBayRecords_sensors (b : BayId) :
    (State.reset.chip.bay b).sensor = (State.reset.chip.sensors.bayLines[b]).accepted := by revert b; decide +kernel

/-! ### Witnesses: the Plant Link -/

theorem test_witness_DecodeOfEncode :
    (Instr.setParam 0x4D 3 (-2147483648)).wellFormed = true ∧ (Instr.setParam 0x4D 3 (-2147483648)).payload.isSome = true ∧
    (Instr.admitMass 255 16777215 255).wellFormed = true := by decide

theorem test_witness_PlantLinkBytes :
    (kept plant).chip.port.buffer.length < 31 ∧ (kept plant).chip.port.buffer = [] ∧
    (kept { plant with port := { plant.port with buffer := [0xA5], gap := 5 } }).chip.port.gap < 6 ∧
    (kept { plant with port := { plant.port with buffer := [0xA5], gap := 6 } }).chip.port.buffer ≠ [] ∧
    6 ≤ (kept { plant with port := { plant.port with buffer := [0xA5], gap := 6 } }).chip.port.gap := by decide +kernel

/-- A part that has received the first 31 bytes of a frame. -/
def receiving (f : List Byte) (inHand nextFrame : Option Frame) : State :=
  kept { plant with port := { plant.port with buffer := f.take 31, inHand := inHand, nextFrame := nextFrame } }

/-- The frame of SNAPSHOT, from SERVICE. -/
def snapshotBytes : List Byte := withCrc ([0xA5, 2, 0x0A] ++ List.replicate 27 0)

theorem test_witness_CompleteFrames :
    (receiving snapshotBytes none none).chip.port.buffer.length = 31 ∧
    (receiving snapshotBytes none none).chip.port.gap < 6 ∧
    (⟨(receiving snapshotBytes none none).chip.port.buffer ++ [snapshotBytes.getD 31 0]⟩ : Frame).crcAgrees = true ∧
    (⟨(receiving snapshotBytes none none).chip.port.buffer ++ [snapshotBytes.getD 31 0 + 1]⟩ : Frame).crcAgrees = false ∧
    (receiving snapshotBytes none none).chip.port.inHand = none ∧
    (receiving snapshotBytes (some ⟨snapshotBytes⟩) none).chip.port.inHand ≠ none ∧
    (receiving snapshotBytes (some ⟨snapshotBytes⟩) none).chip.port.nextFrame = none ∧
    (receiving snapshotBytes (some ⟨snapshotBytes⟩) (some ⟨snapshotBytes⟩)).chip.port.nextFrame ≠ none := by decide +kernel

theorem test_witness_PortChecks :
    (receiving snapshotBytes none none).chip.port.sending = none ∧
    (receiving snapshotBytes none none).chip.port.restart = none ∧
    Originator.ofCode ((⟨withCrc ([0xA5, 4, 0x0A] ++ List.replicate 27 0)⟩ : Frame).byte 1) = none ∧
    (⟨withCrc ([0xA5, 4, 0x0A] ++ List.replicate 27 0)⟩ : Frame).crcAgrees = true ∧
    Originator.ofCode ((⟨withCrc ([0xA5, 3, 0x99] ++ List.replicate 27 0)⟩ : Frame).byte 1) = some .monitor ∧
    (⟨withCrc ([0xA5, 3, 0x99] ++ List.replicate 27 0)⟩ : Frame).command = none ∧
    (⟨withCrc ([0xA5, 3, 0x5F] ++ List.replicate 27 0)⟩ : Frame).command = some .restart ∧
    Originator.monitor.permits .restart = false ∧ Originator.service.permits .snapshot = true := by decide +kernel

theorem test_witness_ReplyEnd :
    (kept { plant with port := { plant.port with sending := some (replyOf ⟨snapshotBytes⟩ (refuse .range)) } }).chip.port.sending =
      some (replyOf ⟨snapshotBytes⟩ (refuse .range)) ∧
    (kept plant).chip.port.nextFrame = none ∧
    (receiving [] none (some ⟨snapshotBytes⟩)).chip.port.nextFrame = some ⟨snapshotBytes⟩ := by decide +kernel

/-! ### Witnesses: queries -/

theorem test_witness_MassQueries_get : (handing plant (.getMass (massNumber 95))).Hands (.getMass (massNumber 95)) :=
  hands_of _ _ (by decide +kernel)

theorem test_witness_MassQueries_next : (handing plant (.nextMass 1 2)).Hands (.nextMass 1 2) :=
  hands_of _ _ (by decide +kernel)

theorem test_witness_MassQueries_range :
    ∀ x ∈ [(0, 1), (97, 1), (96, 1), (1, 64)], (handing plant (.nextMass x.1 x.2)).chip.handedCommand =
      some (.nextMass x.1 x.2) := by decide +kernel

theorem test_witness_MassQueries_found :
    Nat.testBit 2 (plant.mass 0).state.code = true ∧ 1 ≤ massNumber 0 ∧
    (∀ k : MassId, 96 ≤ massNumber k → Nat.testBit 2 (plant.mass k).state.code = false) := by decide +kernel

theorem test_witness_BayQueries_get : (handing plant (.getBay (63 : BayId).val)).Hands (.getBay (63 : BayId).val) :=
  hands_of _ _ (by decide +kernel)

theorem test_witness_BayQueries_next : (handing plant (.nextBay 1 2)).Hands (.nextBay 1 2) :=
  hands_of _ _ (by decide +kernel)

theorem test_witness_BayQueries_range :
    ∀ x ∈ [(63, 1), (64, 1), (0, 64)], (handing plant (.nextBay x.1 x.2)).chip.handedCommand =
      some (.nextBay x.1 x.2) := by decide +kernel

theorem test_witness_BayQueries_found :
    Nat.testBit 2 (plant.bay 1).state.code = true ∧ (∀ k : BayId, 1 ≤ k.val → k < 1 → Nat.testBit 2 (plant.bay k).state.code = false) ∧
    (∀ k : BayId, 6 ≤ k.val → Nat.testBit 2 (plant.bay k).state.code = false) := by decide +kernel

theorem test_witness_HoistQueries :
    (∀ page ∈ [0, 1, 2, 3, 4, 5, 6, 7, 255], (handing plant (.getHoist (3 : HoistId).val page)).chip.handedCommand =
      some (.getHoist (3 : HoistId).val page)) ∧
    (∀ x ∈ [(0x01, 0), (0x13, 9), (0x40, 0), (0x4D, 3), (0x4D, 4), (0x14, 0), (0, 0)],
      (handing plant (.getParam x.1 x.2)).chip.handedCommand = some (.getParam x.1 x.2)) ∧
    plantParamOf 0x01 = some .gravity ∧ plantParamOf 0x13 = some .linkTimeout ∧ hoistParamOf 0x40 = some .vRated ∧
    hoistParamOf 0x4D = some .loadEmptyMax ∧ plantParamOf 0x14 = none ∧ hoistParamOf 0x14 = none := by decide +kernel

/-- An order waits. -/
def ordered : Chip :=
  { plant with orders := { plant.orders with queue := [{ mass := 0, destination := 1, hoist := none, tag := 9 }] } }

theorem test_witness_OtherQueries :
    (handing ordered (.getOrder 0)).chip.handedCommand = some (.getOrder 0) ∧
    (handing ordered (.getOrder 15)).chip.handedCommand = some (.getOrder 15) ∧
    (handing ordered (.getOrder 0)).chip.orders.queue[0]? ≠ none ∧ (handing ordered (.getOrder 0)).chip.queueLength ≤ 1 ∧
    (handing ordered (.getEnergy 0)).chip.handedCommand = some (.getEnergy 0) ∧
    (handing ordered (.getEnergy 255)).chip.handedCommand = some (.getEnergy 255) ∧
    (handing ordered .snapshot).chip.handedCommand = some .snapshot ∧
    (∀ h, (handing ordered .snapshot).chip.loadM h < 134217728) := by decide +kernel

theorem test_witness_OtherQueries_sums :
    plant.storedTotal < 281474976710656 ∧ plant.restingEnergy < 281474976710656 ∧ plant.upperBound < 281474976710656 := by
  decide +kernel

theorem test_witness_OtherQueries_figures :
    plant.aboardEnergy < 281474976710656 ∧ plant.headroom < 281474976710656 ∧ plant.topBay = some 5 ∧
    plant.elevationOf 5 < 16777216 ∧ (Chip.powerOn .baud115200 (Quad.all ⟨false, false⟩)).topBay = none ∧
    plant.params.gravity ≤ 65535 ∧ plant.params.datum < 16777216 := by decide +kernel

theorem test_witness_MassResult_energy :
    (plant.mass 0).measured = none ∧ (plant.mass 0).nominal = some 20000 ∧ (plant.mass 0).bay = some 0 ∧
    (plant.bay 0).elevation = some 140000 ∧ (plant.mass 0).state = .parked ∧ (plant.mass 2).state = .missing ∧
    (plant.mass 95).state = .absent ∧
    ((plant.updMass 0 fun r => { r with state := .aboard, hoist := some 0, measured := some 20010 }).mass 0).hoist = some 0 := by
  decide +kernel

/-- A mass of 20,000 kg in bay 0, at 140,000 above DATUM 0, holds 20,000 · 9,807 · 140,000 / 1,000,000,000 (R172). -/
theorem test_energy_worked :
    { plant with params := { plant.params with gravity := 9807, datum := 0 } }.storedEnergy 0 = 27459 := by decide +kernel

theorem test_witness_PlantQuery :
    (∀ page ∈ [0, 1, 2, 3], (handing plant (.getPlant page)).chip.handedCommand = some (.getPlant page)) ∧
    (handing plant (.getPlant 2)).chip.port.inHand = (Instr.getPlant 2).encode .service 7 ∧
    ((Instr.getPlant 2).encode .service 7).isSome = true := by decide +kernel

/-- The masses and bays of the plant by state stand at bytes 9 to 20 of page 2 (R192, R195). -/
theorem test_plant_page_2 : ((replyAt (getPlant 2 plant).result).bytes.drop 9).take 12 = [93, 2, 0, 0, 0, 1, 59, 2, 2, 0, 0, 1] := by
  decide +kernel

theorem test_witness_RefusedCommands :
    (handing plant (.admitMass 0 0 0)).Hands (.admitMass 0 0 0) ∧
    ∃ t r, exec (.admitMass 0 0 0) (handing plant (.admitMass 0 0 0)) = .next t ∧ t.chip.port.sending = some r ∧
      r.status.isRefusal = true :=
  ⟨hands_of _ _ (by decide +kernel), by
    have h := State.command_of_refused (handing plant (.admitMass 0 0 0)) (.admitMass 0 0 0)
      (admitMass 0 0 0 (handing plant (.admitMass 0 0 0)).chip) (by decide +kernel) (by decide +kernel)
    refine ⟨_, _, h, rfl, ?_⟩
    decide +kernel⟩

/-! ### Witnesses: the Mass Table -/

/-- A part in which mass 4 stands unadmitted in the OPEN bay 5, and bay 1 is BARRED (LOST) with a mass before it. -/
def arrived : Chip :=
  (plant.updBay 5 fun r => { r with sensor := some .occupied }).updBay 1 fun r =>
    { r with state := .barred, cause := some .lost, sensor := some .occupied }

theorem test_witness_AdmitMass :
    (∀ n ∈ [5000, 80000], (handing arrived (.admitMass (massNumber 95) n (5 : BayId).val)).chip.handedCommand =
      some (.admitMass (massNumber 95) n (5 : BayId).val)) ∧
    (arrived.mass 95).state = .absent ∧ (arrived.bay 5).state = .opened ∧ (arrived.bay 5).sensor = some .occupied ∧
    (arrived.bay 3).state = .barred ∧ (arrived.bay 3).cause = some .foreign ∧ (arrived.bay 3).sensor = some .occupied := by
  decide +kernel

theorem test_witness_FoundMass :
    (∀ b : BayId, b ∈ [1, 3, 5] → (handing arrived (.foundMass (massNumber 2) b.val)).chip.handedCommand =
      some (.foundMass (massNumber 2) b.val)) ∧
    (arrived.mass 2).state = .missing ∧ (arrived.bay 1).state = .barred ∧ (arrived.bay 1).cause = some .lost ∧
    (arrived.bay 1).occupant = none ∧ (arrived.bay 1).sensor = some .occupied := by decide +kernel

theorem test_witness_AmendMass :
    (∀ n ∈ [5000, 80000], (handing plant (.amendMass (massNumber 0) n)).chip.handedCommand =
      some (.amendMass (massNumber 0) n)) ∧
    (handing plant (.amendMass (massNumber 2) 5000)).chip.handedCommand = some (.amendMass (massNumber 2) 5000) ∧
    (plant.mass 0).state = .parked ∧ (plant.mass 2).state = .missing := by decide +kernel

theorem test_witness_RetireMass :
    (∀ m : MassId, m ∈ [1, 2] → (handing plant (.retireMass (massNumber m))).chip.handedCommand =
      some (.retireMass (massNumber m))) ∧
    (plant.mass 2).state = .missing ∧ (plant.mass 1).state = .parked ∧ (plant.mass 1).bay = some 2 ∧
    (plant.bay 2).service = some true ∧ (plant.bay 2).state = .occupied := by decide +kernel

/-- A part in which a mass is in each of the states that lock a record. -/
def locked : Chip :=
  ((plant.updMass 3 fun _ => massIn .assigned (some 0)).updMass 4 fun _ => massIn .aboard none).updMass 5 fun _ =>
    massIn .retiring (some 2)

theorem test_witness_MassRefusals_range :
    ∀ x ∈ [(0, 20000, 5), (97, 20000, 5), (1, 4999, 5), (1, 80001, 5), (1, 20000, 64)],
      (handing plant (.admitMass x.1 x.2.1 x.2.2)).chip.handedCommand = some (.admitMass x.1 x.2.1 x.2.2) := by
  decide +kernel

theorem test_witness_MassRefusals_states :
    (∀ m : MassId, m ∈ [0, 3, 95] → ∀ b : BayId, b ∈ [1, 4] →
      (handing locked (.admitMass (massNumber m) 5000 b.val)).chip.handedCommand =
        some (.admitMass (massNumber m) 5000 b.val)) ∧
    (∀ m : MassId, m ∈ [0, 3, 4, 5, 95] →
      (handing locked (.amendMass (massNumber m) 80000)).chip.handedCommand = some (.amendMass (massNumber m) 80000) ∧
      (handing locked (.retireMass (massNumber m))).chip.handedCommand = some (.retireMass (massNumber m)) ∧
      (handing locked (.foundMass (massNumber m) 4)).chip.handedCommand = some (.foundMass (massNumber m) 4)) := by
  decide +kernel

theorem test_witness_MassRefusals_records :
    (locked.mass 95).state = .absent ∧ (locked.mass 3).state = .assigned ∧ (locked.mass 4).state = .aboard ∧
    (locked.mass 5).state = .retiring ∧ (locked.mass 0).state = .parked ∧ (locked.mass 0).bay = some 0 ∧
    (locked.bay 0).service ≠ some true ∧ (locked.bay 1).state = .opened ∧ (locked.bay 1).sensor ≠ some .occupied ∧
    (locked.bay 4).state = .unsurveyed ∧ (locked.mass 2).state = .missing := by decide +kernel

theorem test_witness_MassRefusals_numbers :
    (∀ x ∈ [(0, 20000), (97, 20000), (1, 4999), (1, 80001)],
      (handing plant (.amendMass x.1 x.2)).chip.handedCommand = some (.amendMass x.1 x.2)) ∧
    (∀ n ∈ [0, 97], (handing plant (.retireMass n)).chip.handedCommand = some (.retireMass n)) ∧
    (∀ x ∈ [(0, 1), (97, 1), (1, 64)],
      (handing plant (.foundMass x.1 x.2)).chip.handedCommand = some (.foundMass x.1 x.2)) := by decide +kernel

/-- Bay 3 BARRED (FOREIGN) with an EMPTY level, bay 1 BARRED for service, bay 5 OPEN with an occupant. -/
def unfit : Chip :=
  ((plant.updBay 3 fun r => { r with sensor := some .empty }).updBay 1 fun r =>
    { r with state := .barred, cause := some .service }).updBay 5 fun r => { r with occupant := some 7 }

theorem test_witness_MassRefusals_bays :
    (∀ b : BayId, b ∈ [1, 3, 5] →
      (handing unfit (.foundMass (massNumber 2) b.val)).chip.handedCommand = some (.foundMass (massNumber 2) b.val)) ∧
    (handing unfit (.admitMass (massNumber 95) 5000 (3 : BayId).val)).chip.handedCommand =
      some (.admitMass (massNumber 95) 5000 (3 : BayId).val) ∧
    (unfit.mass 2).state = .missing ∧ (unfit.bay 3).state = .barred ∧ (unfit.bay 3).cause = some .foreign ∧
    (unfit.bay 3).occupant = none ∧ (unfit.bay 3).sensor ≠ some .occupied ∧ (unfit.bay 1).state = .barred ∧
    (unfit.bay 1).cause = some .service ∧ (unfit.bay 5).state = .opened ∧ (unfit.bay 5).occupant ≠ none ∧
    (unfit.mass 95).state = .absent := by decide +kernel

/-- A MISSING mass under weigh hold: writing it off raises a selection request (R126). -/
theorem test_retire_held_requests :
    ((plant.updMass 2 fun r => { r with weighHold := true }).massAbsent 2).selector.request = true ∧
    (plant.massAbsent 2).selector.request = false := by decide +kernel

/-! ### Witnesses: the Bay Table -/

theorem test_witness_SurveyBay :
    (∀ b : BayId, b ∈ [0, 4] → ∀ service : Bool, (handing plant (.surveyBay b.val 1048575 15 (flagCode service))).chip.handedCommand =
      some (.surveyBay b.val 1048575 15 (flagCode service))) ∧
    (plant.bay 0).state = .occupied ∧ (plant.bay 0).sensor = some .occupied ∧ (plant.bay 4).state = .unsurveyed ∧
    (plant.bay 4).sensor = some .empty ∧
    ((plant.updBay 4 fun r => { r with sensor := some .occupied }).bay 4).sensor = some .occupied := by decide +kernel

theorem test_witness_SurveyBay_refused :
    (∀ x ∈ [(64, 0, 1, 0), (0, 1048576, 1, 0), (0, 0, 16, 0), (0, 0, 1, 2)],
      (handing plant (.surveyBay x.1 x.2.1 x.2.2.1 x.2.2.2)).chip.handedCommand =
        some (.surveyBay x.1 x.2.1 x.2.2.1 x.2.2.2)) ∧
    (handing (working .travel trip) (.surveyBay (1 : BayId).val 0 1 (flagCode false))).chip.handedCommand =
      some (.surveyBay (1 : BayId).val 0 1 (flagCode false)) ∧ ((working .travel trip).bay 1).state = .inbound ∧
    (handing plant (.surveyBay (63 : BayId).val 0 1 (flagCode true))).chip.handedCommand =
      some (.surveyBay (63 : BayId).val 0 1 (flagCode true)) ∧
    (plant.bay 63).state ≠ .inbound ∧ (plant.bay 63).state ≠ .outbound ∧ (plant.bay 63).sensor = none := by decide +kernel

/-- A part with a bay BARRED for service, with its occupant, and one without. -/
def barred : Chip :=
  (plant.updBay 0 fun r => { r with state := .barred, cause := some .service }).updBay 1 fun r =>
    { r with state := .barred, cause := some .service }

theorem test_witness_BarAndUnbar :
    (∀ b : BayId, b ∈ [0, 1, 3, 4] → (handing plant (.barBay b.val)).chip.handedCommand = some (.barBay b.val) ∧
      (handing barred (.barBay b.val)).chip.handedCommand = some (.barBay b.val) ∧
      (handing barred (.unbarBay b.val)).chip.handedCommand = some (.unbarBay b.val)) ∧
    (plant.bay 1).state = .opened ∧ (plant.bay 0).state = .occupied ∧ (plant.bay 0).occupant = some 0 ∧
    (plant.mass 0).state ≠ .retiring ∧ (barred.bay 0).state = .barred ∧ (barred.bay 0).cause = some .service ∧
    (barred.bay 0).occupant = some 0 ∧ (barred.bay 0).sensor = some .occupied ∧ (barred.bay 1).state = .barred ∧
    (barred.bay 1).occupant = none ∧ (barred.bay 1).sensor = some .empty ∧ (plant.bay 4).state = .unsurveyed ∧
    (plant.bay 3).cause ≠ some .service ∧ ((working .travel trip).bay 1).state = .inbound := by decide +kernel

theorem test_witness_BarAndUnbar_refused :
    (handing plant (.barBay 64)).chip.handedCommand = some (.barBay 64) ∧
    (handing plant (.unbarBay 64)).chip.handedCommand = some (.unbarBay 64) ∧
    ((plant.updMass 0 fun r => { r with state := .retiring }).mass 0).state = .retiring ∧
    (handing plant (.unbarBay (0 : BayId).val)).chip.handedCommand = some (.unbarBay (0 : BayId).val) ∧
    (plant.bay 0).state ≠ .barred ∧
    (plant.bay 3).state = .barred ∧ (plant.bay 3).occupant = none ∧ (plant.bay 3).sensor ≠ some .empty ∧
    ((barred.updBay 0 fun r => { r with sensor := some .empty }).bay 0).state = .barred ∧
    ((barred.updBay 0 fun r => { r with sensor := some .empty }).bay 0).occupant ≠ none ∧
    ((barred.updBay 0 fun r => { r with sensor := some .empty }).bay 0).sensor ≠ some .occupied := by decide +kernel

/-! ### Witnesses: the Order Queue -/

/-- Sixteen orders wait, of masses 5 and up. -/
def full : Chip :=
  { plant with orders := { plant.orders with
      queue := (List.range 16).map fun k => { mass := Fin.ofNat 96 (k + 10), destination := 1, hoist := none, tag := 0 } } }

/-- The open interlock, and no hoist able. -/
def stopped : Chip :=
  { plant with
    sensors := { plant.sensors with qualifier := .opened }
    hoists := Quad.all { HoistCtl.initial with latchLevel := some .opened } }

theorem test_witness_OrderMove_done :
    (∀ n ∈ [0, 3, 255], (handing plant (.orderMove (massNumber 0) (1 : BayId).val n)).chip.handedCommand =
      some (.orderMove (massNumber 0) (1 : BayId).val n)) ∧
    hoistOrAllOf 0 = some (some 0) ∧ hoistOrAllOf 3 = some (some 3) ∧ hoistOrAllOf 255 = some none ∧
    (∀ c ∈ (handing plant (.orderMove (massNumber 0) (1 : BayId).val 255)).chip.orderChecks 0 1 none, c.1 = false) := by
  decide +kernel

theorem test_witness_OrderMove_range :
    (∀ x ∈ [(0, 0, 0), (97, 0, 255), (96, 64, 3), (1, 63, 4), (1, 63, 254)],
      (handing plant (.orderMove x.1 x.2.1 x.2.2)).chip.handedCommand = some (.orderMove x.1 x.2.1 x.2.2)) := by decide +kernel

theorem test_witness_OrderMove_refused :
    ((kept plant).chip.orderChecks 95 1 none).find? (fun c => c.1) = some (true, .noSuch) ∧
    ((kept plant).chip.orderChecks 2 1 none).find? (fun c => c.1) = some (true, .state) ∧
    ((kept ordered).chip.orderChecks 0 1 none).find? (fun c => c.1) = some (true, .conflict) ∧
    ((kept locked).chip.orderChecks 3 1 none).find? (fun c => c.1) = some (true, .conflict) ∧
    ((kept plant).chip.orderChecks 0 4 none).find? (fun c => c.1) = some (true, .state) ∧
    ((kept plant).chip.orderChecks 0 0 none).find? (fun c => c.1) = some (true, .conflict) ∧
    ((kept (plant.updBay 1 fun r => { r with access := some 14#4 })).chip.orderChecks 0 1 (some 0)).find? (fun c => c.1) =
      some (true, .unreachable) ∧
    ((kept full).chip.orderChecks 0 1 none).find? (fun c => c.1) = some (true, .full) ∧
    ((kept stopped).chip.orderChecks 0 1 none).find? (fun c => c.1) = some (true, .stopped) := by decide +kernel

theorem test_witness_CancelOrder_handed :
    ∀ m : MassId, m ∈ [0, 1, 95] → (handing ordered (.cancelOrder (massNumber m))).chip.handedCommand =
      some (.cancelOrder (massNumber m)) := by decide +kernel

/-- Hoist 0 travels with one trip and has another staged, of mass 2. -/
def twoTrips : Chip :=
  (working .travel loadedTrip).updHoist 0 fun c => { c with staged := some { trip with mass := 1, source := 2, destination := 5 } }

theorem test_witness_CancelOrder_holders :
    (∃ o, ordered.orders.queue[0]? = some o ∧ o.mass = 0) ∧ ordered.queued 1 = false ∧
    (twoTrips.hoist 0).staged = some { trip with mass := 1, source := 2, destination := 5 } ∧
    (∀ k : HoistId, k ≠ 0 → (twoTrips.hoist k).staged = none) ∧ (twoTrips.hoist 0).active = some loadedTrip ∧
    loadedTrip.leg = .loaded ∧ ((working .travel trip).hoist 0).active = some trip ∧ trip.leg = .empty ∧
    ((working .travel trip).hoist 0).withdrawal = .none ∧ ((working .travel trip).hoist 0).waitsForLatch = false ∧
    (((working .engage trip).updHoist 0 fun c => { c with latchLevel := some .closed }).hoist 0).waitsForLatch = true ∧
    (((working .engage trip).updHoist 0 fun c => { c with withdrawal := .mismatch }).hoist 0).withdrawal ≠ .none := by
  refine ⟨⟨_, rfl, rfl⟩, ?_⟩
  decide +kernel

/-- An empty trip halted or at fault in ENGAGE with its latch accepted OPEN: its abandonment ends it at once, the latch OPEN (log 40). -/
theorem test_witness_emptyEnded :
    ((working .halted { trip with resumePhase := some .engage }).hoist 0).workPhase = .engage ∧
    ((working .halted { trip with resumePhase := some .engage }).hoist 0).waitsForLatch = false ∧
    ((working .travel trip).hoist 0).workPhase ≠ .engage ∧
    ((((working .halted { trip with resumePhase := some .engage }).updHoist 0 fun c =>
      { c with latchCommand := .closed }).abandon 0 .discarded).hoist 0).latchCommand = .opened ∧
    ((((working .halted { trip with resumePhase := some .travel }).updHoist 0 fun c =>
      { c with latchCommand := .closed }).abandon 0 .discarded).hoist 0).latchCommand = .closed := by decide +kernel

/-! ### Witnesses: the Power Allocator -/

theorem test_witness_SetPower :
    ∀ x ∈ [(0 : Int), 1, -1, 6000, 6001, -6001], (handing plant (.setPower x)).chip.handedCommand = some (.setPower x) := by
  decide +kernel

/-- Three hoists eligible for 4,003 kW, the second rated at 1,200. -/
def sharing : Chip :=
  { plant with
    power := { plant.power with setpoint := 4003, mode := .charge, eligible := ⟨true, true, true, false⟩ }
    hoistParams := plant.hoistParams.set 1 { HoistParams.powerOn with pRated := 1200 } }

theorem test_witness_SharesAreDividedByRule :
    sharing.power.setpoint.natAbs = 4003 ∧ (hoistList.filter fun h => sharing.power.eligible.get h) = [0, 1, 2] ∧
    ([0, 1, 2].filter fun h : HoistId => decide ((⟨1335, 1334, 1334, 1334⟩ : Quad Nat).get h ≤ (sharing.hp h).pRated)) =
      [0, 2] ∧
    (∀ h : HoistId, (⟨1335, 1334, 1334, 1334⟩ : Quad Nat).get h = 4003 / 3 +
      (if ([0, 1, 2].filter fun k : HoistId => decide (k < h)).length < 4003 % 3 then 1 else 0)) ∧
    ([0, 1, 2].map fun h : HoistId => (⟨1335, 1334, 1334, 1334⟩ : Quad Nat).get h - (sharing.hp h).pRated).sum = 134 ∧
    sharing.allocate.power.share = ⟨1402, 1200, 1401, 0⟩ := by decide +kernel

/-- A loaded charging trip in mode CHARGE, whose change waits at the allocator. -/
def charging : Chip :=
  let p := working .travel loadedTrip
  { p with power := { p.power with
      setpoint := 500, mode := .charge, handed := (Quad.all false).set 0 true, modeRequests := Quad.all [.charge] } }

theorem test_witness_EligibilityReevaluation :
    (kept charging).chip.power.handed.get 0 = true ∧ (kept charging).chip.eligibleLaw 0 = true := by decide +kernel

theorem test_witness_EndTripsOfAnotherKind :
    (kept charging).chip.power.modeRequests.get 3 = .charge :: [] ∧ trip.ofAnotherKind .standby = true ∧
    trip.ofAnotherKind .charge = false ∧ trip.leg = .empty := by decide +kernel

/-! ### Witnesses: hoists -/

theorem test_witness_HoldAndEnable :
    (∀ n ∈ [0, 1, 2], (handing plant (.holdHoist (3 : HoistId).val n)).chip.handedCommand =
      some (.holdHoist (3 : HoistId).val n)) ∧
    holdModeOf 0 = some .none ∧ holdModeOf 1 = some .hold ∧ holdModeOf 2 = some .step ∧
    (∀ on : Bool, (handing plant (.enableHoist (3 : HoistId).val (flagCode on))).chip.handedCommand =
      some (.enableHoist (3 : HoistId).val (flagCode on))) ∧ (plant.hoist 3).phase = .idle ∧
    (plant.link 3).enabled = true ∧
    ((plant.updLink 3 fun l => { l with enabled := false, state := .down }).link 3).enabled = false := by decide +kernel

/-- ENABLE_HOIST(off) to a hoist that is not IDLE, enabled or already disabled (log 39). -/
theorem test_witness_Enable_off :
    (∀ enabled : Bool, (handing ((working .faulted loadedTrip).updLink 0 fun l => { l with enabled := enabled })
      (.enableHoist (0 : HoistId).val 0)).chip.handedCommand = some (.enableHoist (0 : HoistId).val 0)) ∧
    ((working .faulted loadedTrip).hoist 0).phase ≠ .idle := by decide +kernel

/-- Hoist 0 HALTED in a phase. -/
def halted (resume : Phase) (t : Trip) : Chip := working .halted { t with resumePhase := some resume, haltCause := some .restart }

theorem test_witness_Resume :
    (∀ x ∈ [Phase.travel, .approach, .dwell, .engage, .release],
      (handing (halted x trip) (.resume (0 : HoistId).val)).chip.handedCommand = some (.resume (0 : HoistId).val) ∧
      (halted x trip).interlock = .closed ∧ ((halted x trip).hoist 0).phase = .halted ∧
      ((halted x trip).link 0).state = .up ∧
      ((halted x trip).hoist 0).active = some { trip with resumePhase := some x, haltCause := some .restart } ∧
      (halted x trip).holdsDestination 0 .active 1 = true) := by decide +kernel

/-- Hoist 0 HALTED in TRAVEL, its destination taken from it. -/
def lost (t : Trip) : Chip := (halted .travel t).updBay 1 fun _ => { surveyed .barred 200000 .occupied with cause := some .foreign }

theorem test_witness_Resume_lost :
    (∀ t ∈ [trip, loadedTrip],
      (handing (lost t) (.resume (0 : HoistId).val)).chip.handedCommand = some (.resume (0 : HoistId).val) ∧
      (lost t).holdsDestination 0 .active 1 = false ∧ (lost t).retargetBay 0 140000 = some 5 ∧
      ((lost t).updBay 5 fun r => { r with access := some 14#4 }).retargetBay 0 140000 = none) := by decide +kernel

theorem test_witness_AbandonTrip :
    (∀ t ∈ [trip, loadedTrip],
      (handing (halted .travel t) (.abandonTrip (0 : HoistId).val)).chip.handedCommand =
        some (.abandonTrip (0 : HoistId).val) ∧
      (handing (working .faulted t) (.abandonTrip (0 : HoistId).val)).chip.handedCommand =
        some (.abandonTrip (0 : HoistId).val)) ∧
    ((halted .travel trip).hoist 0).waitsForLatch = false ∧ ((halted .travel trip).hoist 0).withdrawal = .none ∧
    (((halted .engage trip).updHoist 0 fun c => { c with latchLevel := some .closed }).hoist 0).waitsForLatch = true := by
  decide +kernel

theorem test_witness_AbandonTrip_refused :
    (handing plant (.abandonTrip 4)).chip.handedCommand = some (.abandonTrip 4) ∧
    (handing plant (.abandonTrip (0 : HoistId).val)).chip.handedCommand = some (.abandonTrip (0 : HoistId).val) ∧
    (plant.hoist 0).phase ≠ .faulted ∧ (plant.hoist 0).phase ≠ .halted ∧
    (handing (plant.updHoist 0 fun c => { c with phase := .faulted }) (.abandonTrip (0 : HoistId).val)).chip.handedCommand =
      some (.abandonTrip (0 : HoistId).val) ∧
    ((plant.updHoist 0 fun c => { c with phase := .faulted }).hoist 0).active = none := by decide +kernel

theorem test_witness_Retarget :
    (handing (halted .travel loadedTrip) (.retarget (0 : HoistId).val (5 : BayId).val)).chip.handedCommand =
      some (.retarget (0 : HoistId).val (5 : BayId).val) ∧
    ((halted .travel loadedTrip).hoist 0).phase = .halted ∧ ((working .faulted loadedTrip).hoist 0).phase = .faulted ∧
    ((halted .travel loadedTrip).hoist 0).workPhase ≠ .release ∧ ((halted .travel loadedTrip).bay 5).state = .opened ∧
    (halted .travel loadedTrip).reaches 0 5 = true ∧ (halted .travel loadedTrip).holdsDestination 0 .active 1 = true := by
  decide +kernel

theorem test_witness_Retarget_refused :
    (∀ x ∈ [(4, 63), (3, 64)], (handing plant (.retarget x.1 x.2)).chip.handedCommand = some (.retarget x.1 x.2)) ∧
    (∀ p ∈ [plant, plant.updHoist 0 fun c => { c with phase := .faulted }, halted .travel trip, halted .release loadedTrip,
        halted .travel loadedTrip, (halted .travel loadedTrip).updBay 5 fun r => { r with access := some 14#4 }],
      ∀ b : BayId, b ∈ [3, 5] → (handing p (.retarget (0 : HoistId).val b.val)).chip.handedCommand =
        some (.retarget (0 : HoistId).val b.val)) ∧
    ((halted .travel trip).hoist 0).active = some { trip with resumePhase := some .travel, haltCause := some .restart } ∧
    ((halted .release loadedTrip).hoist 0).workPhase = .release ∧ ((halted .travel loadedTrip).bay 3).state ≠ .opened ∧
    ((halted .travel loadedTrip).updBay 5 fun r => { r with access := some 14#4 }).reaches 0 5 = false := by decide +kernel

theorem test_witness_ReferenceHoist :
    (handing plant (.referenceHoist (0 : HoistId).val (0 : BayId).val)).chip.handedCommand =
      some (.referenceHoist (0 : HoistId).val (0 : BayId).val) ∧
    (plant.bay 0).state ≠ .unsurveyed ∧ (plant.bay 0).elevation = some 140000 ∧ plant.reaches 0 0 = true ∧
    (plant.hoist 0).phase = .idle ∧
    ((140000 : Int) - ((plant.hp 0).zHead - ropeLength (plant.hp 0) (plant.unit 0).count -
      stretch (plant.hp 0) (plant.loadM 0) (ropeLength (plant.hp 0) (plant.unit 0).count))) = -880000 := by decide +kernel

/-- Hoist 0 FAULTED from APPROACH, with a trip or without. -/
def faulted (t : Option Trip) : Chip :=
  (working .faulted loadedTrip).updHoist 0 fun c =>
    { c with active := t, fault := { first := some .drive, detail := some 5, phaseAt := some .approach, further := some 0, count := 255 } }

theorem test_witness_ClearFault :
    (∀ t ∈ [none, some loadedTrip], (handing (faulted t) (.clearFault (0 : HoistId).val)).chip.handedCommand =
        some (.clearFault (0 : HoistId).val) ∧ ((faulted t).hoist 0).phase = .faulted ∧ ((faulted t).link 0).state = .up ∧
      ((faulted t).hoist 0).fault.phaseAt = some .approach) := by decide +kernel

theorem test_witness_ClearFault_refused :
    (handing plant (.clearFault 4)).chip.handedCommand = some (.clearFault 4) ∧
    (handing plant (.clearFault (0 : HoistId).val)).chip.handedCommand = some (.clearFault (0 : HoistId).val) ∧
    (plant.hoist 0).phase ≠ .faulted ∧
    (handing ((faulted none).updLink 0 fun l => { l with state := .lost }) (.clearFault (0 : HoistId).val)).chip.handedCommand =
      some (.clearFault (0 : HoistId).val) := by decide +kernel

theorem test_witness_SetParam_plant :
    (∀ x ∈ [(0x01, (9780 : Int)), (0x0F, -1), (0x0F, 0), (0x11, 7), (0x11, 8), (0x12, 0), (0x13, 11)],
      (handing plant (.setParam x.1 0 x.2)).chip.handedCommand = some (.setParam x.1 0 x.2)) ∧
    PlantParam.gravity.treatment.apply (plant.plantRange .gravity) 9780 = some 9780 ∧
    PlantParam.pPlantMax.treatment.apply (plant.plantRange .pPlantMax) (-1) = some 0 ∧
    PlantParam.bayFilter.treatment.apply (plant.plantRange .bayFilter) 8 = some 7 := by decide +kernel

theorem test_witness_SetParam_hoist :
    (∀ x ∈ [(0x45, (500 : Int)), (0x46, 5000), (0x47, 0), (0x4B, 3), (0x40, 100)],
      (handing plant (.setParam x.1 (0 : HoistId).val x.2)).chip.handedCommand = some (.setParam x.1 (0 : HoistId).val x.2)) ∧
    HoistParam.num.treatment.apply ((plant.hp 0).range .num) 500 = some 500 ∧
    HoistParam.zHead.treatment.apply ((plant.hp 0).range .zHead) 0 = some 0 ∧
    HoistParam.zHead.treatment.apply ((plant.hp 0).range .zHead) 1048576 = none ∧ (plant.hoist 0).phase = .idle ∧
    0 ≠ (plant.hp 0).zHead ∧ HoistParam.gear.treatment.apply ((plant.hp 0).range .gear) 3 = some 3 := by decide +kernel

theorem test_witness_SetParam_effects :
    (∀ x ∈ [(0x42, (0, (1000 : Int))), (0x45, (0, 500)), (0x46, (0, 5000)), (0x0F, (0, 100))],
      (handing plant (.setParam x.1 x.2.1 x.2.2)).chip.handedCommand = some (.setParam x.1 x.2.1 x.2.2)) ∧
    PlantParam.pPlantMax.treatment.apply (plant.plantRange .pPlantMax) 100 = some 100 ∧
    max (-(100 : Int)) (min charging.power.setpoint 100) ≠ charging.power.setpoint ∧
    PlantParam.latchFilter.treatment.apply (plant.plantRange .latchFilter) 0 = some 0 ∧
    0 ≠ plant.params.latchFilter ∧ 0 ≠ plant.params.bayFilter ∧
    HoistParam.den.treatment.apply ((plant.hp 0).range .den) 5000 = some 5000 ∧
    16 * 25 < 500 ∧ 1024 * 1 < 5000 ∧ 1000 ≠ (plant.hp 0).pRated ∧
    HoistParam.pRated.treatment.apply ((plant.hp 0).range .pRated) 1000 = some 1000 := by decide +kernel

theorem test_witness_HoistCommandsRefuse :
    (handing plant (.resume (0 : HoistId).val)).chip.handedCommand = some (.resume (0 : HoistId).val) ∧
    (plant.hoist 0).phase ≠ .halted ∧ (handing plant (.resume 255)).chip.handedCommand = some (.resume 255) ∧
    plant.interlock = .closed ∧ stopped.interlock = .opened ∧
    (handing stopped (.resume 255)).chip.handedCommand = some (.resume 255) ∧
    (handing (halted .travel trip) (.resume 255)).chip.handedCommand = some (.resume 255) ∧
    (∀ b : BayId, b ∈ [0, 4] → (handing plant (.referenceHoist (0 : HoistId).val b.val)).chip.handedCommand =
      some (.referenceHoist (0 : HoistId).val b.val)) ∧
    (plant.updBay 0 fun r => { r with access := some 14#4 }).reaches 0 0 = false ∧
    ((working .travel trip).hoist 0).phase ≠ .idle ∧ ((working .travel trip).hoist 0).phase ≠ .faulted ∧
    (handing (working .travel trip) (.setParam 0x47 (0 : HoistId).val 1048576)).chip.handedCommand =
      some (.setParam 0x47 (0 : HoistId).val 1048576) := by decide +kernel

theorem test_witness_HoistCommandsRefuse_range :
    (∀ x ∈ [(4, 2), (3, 3)], (handing plant (.holdHoist x.1 x.2)).chip.handedCommand = some (.holdHoist x.1 x.2)) ∧
    (∀ x ∈ [(4, 1), (3, 2)], (handing plant (.enableHoist x.1 x.2)).chip.handedCommand = some (.enableHoist x.1 x.2)) ∧
    (∀ n ∈ [4, 254], (handing plant (.resume n)).chip.handedCommand = some (.resume n)) ∧
    (∀ x ∈ [(4, 63), (3, 64)],
      (handing plant (.referenceHoist x.1 x.2)).chip.handedCommand = some (.referenceHoist x.1 x.2)) ∧
    (∀ x ∈ [(0x14, 0, (0 : Int)), (0x40, 4, 0), (0x01, 0, 9779)],
      (handing plant (.setParam x.1 x.2.1 x.2.2)).chip.handedCommand = some (.setParam x.1 x.2.1 x.2.2)) ∧
    plantParamOf 0x14 = none ∧ hoistParamOf 0x14 = none ∧ plantParamOf 0x40 = none ∧ plantParamOf 0x01 = some .gravity ∧
    PlantParam.gravity.treatment.apply (plant.plantRange .gravity) 9779 = none := by decide +kernel

/-! ### Witnesses: RESTART -/

/-- A RESTART that has reached the owners named. -/
def restarting (p : Chip) (queueDue powerDue : Bool) (hoistDue : Quad Bool) : Chip :=
  let p := given p .restart
  { p with port := { p.port with restart := some { RestartWork.handed with
      queueDue := queueDue, powerDue := powerDue, hoistDue := hoistDue } } }

theorem test_witness_RestartReaches :
    (handing charging .restart).chip.handedCommand = some .restart ∧
    (kept (restarting charging true true (Quad.all true))).chip.port.restart = some RestartWork.handed ∧
    RestartWork.handed.queueDue = true ∧ RestartWork.handed.powerDue = true ∧
    (kept (restarting charging true true (Quad.all true))).chip.power.mode ≠ .standby := by decide +kernel

/-- The Order Queue, or the Power Allocator, is the last of the six. -/
theorem test_witness_RestartReaches_last :
    (kept (restarting charging true false (Quad.all false))).chip.port.restart =
      some { RestartWork.handed with powerDue := false, hoistDue := Quad.all false } ∧
    (kept (restarting charging false true (Quad.all false))).chip.port.restart =
      some { RestartWork.handed with queueDue := false, hoistDue := Quad.all false } ∧
    (∀ h : HoistId, (Quad.all false).get h = false) ∧
    (kept (restarting charging true false (Quad.all false))).chip.port.inHand = Instr.restart.encode .service 7 := by
  decide +kernel

theorem test_witness_RestartHoist :
    (∀ t ∈ [trip, loadedTrip], ∀ x ∈ [Phase.travel, .dwell, .approach, .release, .halted],
      (kept (restarting (working x t) false false ((Quad.all false).set 0 true))).chip.port.restart =
        some { RestartWork.handed with queueDue := false, powerDue := false, hoistDue := (Quad.all false).set 0 true } ∧
      ((kept (restarting (working x t) false false ((Quad.all false).set 0 true))).chip.hoist 0).phase = x) ∧
    (kept (restarting plant false false (Quad.all true))).chip.port.inHand = Instr.restart.encode .service 7 ∧
    (Instr.restart.encode .service 7).isSome = true ∧ ((Quad.all false).set 0 true).get (0 : HoistId) = true ∧
    (Quad.all true).get (1 : HoistId) = true := by decide +kernel

theorem test_witness_RestartHoist_waits :
    (∀ w ∈ [Withdrawal.none, .mismatch, .abandon .returned],
      (((working .engage trip).updHoist 0 fun c => { c with latchLevel := some .closed, withdrawal := w }).hoist 0).withdrawal = w) ∧
    (((working .engage trip).updHoist 0 fun c => { c with latchLevel := some .closed }).hoist 0).waitsForLatch = true ∧
    ((kept (restarting (working .engage trip) false false ((Quad.all false).set 0 true))).chip.hoist 0).active = some trip ∧
    (∀ k : HoistId, k ≠ 0 → ((Quad.all false).set 0 true).get k = false) ∧ 0 < 256 ^ 1 := by decide +kernel

/-! ### Witnesses: the Trip Selector -/

/-- A serving whose list holds hoist 0. -/
def serving : Chip := { ordered with selector := { ordered.selector with request := true, serving := [0] } }

theorem test_witness_ServingStart :
    (kept { plant with selector := { plant.selector with request := true } }).chip.selector.request = true ∧
    (kept plant).chip.selector.serving = [] := by decide +kernel

theorem test_witness_Try :
    (kept serving).chip.selector.serving = 0 :: [] ∧ ((kept serving).chip.hoist 0).able = true ∧
    (kept serving).chip.orders.queue = [] ++ { mass := 0, destination := 1, hoist := none, tag := 9 } :: [] ∧
    (kept serving).chip.orderFits 0 { mass := 0, destination := 1, hoist := none, tag := 9 } = true ∧
    ((kept serving).chip.mass 0).bay = some 0 ∧ ((kept serving).chip.hoist 0).phase = .idle ∧
    (kept serving).chip.power.mode = .standby ∧
    ((kept (serving.updHoist 0 fun c => { c with holdMode := .hold })).chip.hoist 0).able = false ∧
    ((kept { working .travel loadedTrip with selector := serving.selector }).chip.hoist 0).able = true := by decide +kernel

/-- The plant serving hoist 0 in a mode, with mass 1 in bay 0 at an elevation. -/
def choosing (mode : PlantMode) (setpoint : Int) (z : Nat) : Chip :=
  { plant.updBay 0 fun r => { r with elevation := some z } with
    power := { plant.power with setpoint := setpoint, mode := mode }
    selector := { plant.selector with serving := [0] } }

/-- The candidates of the choice (R130): mass 1 in bay 0, and bays 1 and 5. -/
theorem test_choice_candidates (p : Chip) (chosen : p = choosing .charge 500 140000 ∨ p = choosing .discharge (-500) 300000) :
    p.mayLoad 0 0 0 ∧ p.mayReceive 0 1 ∧ p.mayReceive 0 5 ∧ (∀ m b, p.mayLoad 0 m b → m = 0) ∧
    ∀ b, p.mayReceive 0 b → b = 1 ∨ b = 5 := by
  have parked : ∀ m, (p.mass m).state = .parked → m = 0 ∨ m = 1 := by rcases chosen with rfl | rfl <;> decide +kernel
  have opened : ∀ b, (p.bay b).state = .opened → b = 1 ∨ b = 5 := by rcases chosen with rfl | rfl <;> decide +kernel
  have second : (p.mass 1).bay = some 2 ∧ (p.bay 2).service ≠ some false := by
    rcases chosen with rfl | rfl <;> decide +kernel
  refine ⟨?_, ?_, ?_, fun m b load => ?_, fun b receives => opened b receives.1⟩
  · unfold Chip.mayLoad; rcases chosen with rfl | rfl <;> decide +kernel
  · unfold Chip.mayReceive; rcases chosen with rfl | rfl <;> decide +kernel
  · unfold Chip.mayReceive; rcases chosen with rfl | rfl <;> decide +kernel
  · obtain ⟨state, -, -, inBay, -, service, -⟩ := load
    rcases parked m state with rfl | rfl
    · rfl
    · obtain rfl := Option.some.inj (second.1.symm.trans inBay)
      exact absurd service second.2

theorem test_witness_Try_automatic :
    (kept (choosing .charge 500 140000)).chip.selector.serving = [0] ∧
    ((kept (choosing .charge 500 140000)).chip.hoist 0).able = true ∧
    (kept (choosing .charge 500 140000)).chip.orders.queue = [] ∧
    (choosing .charge 500 140000).elevationOf 0 + (choosing .charge 500 140000).params.minLift ≤
      (choosing .charge 500 140000).elevationOf 5 ∧
    (choosing .discharge (-500) 300000).elevationOf 1 + (choosing .discharge (-500) 300000).params.minLift ≤
      (choosing .discharge (-500) 300000).elevationOf 0 ∧
    (choosing .discharge (-500) 140000).elevationOf 0 <
      (choosing .discharge (-500) 140000).elevationOf 1 + (choosing .discharge (-500) 140000).params.minLift := by
  decide +kernel

theorem test_witness_Try_pair_charge : (choosing .charge 500 140000).automaticPair 0 0 0 5 := by
  obtain ⟨load, -, receive, loads, receives⟩ := test_choice_candidates _ (.inl rfl)
  refine ⟨load, fun m b l ne => absurd (loads m b l) ne, receive, fun b r ne => ?_⟩
  rcases receives b r with rfl | rfl
  · unfold Chip.chosenBefore; decide +kernel
  · exact absurd rfl ne

theorem test_witness_Try_pair_discharge : (choosing .discharge (-500) 300000).automaticPair 0 0 0 1 := by
  obtain ⟨load, receive, -, loads, receives⟩ := test_choice_candidates _ (.inr rfl)
  refine ⟨load, fun m b l ne => absurd (loads m b l) ne, receive, fun b r ne => ?_⟩
  rcases receives b r with rfl | rfl
  · exact absurd rfl ne
  · unfold Chip.chosenBefore; decide +kernel

/-! ### Witnesses: clock and lines -/

theorem test_witness_MillisecondMark :
    (kept plant).chip.settled = true ∧ (kept plant).chip.sensors.qualifier = .closed ∧
    (kept stopped).chip.settled = true ∧ (kept stopped).chip.sensors.qualifier = .opened ∧
    (kept { stopped with sensors := { stopped.sensors with qualifier := .qualifying, closing := 999, mark := 999 } }).chip.settled = true ∧
    ((kept plant).chip.hoist 0).segmentAhead = false ∧ ((kept plant).chip.hoist 0).segmentDue = false := by decide +kernel

/-- The plant before mark 16, with group BAY at a place in its count; LATCH_FILTER 2 has T 32 and BAY_FILTER 3 has T 64 (R53). -/
def counting (since : Nat) (fresh ahead : Bool) : Chip :=
  { plant with
    sensors := { plant.sensors with bayGroup := { since := since, fresh := fresh, due := false, ahead := ahead } } }

theorem test_witness_MillisecondMark_groups :
    (∀ x ∈ [(63, false, false), (62, false, false), (5, true, false), (63, false, true)],
      (kept (counting x.1 x.2.1 x.2.2)).chip.settled = true) ∧ plant.params.bayFilter = 3 ∧
    (kept ((working .dwell loadedTrip).updHoist 0 fun c => { c with dwellTimer := some ⟨5, 600⟩ })).chip.settled = true ∧
    (kept { plant with port := { plant.port with buffer := [0xA5], gap := 5 } }).chip.settled = true ∧
    (kept (plant.updLink 0 fun l => { l with buffer := [1], gap := 49 })).chip.settled = true := by decide +kernel

/-- A sample instant falls 64 marks after the one before with code 3, at once after a start, and on every mark with code 0 (R53, R54). -/
theorem test_groups_worked :
    (FilterGroup.atMark 3 ⟨63, false, false, false⟩).due = true ∧ (FilterGroup.atMark 3 ⟨62, false, false, false⟩).due = false ∧
    (FilterGroup.atMark 3 ⟨0, true, false, false⟩).due = true ∧ (FilterGroup.atMark 0 ⟨0, false, false, false⟩).due = true ∧
    (FilterGroup.atMark 3 ⟨63, false, false, true⟩).due = false := by decide

theorem test_witness_SegmentEvent :
    (kept { plant with sensors := { plant.sensors with mark := 1049 } }).chip.segmentOpen 0 = true ∧
    (kept (plant.updHoist 3 fun c => { c with segmentDue := true })).chip.segmentOpen 3 = true ∧
    ((kept plant).chip.link 0).closedAhead = false ∧ (kept plant).chip.timeoutReached 0 = false := by decide +kernel

/-- Hoist 0 at its segment event, its count that of elevation 139,999 and one event before of 141,000, an overspeed run begun. -/
def speeding (t : Trip) : Chip :=
  ((working .travel t).updUnit 0 fun u => { u with count := 1375001, previousCount := 1373439 }).updHoist 0 fun c =>
    { c with segmentDue := true, overspeedRun := 1, speedRef := 100 }

theorem test_witness_SegmentEvent_overspeed :
    (kept (speeding trip)).chip.segmentOpen 0 = true ∧ ((kept (speeding trip)).chip.hoist 0).overspeedRun = 1 ∧
    ∃ t, exec (.segmentEvent 0) (kept (speeding trip)) = .next t ∧ (t.chip.hoist 0).overspeedRun = 2 :=
  ⟨by decide +kernel, by decide +kernel, by
    have h := State.event_of (kept (speeding trip)) ((kept (speeding trip)).chip.segmentOpen 0)
      ((kept (speeding trip)).chip.segment 0) (by decide +kernel)
    refine ⟨_, h, ?_⟩
    decide +kernel⟩

/-- The same with hoist 0's source held and without its mass. -/
theorem test_witness_SegmentEvent_clear :
    ((speeding loadedTrip).hoist 0).active = some loadedTrip ∧ loadedTrip.leg = .loaded ∧
    ((speeding loadedTrip).updBay 0 fun r =>
      { r with state := .outbound, occupant := none, holder := some (0, .active) }).holdsSource 0 .active 0 = true := by
  decide +kernel

/-- The premise on the markers, whose one outcome is that of `checkMarker`. -/
theorem test_witness_SegmentEvent_markers :
    (kept (speeding trip)).chip.timeoutReached 0 = false ∧ ((kept (speeding trip)).chip.unit 0).referenced = true ∧
    ((kept (speeding trip)).chip.unit 0).missedMarkers ≤ 65535 ∧
    ∀ zp z e, markerRule (kept (speeding trip)).chip.params.slipLimit zp z e .idle
      (checkMarker (kept (speeding trip)).chip.params.slipLimit zp z e .idle).1
      (checkMarker (kept (speeding trip)).chip.params.slipLimit zp z e .idle).2 :=
  ⟨by decide +kernel, by decide +kernel, by decide +kernel, fun _ _ _ => markerRule_checkMarker _ _ _ _ _⟩

/-- The table of R80 with SLIP_LIMIT 250: a marker passed without a pulse is missed, one turned away from is not, one met is left. -/
theorem test_markers_worked :
    checkMarker 250 139000 141000 140000 .idle = (.idle, true) ∧ checkMarker 250 139000 140250 140000 .idle = (.armedBelow, false) ∧
    checkMarker 250 139000 139749 140000 .armedBelow = (.idle, false) ∧
    checkMarker 250 141000 139749 140000 .armedAbove = (.idle, true) ∧ checkMarker 250 140100 140251 140000 .met = (.idle, false) ∧
    checkMarker 250 140250 141000 140000 .idle = (.idle, false) := by decide

/-- Hoist 0 at a distance from its target, with a share of power or none. -/
def near (phase : Phase) (t : Trip) (z share : Nat) : Chip :=
  let p := (working phase t).updUnit 0 fun u => { u with elevation := z }
  { p with power := { p.power with share := (Quad.all 0).set 0 share } }

theorem test_witness_PhaseTests :
    (∀ x ∈ [(Phase.travel, trip, 141000, 0), (Phase.travel, trip, 140011, 0), (Phase.approach, trip, 140010, 0),
        (Phase.travel, loadedTrip, 199990, 0), (Phase.approach, loadedTrip, 199989, 0), (Phase.travel, loadedTrip, 140000, 0),
        (Phase.travel, loadedTrip, 140000, 1), (Phase.dwell, loadedTrip, 140000, 1), (Phase.dwell, loadedTrip, 140000, 0),
        (Phase.engage, trip, 140000, 0)],
      ((near x.1 x.2.1 x.2.2.1 x.2.2.2).hoist 0).active = some x.2.1 ∧
      ((near x.1 x.2.1 x.2.2.1 x.2.2.2).hoist 0).phase = x.1) ∧
    (near .travel loadedTrip 140000 0).referenceFor 0 0 .travel = 0 ∧ loadedTrip.kind.automatic = true := by decide +kernel

/-- A state for the phase tests at a segment event; the reference is within a ramp step of 0, or not. -/
def nearDue (phase : Phase) (t : Trip) (speed : Int) : Chip :=
  (near phase t 140000 0).updHoist 0 fun c => { c with segmentDue := true, speedRef := speed }

theorem test_witness_PhaseTests_event :
    (∀ x ∈ [(Phase.travel, trip, (0 : Int)), (Phase.travel, loadedTrip, 5), (Phase.travel, loadedTrip, 2000), (Phase.dwell, loadedTrip, 0),
        (Phase.approach, trip, 100)],
      (kept (nearDue x.1 x.2.1 x.2.2)).chip.segmentOpen 0 = true ∧
      ((kept (nearDue x.1 x.2.1 x.2.2)).chip.hoist 0).active = some x.2.1 ∧
      ((kept (nearDue x.1 x.2.1 x.2.2)).chip.hoist 0).phase = x.1) := by decide +kernel

theorem test_witness_PhaseTests_unfaulted :
    ∃ t, exec (.segmentEvent 0) (kept (nearDue .travel loadedTrip 2000)) = .next t ∧ (t.chip.hoist 0).phase = .travel ∧
      (t.chip.hoist 0).speedRef ≠ 0 := by
  have h := State.event_of (kept (nearDue .travel loadedTrip 2000)) ((kept (nearDue .travel loadedTrip 2000)).chip.segmentOpen 0)
    ((kept (nearDue .travel loadedTrip 2000)).chip.segment 0) (by decide +kernel)
  refine ⟨_, h, ?_, ?_⟩ <;> decide +kernel

theorem test_witness_Ramp :
    (5 : Int) * (-3) < 0 ∧ (0 : Int) < 3 * 5 ∧ (3 : Int).natAbs < (5 : Int).natAbs ∧ (0 : Int).natAbs < (1 : Int).natAbs ∧
    (0 : Int) < 5 * 3 ∧ ((working .travel loadedTrip).hoist 0).active = some loadedTrip ∧
    ((working .travel trip).hoist 0).active = some trip ∧ (working .travel loadedTrip).brakeIn 0 .travel = .release ∧
    (working .travel trip).brakeIn 0 .travel = .release := by decide +kernel

theorem test_witness_Ramp_references :
    (0 : Int) ≤ 5 * 0 ∧ (0 : Int).natAbs < (5 : Int).natAbs ∧ (working .approach trip).brakeIn 0 .approach = .release ∧
    plant.brakeIn 0 .idle = .set ∧ loadedTrip.kind ≠ .directed ∧ loadedTrip.measured = some 20000 ∧
    ({ loadedTrip with kind := .directed } : Trip).kind = .directed := by decide +kernel

/-- The speeds of R147 and R148: V_REPOSITION, V_TRANSFER, and 1,200 kW over (9,500 + 20,000) kg. -/
theorem test_travelSpeed_worked :
    (near .travel trip 0 0).travelSpeed 0 trip = (plant.hp 0).vReposition ∧
    (near .travel trip 0 0).travelSpeed 0 { loadedTrip with kind := .directed } = (plant.hp 0).vTransfer ∧
    (near .travel trip 0 1200).travelSpeed 0 loadedTrip = 4147 := by decide +kernel

/-- Hoist 0 at its segment event within APPROACH_DIST of bay 0, with the link's segment closed already. -/
def late (speed : Int) : Chip :=
  ((working .travel trip).updUnit 0 fun u => { u with offset := -879500, previousCount := 0 }).updHoist 0 fun c =>
    { c with segmentDue := true, speedRef := speed }

theorem test_witness_Ramp_late :
    (∀ speed ∈ [(101 : Int), 100, -101], (kept (late speed)).chip.segmentOpen 0 = true ∧
      ((kept (late speed)).chip.hoist 0).speedRef = speed ∧ ((kept (late speed)).chip.hp 0).creep = 100) ∧
    ∃ t, exec (.segmentEvent 0) (kept (late 101)) = .next t ∧
      approachEntered ((kept (late 101)).chip.hoist 0).phase (t.chip.hoist 0).phase := by
  refine ⟨by decide +kernel, ?_⟩
  have h := State.event_of (kept (late 101)) ((kept (late 101)).chip.segmentOpen 0) ((kept (late 101)).chip.segment 0)
    (by decide +kernel)
  refine ⟨_, h, ?_⟩
  unfold approachEntered
  decide +kernel

/-! ### Witnesses: hoist links -/

/-- The six bytes before the check byte of a reply. -/
def replyBytes (code load : Nat) : List Byte := [1, BitVec.ofNat 8 code, 0] ++ bigEndian 3 load

/-- Hoist 0's link with a reply but for its last byte. -/
def answering (p : Chip) (state : LinkState) (code load : Nat) : Chip :=
  p.updLink 0 fun l => { l with state := state, buffer := replyBytes code load }

theorem test_witness_HoistLink :
    ((kept plant).chip.link 0).buffer.length < 6 ∧ ((kept plant).chip.link 0).buffer = [] ∧
    ((kept (plant.updLink 0 fun l => { l with buffer := [1], gap := 49 })).chip.link 0).gap < 50 ∧
    ((kept (answering plant .up 5 9500)).chip.link 0).gap < 50 ∧
    ((kept (plant.updLink 0 fun l => { l with buffer := [1], gap := 50 })).chip.link 0).buffer ≠ [] ∧
    50 ≤ ((kept (plant.updLink 0 fun l => { l with buffer := [1], gap := 50 })).chip.link 0).gap ∧
    (∀ x ∈ [LinkState.down, .proving, .up, .lost],
      ((kept (answering plant x 5 9500)).chip.link 0).buffer.length = 6 ∧
      ((kept (answering plant x 5 9500)).chip.link 0).state = x ∧
      ((kept (answering plant x 5 9500)).chip.link 0).segmentReply = false) ∧
    (driveReplyOf (replyBytes 5 9500 ++ [checkByte (replyBytes 5 9500)])).isSome = true ∧
    driveReplyOf (replyBytes 5 9500 ++ [checkByte (replyBytes 5 9500) + 1]) = none := by decide +kernel

/-- A reply from a drive that is not ready, with code 0, and one with a code, in every phase. -/
theorem test_witness_HoistLink_drive :
    driveReplyOf [0, 0, 0, 0x00, 0x25, 0x1C, 0xBF] = some { ready := false, code := 0, load := 9500 } ∧
    (∀ x ∈ [Phase.idle, .travel, .dwell, .approach, .engage, .release, .halted, .faulted],
      ((kept ((working x loadedTrip).updLink 0 fun l => { l with buffer := [0, 0, 0, 0x00, 0x25, 0x1C] })).chip.link 0).buffer =
        [0, 0, 0, 0x00, 0x25, 0x1C] ∧
      ((kept (answering (working x loadedTrip) .up 15 9500)).chip.hoist 0).phase = x) ∧
    ((kept ((working .travel loadedTrip).updLink 0 fun l => { l with buffer := [0, 0, 0, 0x00, 0x25, 0x1C] })).chip.link 0).state =
      .up := by decide +kernel

/-- Hoist 0's link one segment from its loss. -/
def failing (phase : Phase) : Chip :=
  ((working phase loadedTrip).updLink 0 fun l => { l with missed := 2 }).updHoist 0 fun c => { c with segmentDue := true }

theorem test_witness_LinkTimeout :
    (∀ x ∈ [Phase.idle, .travel, .faulted], (kept (failing x)).chip.segmentOpen 0 = true ∧
      ((kept (failing x)).chip.link 0).state = .up ∧ ((kept (failing x)).chip.link 0).segmentReply = false ∧
      (kept (failing x)).chip.params.linkTimeout ≤ satInc 255 ((kept (failing x)).chip.link 0).missed ∧
      ((kept (failing x)).chip.link 0).closedAhead = false ∧ ((kept (failing x)).chip.hoist 0).phase = x) := by
  decide +kernel

/-- A hoist's segment event on a link in each of the states of R159, missed and answered; an UP link at its last missed reply, in phases
that the LINK fault finds. -/
theorem test_witness_SegmentEvent_link :
    (∀ x ∈ [LinkState.down, .proving, .up, .lost], ∀ answered ∈ [true, false], ∀ enabled ∈ [true, false],
      (kept ((failing .travel).updLink 0 fun l => { l with
        state := x, segmentReply := answered, enabled := enabled, missed := 1 })).chip.segmentOpen 0 = true) ∧
    (kept ((failing .travel).updLink 0 fun l => { l with closedAhead := true })).chip.segmentOpen 0 = true ∧
    (∀ x ∈ [Phase.idle, .travel, .faulted], (kept (failing x)).chip.timeoutReached 0 = true) ∧
    satInc 255 1 < (failing .travel).params.linkTimeout := by decide +kernel

/-- Hoist 0 at its segment event on an UP link at its last missed reply, a marker behind it and one miss in the run: the second miss comes
with the LINK fault, or on an IDLE hoist without it. -/
def missing (phase : Phase) : Chip :=
  ((speeding trip).updHoist 0 fun c => { c with phase := phase }).updUnit 0 (fun u => { u with count := 1376565, missRun := 1 })
    |>.updLink 0 fun l => { l with state := .up, segmentReply := false, missed := 2, closedAhead := false }

theorem test_witness_SegmentEvent_missed :
    ∀ x ∈ [Phase.travel, .idle], (kept (missing x)).chip.segmentOpen 0 = true ∧ (kept (missing x)).chip.timeoutReached 0 = true ∧
      ((kept (missing x)).chip.unit 0).referenced = true ∧ ((kept (missing x)).chip.unit 0).missRun = 1 ∧
      140000 ∈ (kept (missing x)).chip.expectedMarkers 0 ∧
      (checkMarker (kept (missing x)).chip.params.slipLimit
        ((kept (missing x)).chip.elevationAt 0 ((kept (missing x)).chip.unit 0).previousCount)
        ((kept (missing x)).chip.elevationAt 0 ((kept (missing x)).chip.unit 0).count) 140000 .idle).2 = true := by
  decide +kernel

/-- The closing of a segment by the table of R159, with LINK_TIMEOUT 3: what a missed one, and an answered one, leave of the state, the
proving count and the missed-reply count. -/
theorem test_closing_worked :
    (∀ x ∈ [(LinkState.down, true, false, LinkState.proving, 0, 1), (.down, true, true, .proving, 0, 0),
        (.down, false, false, .down, 3, 2), (.proving, true, false, .proving, 0, 3), (.proving, true, true, .proving, 3, 2), (.up, true, false, .lost, 3, 3),
        (.up, true, true, .up, 3, 2), (.lost, true, false, .lost, 3, 3)],
      (({ LinkPort.initial with
        state := x.1, enabled := x.2.1, segmentReply := x.2.2.1, proving := 3, missed := 2 } : LinkPort).closeSegment 3) =
        { LinkPort.initial with
          state := x.2.2.2.1, enabled := x.2.1, proving := x.2.2.2.2.1, missed := x.2.2.2.2.2
          linkLosses := if x.2.2.2.1 = .lost ∧ x.1 = .up then 1 else 0 }) := by decide +kernel

/-- Hoist 0 with its latch closed at the source. -/
def engaged (load : Nat) : Chip :=
  answering ((working .engage trip).updHoist 0 fun c => { c with latchLevel := some .closed }) .up 0 load

/-- Hoist 0 with its latch open at the destination, which reads OCCUPIED. -/
def released : Chip :=
  answering ((working .release loadedTrip).updBay 1 fun r => { r with sensor := some .occupied }) .up 0 10500

theorem test_witness_Replies_engage :
    (∀ load ∈ [28900, 29500, 30100, 19500, 19499],
      ((kept (engaged load)).chip.link 0).buffer.length = 6 ∧ ((kept (engaged load)).chip.link 0).segmentReply = false ∧
      ((kept (engaged load)).chip.link 0).state = .up ∧ ((kept (engaged load)).chip.hoist 0).active = some trip ∧
      ((kept (engaged load)).chip.hoist 0).phase = .engage ∧ ((kept (engaged load)).chip.hoist 0).withdrawal = .none ∧
      ((kept (engaged load)).chip.hoist 0).latchLevel = some .closed ∧
      driveReplyOf (replyBytes 0 load ++ [checkByte (replyBytes 0 load)]) =
        some { ready := true, code := 0, load := load }) ∧
    ((kept (engaged 29500)).chip.mass 0).nominal = some 20000 ∧ ((kept plant).chip.hp 0).tare = 9500 ∧
    apart (28900 - 9500) 20000 * 1000 ≤ (kept plant).chip.params.weighTol * 20000 ∧
    (kept plant).chip.params.weighTol * 20000 < apart (19500 - 9500) 20000 * 1000 := by decide +kernel

theorem test_witness_Replies_release :
    ((kept released).chip.hoist 0).phase = .release ∧ ((kept released).chip.hoist 0).latchLevel = some .opened ∧
    ((kept released).chip.bay 1).sensor = some .occupied ∧ 10500 ≤ ((kept released).chip.hp 0).loadEmptyMax ∧
    ((kept released).chip.hoist 0).staged = none ∧ ((kept released).chip.hoist 0).active = some loadedTrip ∧
    ((kept released).chip.mass 0).nominal = some 20000 := by decide +kernel

/-- The release of `released` with another trip staged, of mass 2 from bay 2 to bay 5, the bays held; the source of the first still held. -/
def releasedOn (mode : HoldMode) : Chip :=
  let p := released.updHoist 0 fun c =>
    { c with holdMode := mode, staged := some { trip with mass := 1, source := 2, destination := 5 } }
  let p := p.updBay 0 fun r => { r with state := .outbound, occupant := none, holder := some (0, .active) }
  let p := p.updBay 2 fun r => { r with state := .outbound, holder := some (0, .staged) }
  (p.updBay 5 fun r => { r with state := .inbound, holder := some (0, .staged) }).setHeld 0 .staged
    (some { mass := 1, destination := 5, hoist := none, tag := 0 })

theorem test_witness_Replies_staged :
    (∀ mode ∈ [HoldMode.none, .step],
      ((kept (releasedOn mode)).chip.hoist 0).phase = .release ∧ ((kept (releasedOn mode)).chip.link 0).buffer.length = 6 ∧
      ((kept (releasedOn mode)).chip.hoist 0).staged = some { trip with mass := 1, source := 2, destination := 5 } ∧
      ((kept (releasedOn mode)).chip.hoist 0).holdMode = mode ∧
      (kept (releasedOn mode)).chip.held 0 .staged = some { mass := 1, destination := 5, hoist := none, tag := 0 } ∧
      (kept (releasedOn mode)).chip.holdsSource 0 .active 0 = true ∧ ((kept (releasedOn mode)).chip.bay 0).occupant = none ∧
      ((kept (releasedOn mode)).chip.bay 5).holder = some (0, .staged)) ∧ loadedTrip.source ≠ loadedTrip.destination := by
  decide +kernel

/-! ### Witnesses: the lines of the shaft -/

theorem test_witness_FilterSample :
    (kept State.reset.chip).chip.sampleOpen (.bay 1) = true ∧ (kept State.reset.chip).chip.sampleOpen (.latch 1) = true ∧
    ((kept State.reset.chip).chip.sensors.bayLines[(63 : BayId)]).accepted = none := by decide +kernel

/-- A line with an accepted level, its group's instant due. -/
def sampling (code : Nat) (previous : Option Occupancy) : Chip :=
  { plant with
    params := { plant.params with bayFilter := code }
    sensors := { plant.sensors with
      bayGroup := { plant.sensors.bayGroup with due := true }
      bayLines := plant.sensors.bayLines.set 1 ⟨some .empty, previous⟩ } }

theorem test_witness_FilterSample_levels :
    (∀ x ∈ [(0, none), (3, some Occupancy.occupied), (3, some .empty)], (kept (sampling x.1 x.2)).chip.sampleOpen (.bay 2) = true ∧
      ((kept (sampling x.1 x.2)).chip.sensors.bayLines[(1 : BayId)]).accepted = some .empty) := by decide +kernel

/-- Hoist 0's latch line about to be accepted OPEN, in a phase with a trip and a withdrawal; the other lines OPEN. -/
def opening (phase : Phase) (t : Trip) (withdrawal : Withdrawal) : Chip :=
  let p := (working phase t).updHoist 0 fun c => { c with latchLevel := some .closed, withdrawal := withdrawal }
  let p := p.updBay 0 fun r => { r with state := .outbound, holder := some (0, .active) }
  { p.setHeld 0 .active (some { mass := 0, destination := 1, hoist := none, tag := 0 }) with
    sensors := { p.sensors with
      latchGroup := { p.sensors.latchGroup with due := true }
      latchLines := (Quad.all ⟨some .opened, some .opened⟩).set 0 ⟨some .closed, some .opened⟩ } }

theorem test_witness_FilterSample_latch :
    (∀ x ∈ [(Phase.engage, trip, Withdrawal.mismatch), (.engage, trip, .abandon .returned), (.engage, trip, .abandon .discarded),
        (.travel, loadedTrip, .none), (.faulted, loadedTrip, .none), (.release, loadedTrip, .none), (.engage, trip, .none)],
      (kept (opening x.1 x.2.1 x.2.2)).chip.sampleOpen (.latch 0) = true ∧
      ((kept (opening x.1 x.2.1 x.2.2)).chip.sensors.latchLines.get 0) = ⟨some .closed, some .opened⟩ ∧
      (∀ k : HoistId, k ≠ 0 → ((kept (opening x.1 x.2.1 x.2.2)).chip.sensors.latchLines.get k).accepted =
        some (if (0 : BitVec 4).getLsbD k.val then .closed else .opened)) ∧
      ((kept (opening x.1 x.2.1 x.2.2)).chip.hoist 0).withdrawal = x.2.2 ∧
      ((kept (opening x.1 x.2.1 x.2.2)).chip.hoist 0).active = some x.2.1) ∧
    (opening .engage trip .mismatch).holdsSource 0 .active 0 = true ∧
    (opening .engage trip .mismatch).holdsDestination 0 .active 1 = true ∧
    ((opening .engage trip .mismatch).bay 0).occupant ≠ none ∧
    ((opening .travel loadedTrip .none).hoist 0).loaded = true ∧
    ((opening .travel loadedTrip .none).hoist 0).workPhase ≠ .release := by decide +kernel

/-- The release of `opening` with the destination OCCUPIED and the rope slack, and the lack of one or the other. -/
theorem test_witness_FilterSample_release :
    (∀ x ∈ [(some 10500, Occupancy.occupied), (some 10501, .occupied), (none, .occupied), (some 10500, .empty)],
      (kept (((opening .release loadedTrip .none).updHoist 0 fun c => { c with phaseReply := x.1 }).updBay 1 fun r =>
        { r with sensor := some x.2 })).chip.sampleOpen (.latch 0) = true) ∧
    (kept (opening .release loadedTrip .none)).chip.hp 0 = HoistParams.powerOn ∧ HoistParams.powerOn.loadEmptyMax = 10500 ∧
    ((kept (opening .release loadedTrip .none)).chip.hoist 0).phase = .release ∧
    ((kept (opening .release loadedTrip .none)).chip.hoist 0).staged = none := by decide +kernel

/-- Hoist 0's latch line about to be accepted CLOSED, with a load on the rope; the other lines OPEN. -/
def closing (phase : Phase) (withdrawal : Withdrawal) (load : Option Nat) : Chip :=
  let p := (working phase trip).updHoist 0 fun c => { c with withdrawal := withdrawal, phaseReply := load }
  { p with sensors := { p.sensors with
      latchGroup := { p.sensors.latchGroup with due := true }
      latchLines := (Quad.all ⟨some .opened, some .opened⟩).set 0 ⟨some .opened, some .closed⟩ } }

theorem test_witness_FilterSample_engage :
    (∀ x ∈ [(Phase.engage, Withdrawal.none, some 29500), (.engage, .none, some 19500), (.engage, .none, some 19499),
        (.engage, .none, none), (.engage, .mismatch, some 29500), (.halted, .none, some 29500)],
      (kept (closing x.1 x.2.1 x.2.2)).chip.sampleOpen (.latch 1) = true ∧
      (kept (closing x.1 x.2.1 x.2.2)).chip.sensors.latchLines.get 0 = ⟨some .opened, some .closed⟩ ∧
      (∀ k : HoistId, k ≠ 0 → ((kept (closing x.1 x.2.1 x.2.2)).chip.sensors.latchLines.get k).accepted =
        some (if (1 : BitVec 4).getLsbD k.val then .closed else .opened)) ∧
      ((kept (closing x.1 x.2.1 x.2.2)).chip.hoist 0).phase = x.1 ∧
      ((kept (closing x.1 x.2.1 x.2.2)).chip.hoist 0).withdrawal = x.2.1 ∧
      ((kept (closing x.1 x.2.1 x.2.2)).chip.hoist 0).phaseReply = x.2.2 ∧
      ((kept (closing x.1 x.2.1 x.2.2)).chip.hoist 0).active = some trip) ∧
    ((kept (closing .engage .none none)).chip.mass 0).nominal = some 20000 ∧
    ((kept (closing .engage .none none)).chip.hp 0).tare = 9500 := by decide +kernel

/-- The bays that an acceptance finds in each state. -/
def held : Chip :=
  let p := (working .travel loadedTrip).updBay 0 fun r => { r with state := .outbound, occupant := none, holder := some (0, .active) }
  (p.updBay 2 fun r => { r with state := .outbound, holder := some (1, .staged) }).updMass 0 fun _ => massIn .aboard none

theorem test_witness_Acceptances :
    (plant.bay 4).state = .unsurveyed ∧ (plant.bay 3).state = .barred ∧ (plant.bay 1).state = .opened ∧
    (plant.bay 0).state = .occupied ∧ (plant.bay 0).occupant = some 0 ∧ (plant.mass 0).state = .parked ∧
    ((plant.updMass 0 fun r => { r with state := .retiring }).mass 0).state = .retiring ∧
    (held.bay 0).state = .outbound ∧ (held.bay 0).occupant = none ∧ (held.bay 2).state = .outbound ∧
    (held.bay 2).occupant = some 1 ∧ (held.bay 1).state = .inbound ∧ (held.bay 1).holder = some (0, .active) ∧
    held.releaseInProgress (0, .active) = false ∧ (working .release loadedTrip).releaseInProgress (0, .active) = true ∧
    ((working .release loadedTrip).bay 1).holder = some (0, .active) := by decide +kernel

theorem test_witness_Acceptances_holders :
    (held.bay 2).holder = some (1, .staged) ∧
    ((held.updHoist 1 fun c => { c with staged := some { trip with mass := 1, source := 2, destination := 5 } }).hoist 1).staged =
      some { trip with mass := 1, source := 2, destination := 5 } ∧ held.queued 1 = false ∧
    (∀ x ∈ [(Phase.travel, loadedTrip), (.dwell, loadedTrip), (.approach, loadedTrip), (.halted, loadedTrip), (.faulted, loadedTrip),
        (.travel, trip), (.engage, trip)],
      ((working x.1 x.2).bay 1).state = .inbound ∧ ((working x.1 x.2).bay 1).holder = some (0, .active) ∧
      ((working x.1 x.2).hoist 0).active = some x.2 ∧ ((working x.1 x.2).hoist 0).workPhase ≠ .release ∧
      (working x.1 x.2).retargetBay 0 140000 = some 5 ∧
      ((working x.1 x.2).updBay 5 fun r => { r with access := some 14#4 }).retargetBay 0 140000 = none) ∧
    ((twoTrips.updBay 5 fun r => { r with state := .inbound, holder := some (0, .staged) }).bay 5).holder = some (0, .staged) := by
  decide +kernel

/-- Every bay line accepted EMPTY but that of bay 1, which is about to follow a sample of OCCUPIED. -/
def arriving : Chip :=
  { working .travel loadedTrip with
    sensors := { plant.sensors with
      bayGroup := { plant.sensors.bayGroup with due := true }
      bayLines := (Vector.replicate 64 ⟨some .empty, some .empty⟩).set 1 ⟨some .empty, some .occupied⟩ } }

theorem test_witness_Acceptances_sample :
    (kept arriving).chip.sampleOpen (.bay 2) = true ∧
    ((kept arriving).chip.sensors.bayLines[(1 : BayId)]) = ⟨some .empty, some .occupied⟩ ∧
    (∀ k : BayId, k ≠ 1 → ((kept arriving).chip.sensors.bayLines[k]).accepted =
      some (if (2 : BitVec 64).getLsbD k.val then .occupied else .empty)) := by decide +kernel

theorem test_witness_Interlock :
    (kept { stopped with sensors := { stopped.sensors with qualifier := .qualifying, closing := 1000 } }).chip.sensors.qualifier = .qualifying ∧
    1000 ≤ (kept { stopped with sensors := { stopped.sensors with qualifier := .qualifying, closing := 1000 } }).chip.sensors.closing ∧
    (kept { stopped with sensors := plant.sensors }).chip.interlock = .closed ∧
    ((kept { stopped with sensors := plant.sensors }).chip.hoist 0).interlockSeen = .opened ∧
    (∀ x ∈ [Phase.idle, .travel, .approach, .dwell, .engage, .release, .halted, .faulted],
      (kept { working x loadedTrip with sensors := stopped.sensors }).chip.interlock = .opened ∧
      ((kept { working x loadedTrip with sensors := stopped.sensors }).chip.hoist 0).interlockSeen = .closed ∧
      ((kept { working x loadedTrip with sensors := stopped.sensors }).chip.hoist 0).phase = x ∧
      ((kept { working x loadedTrip with sensors := stopped.sensors }).chip.hoist 0).active = some loadedTrip) := by
  decide +kernel

theorem test_witness_Encoder :
    (plant.unit 0).channels = ⟨false, false⟩ ∧ transitionOf ⟨false, false⟩ ⟨true, false⟩ = .forward ∧
    transitionOf ⟨false, false⟩ ⟨false, true⟩ = .backward ∧ (plant.unit 0).count < 2147483647 ∧
    -2147483648 < (plant.unit 0).count ∧ (plant.unit 0).illegal = 0 ∧
    1 ≤ ((plant.updUnit 0 fun u => { u with illegal := 1 }).unit 0).illegal := by decide +kernel

/-- A further illegal transition at a hoist that is FAULTED already. -/
theorem test_witness_Encoder_further :
    ((kept ((working .faulted trip).updUnit 0 fun u => { u with illegal := 2 })).chip.hoist 0).phase = .faulted ∧
    ((kept ((working .faulted trip).updUnit 0 fun u => { u with illegal := 2 })).chip.unit 0).illegal = 2 ∧
    ((kept ((working .faulted trip).updUnit 0 fun u => { u with illegal := 2 })).chip.unit 0).channels = ⟨false, false⟩ := by
  decide +kernel

/-- The count at an end of its range (R66). -/
theorem test_witness_Encoder_limits :
    (∀ n ∈ [(2147483647 : Int), -2147483648],
      ((kept (plant.updUnit 0 fun u => { u with count := n })).chip.unit 0).count = n) := by decide +kernel

/-- Hoist 0 where its count gives the elevation of bay 0 less a deviation. -/
def passing (deviation : Int) : Chip :=
  (plant.updUnit 0 fun u => { u with offset := -880000 - deviation }).updLink 0 fun l =>
    { l with sent := some { hoist := 0, speed := 100, brake := .release, latch := .opened } }

theorem test_witness_Marker_ignored :
    (State.reset.chip.unit 0).referenced = false ∧
    ((plant.updUnit 0 fun u => { u with lastPulse := some 801 }).unit 0).lastPulse = some 801 ∧
    (kept plant).chip.sensors.mark < 801 + 200 := by decide +kernel

theorem test_witness_Marker_taken :
    (∀ x ∈ [(0 : Int), 40, 41, 250, 251, -251],
      ((kept (passing x)).chip.unit 0).referenced = true ∧ ((kept (passing x)).chip.unit 0).lastPulse = none ∧
      140000 ∈ (kept (passing x)).chip.expectedMarkers 0 ∧
      (140000 : Int) - (kept (passing x)).chip.elevationAt 0 ((kept (passing x)).chip.unit 0).count = x ∧
      (kept (passing x)).chip.moving 0 = true ∧
      (∀ e ∈ (kept (passing x)).chip.expectedMarkers 0, e ≠ 140000 →
        x.natAbs < apart e ((kept (passing x)).chip.elevationAt 0 ((kept (passing x)).chip.unit 0).count))) := by
  decide +kernel

/-- The plant with no bay surveyed. -/
def bare : Chip := { plant with bays := (Chip.powerOn .baud115200 (Quad.all ⟨false, false⟩)).bays }

/-- A deviation within the window but for the drift, one beyond SLIP_LIMIT on a hoist at rest, and a hoist without a marker. -/
theorem test_witness_Marker_refused :
    (∀ x ∈ [(40 : Int), 250], (kept ((passing x).updUnit 0 fun u => { u with drift := 1961 })).chip.params.driftLimit <
      (((kept ((passing x).updUnit 0 fun u => { u with drift := 1961 })).chip.unit 0).drift + x).natAbs) ∧
    (kept ((passing 251).updLink 0 fun l => { l with sent := none })).chip.moving 0 = false ∧
    plant.params.syncWindow ≤ plant.params.slipLimit ∧ plant.params.slipLimit < 251 ∧
    ((kept (passing 251)).chip.hoist 0).phase ≠ .faulted ∧
    ((kept ((passing 251).updHoist 0 fun c => { c with phase := .faulted })).chip.hoist 0).phase = .faulted ∧
    (kept bare).chip.expectedMarkers 0 = [] ∧
    ((kept bare).chip.unit 0).referenced = true ∧
    ((kept bare).chip.unit 0).lastPulse = none := by decide +kernel

theorem test_witness_Timers_phase :
    ∀ x ∈ [Phase.engage, .release, .approach],
      ((kept ((working x trip).updHoist 0 fun c => { c with phaseTimer := some ⟨20, 20⟩ })).chip.hoist 0).phaseTimer =
        some ⟨20, 20⟩ ∧
      ((kept ((working x trip).updHoist 0 fun c => { c with phaseTimer := some ⟨20, 20⟩ })).chip.hoist 0).phase = x := by
  decide +kernel

/-- A staged trip, its bays held, that a fault drops, with an order held for it and without. -/
theorem test_witness_Timers_staged :
    ∀ x ∈ [some { mass := 1, destination := 5, hoist := none, tag := 0 }, (none : Option Order)],
      let p := ((releasedOn .none).setHeld 0 .staged x).updHoist 0 fun c => { c with phaseTimer := some ⟨20, 20⟩ }
      ((kept p).chip.hoist 0).phase = .release ∧ ((kept p).chip.hoist 0).phaseTimer = some ⟨20, 20⟩ ∧
      ((kept p).chip.hoist 0).staged = some { trip with mass := 1, source := 2, destination := 5 } ∧
      (kept p).chip.held 0 .staged = x ∧ (kept p).chip.holdsSource 0 .staged 2 = true ∧
      ((kept p).chip.bay 2).occupant ≠ none ∧ (kept p).chip.holdsDestination 0 .staged 5 = true := by decide +kernel

/-- Hoist 0 in DWELL with its timer run out. -/
def dwelling : Chip := (working .dwell loadedTrip).updHoist 0 fun c => { c with dwellTimer := some ⟨600, 600⟩ }

theorem test_witness_Timers_dwell :
    ((kept dwelling).chip.hoist 0).dwellTimer = some ⟨600, 600⟩ ∧ ((kept dwelling).chip.hoist 0).phase = .dwell ∧
    ((kept dwelling).chip.hoist 0).active = some loadedTrip ∧
    (kept dwelling).chip.retargetBay 0 ((kept dwelling).chip.unit 0).elevation = some 5 ∧
    (kept (dwelling.updBay 5 fun r => { r with state := .barred, cause := some .lost })).chip.retargetBay 0
      ((kept dwelling).chip.unit 0).elevation = none := by decide +kernel

end Sys2Proof.Tests
end

section
/-! SUPPORT. What a command that a block carries out or refuses leaves in the part and in its port, stated once for every command of the
Mass Table and the Bay Table (spec/10 R184, R190). -/

namespace Sys2Proof.Machine

/-! ### Frames -/

theorem Chip.unchangedBut_append {p q r : Chip} {first second : List Part} (a : p.unchangedBut q first)
    (b : q.unchangedBut r second) : p.unchangedBut r (first ++ second) :=
  Chip.unchangedBut_trans (Chip.unchangedBut_mono a fun _ => List.mem_append_left _)
    (Chip.unchangedBut_mono b fun _ => List.mem_append_right _)

theorem Chip.updMass_unchangedBut (p : Chip) (m : MassId) (f : MassRecord → MassRecord) :
    p.unchangedBut (p.updMass m f) [.masses] := by
  intro x out
  cases x <;> simp at out <;> rfl

theorem Chip.updBay_unchangedBut (p : Chip) (b : BayId) (f : BayRecord → BayRecord) :
    p.unchangedBut (p.updBay b f) [.bays] := by
  intro x out
  cases x <;> simp at out <;> rfl

theorem Chip.request_unchangedBut (p : Chip) : p.unchangedBut p.request [.selector] := by
  intro x out
  cases x <;> simp at out <;> rfl

theorem Chip.orders_unchangedBut (p : Chip) (o : OrderQueue) : p.unchangedBut { p with orders := o } [.orders] := by
  intro x out
  cases x <;> simp at out <;> rfl

theorem Chip.notifyOrders_unchangedBut (p : Chip) (m : MassId) : p.unchangedBut (p.notifyOrders m) [.orders] := by
  unfold Chip.notifyOrders
  split
  · exact p.orders_unchangedBut _
  · exact p.unchangedBut_refl _

section
variable {p q : Chip} {parts : List Part}

theorem Chip.unchangedBut.mass (frame : p.unchangedBut q parts) (out : .masses ∉ parts) (m : MassId) :
    q.mass m = p.mass m := by
  have e : q.masses = p.masses := frame .masses out
  unfold Chip.mass
  rw [e]

theorem Chip.unchangedBut.bay (frame : p.unchangedBut q parts) (out : .bays ∉ parts) (b : BayId) :
    q.bay b = p.bay b := by
  have e : q.bays = p.bays := frame .bays out
  unfold Chip.bay
  rw [e]

end

/-! ### The reply, in a part whose items are true to its records -/

theorem Attention.rises_self (a : Attention) : a.rises a = false := by simp [Attention.rises]

/-- A reply drawn up in the part as it stands: the conditions are those already reported. -/
theorem Chip.Kept.repliedWith_reply {p : Chip} (kept : p.Kept) {f : Frame} (inHand : p.port.inHand = some f) (a : Answer) :
    p.repliedWith (p.reply a) a := by
  refine ⟨f, inHand, ?_⟩
  rw [Chip.reply_conditions, ← kept.attention, Attention.rises_self, Bool.or_false, Chip.reply_of_some p a f inHand]

/-- A reply drawn up at the end of an event that left the port alone. -/
theorem Chip.repliedWith_finish_reply {before q : Chip} {f : Frame} (inHand : before.port.inHand = some f)
    (port : q.port = before.port) (a : Answer) : before.repliedWith ((before.finish q).reply a) a := by
  refine ⟨f, inHand, ?_⟩
  rw [Chip.reply_conditions, Chip.finish_conditions,
    Chip.reply_of_some _ a f (by rw [Chip.finish_inHand, port, inHand]), Chip.finish_port, port]

/-- The frame in hand of a command handed over. -/
theorem State.Hands.frame {s : State} {i : Instr} (hands : s.Hands i) : ∃ f, s.chip.port.inHand = some f := by
  obtain ⟨f, inHand, _⟩ := Chip.handedCommand_eq_some _ _ hands.handed
  exact ⟨f, inHand⟩

/-! ### Queries and commands taken by their owner -/

/-- A query that is handed over is answered, and only the port's items change (R185, R186). -/
theorem State.Hands.query {s : State} {i : Instr} (hands : s.Hands i) (a : Answer) :
    ∃ t, s.query i a = .next t ∧ t.pending = s.pending ∧ s.chip.unchangedBut t.chip [.port] ∧
      s.chip.repliedWith t.chip a := by
  obtain ⟨f, inHand⟩ := hands.frame
  exact ⟨_, s.query_of i a hands.handed, rfl, s.chip.reply_unchangedBut a, hands.kept.repliedWith_reply inHand a⟩

/-- A command that is handed over takes a step, and one that its owner refuses is answered with the refusal (R184). -/
theorem State.Hands.command_refusals {s : State} {i : Instr} (hands : s.Hands i) (taken : Chip × Answer) :
    ∃ t, s.command i taken = .next t ∧
      ∀ reason, taken.2 = refuse reason → s.chip.repliedWith t.chip (refuse reason) := by
  obtain ⟨f, inHand⟩ := hands.frame
  cases refused : taken.2.status.isRefusal with
  | true =>
    refine ⟨_, s.command_of_refused i taken hands.handed refused, fun reason e => ?_⟩
    rw [← e]
    exact hands.kept.repliedWith_reply inHand taken.2
  | false =>
    refine ⟨_, s.command_of_done i taken hands.handed refused, fun reason e => ?_⟩
    rw [e] at refused
    exact absurd refused (by simp)

/-- A command that its owner refuses for one reason. -/
theorem State.Hands.command_refused {s : State} {i : Instr} (hands : s.Hands i) {taken : Chip × Answer} {reason : Reason}
    (refused : taken.2 = refuse reason) :
    ∃ t, s.command i taken = .next t ∧ s.chip.repliedWith t.chip (refuse reason) := by
  obtain ⟨t, next, replied⟩ := hands.command_refusals taken
  exact ⟨t, next, replied reason refused⟩

/-- The end of an event that changed records of the masses, the bays, the orders or the selector only moves nothing but the port. -/
theorem Chip.Kept.finish_unchangedBut {before p : Chip} (kept : before.Kept)
    (quiet : before.unchangedBut p [.masses, .bays, .selector, .orders]) :
    p.unchangedBut (before.finish p) [.port] := by
  have hoists : p.hoists = before.hoists := quiet .hoists (by decide)
  have links : p.links = before.links := quiet .links (by decide)
  have units : p.units = before.units := quiet .units (by decide)
  have sensors : p.sensors = before.sensors := quiet .sensors (by decide)
  have referenced : ∀ h, (p.unit h).referenced = (before.unit h).referenced := fun h => by
    unfold Chip.unit
    rw [units]
  have interlock : p.interlock = before.interlock := by
    unfold Chip.interlock
    rw [sensors]
  rw [Chip.finish_quiet kept hoists links referenced interlock]
  intro x out
  cases x <;> simp at out <;> rfl

/-- A command that is carried out with a change of masses, bays, orders or the selector only: beyond that change nothing moves but the
port, which answers DONE. -/
theorem State.Hands.command_done {s : State} {i : Instr} (hands : s.Hands i) {p : Chip}
    (quiet : s.chip.unchangedBut p [.masses, .bays, .selector, .orders]) (fields : List Byte) :
    ∃ t, s.command i (p, answerDone fields) = .next t ∧ t.pending = s.pending ∧ p.unchangedBut t.chip [.port] ∧
      s.chip.repliedWith t.chip (answerDone fields) := by
  obtain ⟨f, inHand⟩ := hands.frame
  exact ⟨_, s.command_of_done i _ hands.handed rfl, rfl,
    Chip.unchangedBut_trans (hands.kept.finish_unchangedBut quiet) (Chip.reply_unchangedBut _ _),
    Chip.repliedWith_finish_reply inHand (quiet .port (by decide)) _⟩

/-! ### A record in a reply reads no item of the port -/

theorem Chip.massResult_drawnAs {before p q : Chip} (frame : p.unchangedBut q [.port]) (draws : p.draws = before.draws)
    (m : MassId) : (q.drawnAs before).massResult m = p.massResult m := by
  have masses : q.masses = p.masses := frame .masses (by decide)
  have bays : q.bays = p.bays := frame .bays (by decide)
  have units : q.units = p.units := frame .units (by decide)
  have params : q.params = p.params := frame .params (by decide)
  cases p; cases q; cases before
  subst masses bays units params draws
  rfl

theorem Chip.bayResult_drawnAs {before p q : Chip} (frame : p.unchangedBut q [.port]) (draws : p.draws = before.draws)
    (b : BayId) : (q.drawnAs before).bayResult b = p.bayResult b := by
  have bays : q.bays = p.bays := frame .bays (by decide)
  cases p; cases q; cases before
  subst bays draws
  rfl

/-! ### Operands out of range -/

theorem massOf_eq_none_iff (n : Nat) : massOf n = none ↔ n = 0 ∨ 96 < n := by
  unfold massOf
  split <;> simp <;> omega

theorem bayOf_eq_none_iff (n : Nat) : bayOf n = none ↔ 63 < n := by
  unfold bayOf
  split <;> simp <;> omega

theorem nominalOk_eq_true_iff (n : Nat) : nominalOk n = true ↔ 5000 ≤ n ∧ n ≤ 80000 := by simp [nominalOk]

theorem nominalOk_eq_false_iff (n : Nat) : nominalOk n = false ↔ n < 5000 ∨ 80000 < n := by
  simp [nominalOk]
  omega

/-- The bays that ADMIT_MASS and FOUND_MASS may fill (R10, R19). -/
theorem BayRecord.freeFor_iff (r : BayRecord) (causes : List BarredCause) :
    r.freeFor causes = true ↔ r.state = .opened ∨ r.state = .barred ∧ ∃ c ∈ causes, r.cause = some c := by
  unfold BayRecord.freeFor
  cases r.state <;> cases r.cause <;> simp

end Sys2Proof.Machine
end

section
/-! SUPPORT. The Mass Table and the Bay Table: power-on reset, the mass queries, and the commands of spec/01 and spec/02 with their checks. -/

namespace Sys2Proof.Machine

/-! ### Power-on reset (R7, R46) -/

theorem Chip.powerOn_mass (rate : LineRate) (first : Quad Channels) (m : MassId) :
    (Chip.powerOn rate first).mass m = MassRecord.empty := by
  simp [Chip.mass, Chip.powerOn]

theorem Chip.powerOn_bay (rate : LineRate) (first : Quad Channels) (b : BayId) :
    (Chip.powerOn rate first).bay b = BayRecord.unsurveyed := by
  simp [Chip.bay, Chip.powerOn]

theorem Chip.powerOn_unit (rate : LineRate) (first : Quad Channels) (h : HoistId) :
    (Chip.powerOn rate first).unit h = PositionUnit.initial (first.get h) := Quad.get_tab _ h

theorem Chip.powerOn_hoist (rate : LineRate) (first : Quad Channels) (h : HoistId) :
    (Chip.powerOn rate first).hoist h = HoistCtl.initial := Quad.get_all _ h

theorem Chip.powerOn_link (rate : LineRate) (first : Quad Channels) (h : HoistId) :
    (Chip.powerOn rate first).link h = LinkPort.initial := Quad.get_all _ h

theorem Chip.powerOn_hp (rate : LineRate) (first : Quad Channels) (h : HoistId) :
    (Chip.powerOn rate first).hp h = HoistParams.powerOn := Quad.get_all _ h

/-- Settles O4, table by table; only the draws counter of the state before is kept. -/
theorem powerOnResetLeaves : Obligations.PowerOnResetLeaves := by
  intro s straps first
  refine ⟨{ s with chip := { Chip.powerOn (lineRateOf straps) first with draws := s.chip.draws } }, rfl, rfl,
    Chip.powerOn_mass (lineRateOf straps) first, Chip.powerOn_bay (lineRateOf straps) first, rfl, rfl, rfl, rfl, rfl, rfl,
    rfl, rfl, rfl, fun h => ?_, fun h => ?_, fun h => ?_, rfl, rfl, rfl, Chip.powerOn_hp (lineRateOf straps) first⟩
  · have e := Chip.powerOn_unit (lineRateOf straps) first h
    exact ⟨congrArg PositionUnit.channels e, congrArg PositionUnit.referenced e, congrArg PositionUnit.count e⟩
  · have e := Chip.powerOn_hoist (lineRateOf straps) first h
    exact ⟨congrArg HoistCtl.phase e, congrArg HoistCtl.active e, congrArg HoistCtl.staged e, congrArg HoistCtl.brake e,
      congrArg HoistCtl.speedRef e⟩
  · have e := Chip.powerOn_link (lineRateOf straps) first h
    exact ⟨congrArg LinkPort.enabled e, congrArg LinkPort.state e⟩

/-! ### GET_MASS and NEXT_MASS (R23, R24) -/

theorem getMass_massNumber (p : Chip) (m : MassId) : getMass (massNumber m) p = answerDone (p.massResult m) := by
  simp [getMass, massOf_massNumber]

/-- The first slot, in increasing number, that meets a test. -/
theorem massList_find?_eq_some {test : MassId → Bool} {m : MassId} (met : test m = true)
    (before : ∀ k < m, test k = false) : massList.find? test = some m := by
  rw [massList, List.find?_eq_some_iff_getElem]
  refine ⟨met, m.val, by simp, by simp, fun j below => ?_⟩
  simpa using before ⟨j, by omega⟩ (Fin.lt_def.mpr below)

section
variable {start filter : Nat}

theorem nextMass_outOfRange (p : Chip) (bad : start = 0 ∨ 96 < start ∨ filter % 64 = 0) :
    nextMass start filter p = refuse .range := by
  unfold nextMass
  rw [if_pos]
  rw [massOf_eq_none_iff]
  omega

/-- The check that NEXT_MASS makes of its operands passes. -/
theorem nextMass_inRange (low : 1 ≤ start) (high : start ≤ 96) (states : filter % 64 ≠ 0) :
    ¬(massOf start = none ∨ filter % 64 = 0) := by
  rw [massOf_eq_none_iff]
  omega

theorem nextMass_found (p : Chip) (low : 1 ≤ start) (high : start ≤ 96) (states : filter % 64 ≠ 0) (m : MassId)
    (reached : start ≤ massNumber m) (chosen : filter.testBit (p.mass m).state.code = true)
    (first : ∀ k, start ≤ massNumber k → massNumber k < massNumber m →
      filter.testBit (p.mass k).state.code = false) :
    nextMass start filter p = answerDone (p.massResult m) := by
  have found : massList.find? (fun m => decide (start ≤ massNumber m) && maskHas filter (p.mass m).state.code) = some m := by
    refine massList_find?_eq_some (by simp [reached, maskHas, chosen]) fun k below => ?_
    by_cases reached : start ≤ massNumber k
    · have low : massNumber k < massNumber m := Nat.succ_lt_succ below
      simp [maskHas, first k reached low]
    · simp [reached]
  unfold nextMass
  simp only [if_neg (nextMass_inRange low high states), found]

theorem nextMass_none (p : Chip) (low : 1 ≤ start) (high : start ≤ 96) (states : filter % 64 ≠ 0)
    (noneChosen : ∀ k, start ≤ massNumber k → filter.testBit (p.mass k).state.code = false) :
    nextMass start filter p = answerDone [] := by
  have found : massList.find? (fun m => decide (start ≤ massNumber m) && maskHas filter (p.mass m).state.code) = none := by
    refine List.find?_eq_none.mpr fun k _ => ?_
    by_cases reached : start ≤ massNumber k
    · simp [maskHas, noneChosen k reached]
    · simp [reached]
  unfold nextMass
  simp only [if_neg (nextMass_inRange low high states), found]

end

/-- Settles O17: both queries answer from the records as they stand, NEXT_MASS by the first slot of its search. -/
theorem massQueriesAnswer : Obligations.MassQueriesAnswer := by
  intro s m start filter
  refine ⟨fun hands => ?_, fun hands low high states => ?_, fun hands bad => ?_⟩
  · rw [← getMass_massNumber]
    exact hands.query _
  · obtain ⟨t, next, pending, frame, replied⟩ := hands.query (nextMass start filter s.chip)
    refine ⟨t, next, pending, frame, fun reached chosen first => ?_, fun noneChosen => ?_⟩
    · rwa [nextMass_found s.chip low high states m reached chosen first] at replied
    · rw [nextMass_none s.chip low high states noneChosen] at replied
      exact replied
  · rw [← nextMass_outOfRange s.chip bad]
    exact hands.query _

/-! ### The checks of the Mass Table's commands (R9, R10, R13, R14, R19) -/

section
variable (p : Chip) (m : MassId) (b : BayId) (number nominal bay : Nat)

theorem admitMass_outOfRange (bad : number = 0 ∨ 96 < number ∨ nominal < 5000 ∨ 80000 < nominal ∨ 63 < bay) :
    (admitMass number nominal bay p).2 = refuse .range := by
  unfold admitMass
  cases em : massOf number with
  | none => rfl
  | some m =>
    cases eb : bayOf bay with
    | none => rfl
    | some b =>
      have nm : ¬(number = 0 ∨ 96 < number) := by simp [← massOf_eq_none_iff, em]
      have nb : ¬63 < bay := by simp [← bayOf_eq_none_iff, eb]
      simp [(nominalOk_eq_false_iff nominal).mpr (by omega)]

/-- ADMIT_MASS with operands in range makes the checks of R10 in their order. -/
theorem admitMass_inRange (low : 5000 ≤ nominal) (high : nominal ≤ 80000) :
    admitMass (massNumber m) nominal b.val p =
      if (p.mass m).state ≠ .absent then (p, refuse .conflict)
      else if (p.bay b).freeFor [.foreign] = false then (p, refuse .state)
      else if (p.bay b).sensor ≠ some .occupied then (p, refuse .sensor)
      else ((p.massAdmitted m nominal b).occupyBay b m,
        answerDone (((p.massAdmitted m nominal b).occupyBay b m).massResult m)) := by
  simp [admitMass, massOf_massNumber, bayOf_val, (nominalOk_eq_true_iff nominal).mpr ⟨low, high⟩]

theorem amendMass_outOfRange (bad : number = 0 ∨ 96 < number ∨ nominal < 5000 ∨ 80000 < nominal) :
    (amendMass number nominal p).2 = refuse .range := by
  unfold amendMass
  cases em : massOf number with
  | none => rfl
  | some m =>
    have nm : ¬(number = 0 ∨ 96 < number) := by simp [← massOf_eq_none_iff, em]
    simp [(nominalOk_eq_false_iff nominal).mpr (by omega)]

theorem retireMass_outOfRange (bad : number = 0 ∨ 96 < number) : (retireMass number p).2 = refuse .range := by
  simp [retireMass, (massOf_eq_none_iff number).mpr bad]

theorem foundMass_outOfRange (bad : number = 0 ∨ 96 < number ∨ 63 < bay) :
    (foundMass number bay p).2 = refuse .range := by
  unfold foundMass
  cases em : massOf number with
  | none => rfl
  | some m =>
    have nm : ¬(number = 0 ∨ 96 < number) := by simp [← massOf_eq_none_iff, em]
    simp [(bayOf_eq_none_iff bay).mpr (by omega)]

/-- The record AMEND_MASS leaves (R13). -/
def Chip.massAmended (p : Chip) (m : MassId) (nominal : Nat) : Chip :=
  let q := p.updMass m fun r => { r with nominal := some nominal, weighHold := false }
  if (p.mass m).weighHold then q.request else q

section
variable (low : 5000 ≤ nominal) (high : nominal ≤ 80000)
include low high

theorem amendMass_absent (absent : (p.mass m).state = .absent) :
    (amendMass (massNumber m) nominal p).2 = refuse .noSuch := by
  simp [amendMass, massOf_massNumber, (nominalOk_eq_true_iff nominal).mpr ⟨low, high⟩, absent]

theorem amendMass_locked
    (locked : (p.mass m).state = .assigned ∨ (p.mass m).state = .aboard ∨ (p.mass m).state = .retiring) :
    (amendMass (massNumber m) nominal p).2 = refuse .locked := by
  rcases locked with e | e | e <;>
    simp [amendMass, massOf_massNumber, (nominalOk_eq_true_iff nominal).mpr ⟨low, high⟩, e]

theorem amendMass_done (free : (p.mass m).state = .parked ∨ (p.mass m).state = .missing) :
    amendMass (massNumber m) nominal p =
      (p.massAmended m nominal, answerDone ((p.massAmended m nominal).massResult m)) := by
  rcases free with e | e <;>
    simp [amendMass, massOf_massNumber, (nominalOk_eq_true_iff nominal).mpr ⟨low, high⟩, e, Chip.massAmended]

end

theorem retireMass_absent (absent : (p.mass m).state = .absent) :
    (retireMass (massNumber m) p).2 = refuse .noSuch := by
  simp [retireMass, massOf_massNumber, absent]

theorem retireMass_locked
    (locked : (p.mass m).state = .assigned ∨ (p.mass m).state = .aboard ∨ (p.mass m).state = .retiring) :
    (retireMass (massNumber m) p).2 = refuse .locked := by
  rcases locked with e | e | e <;> simp [retireMass, massOf_massNumber, e]

theorem retireMass_notAtService (parked : (p.mass m).state = .parked) (inBay : (p.mass m).bay = some b)
    (bad : (p.bay b).service ≠ some true ∨ (p.bay b).state ≠ .occupied) :
    (retireMass (massNumber m) p).2 = refuse .state := by
  simp [retireMass, massOf_massNumber, parked, inBay, bad]

theorem retireMass_missing (missing : (p.mass m).state = .missing) :
    retireMass (massNumber m) p = (p.massAbsent m, answerDone ((p.massAbsent m).massResult m)) := by
  simp [retireMass, massOf_massNumber, missing]

theorem retireMass_parked (parked : (p.mass m).state = .parked) (inBay : (p.mass m).bay = some b)
    (service : (p.bay b).service = some true) (occupied : (p.bay b).state = .occupied) :
    retireMass (massNumber m) p = (p.massRetiring m, answerDone ((p.massRetiring m).massResult m)) := by
  simp [retireMass, massOf_massNumber, parked, inBay, service, occupied]

/-- FOUND_MASS with operands in range makes the checks of R19 in their order. -/
theorem foundMass_inRange :
    foundMass (massNumber m) b.val p =
      if (p.mass m).state = .absent then (p, refuse .noSuch)
      else if (p.mass m).state ≠ .missing then (p, refuse .state)
      else if (p.bay b).freeFor [.foreign, .lost] = false then (p, refuse .state)
      else if (p.bay b).occupant ≠ none then (p, refuse .conflict)
      else if (p.bay b).sensor ≠ some .occupied then (p, refuse .sensor)
      else ((p.massFound m b).occupyBay b m, answerDone (((p.massFound m b).occupyBay b m).massResult m)) := by
  simp [foundMass, massOf_massNumber, bayOf_val]

end

/-- A bay OPEN, or BARRED FOREIGN, is free for an admission (R10). -/
theorem BayRecord.freeFor_foreign (r : BayRecord) :
    r.freeFor [.foreign] = true ↔ r.state = .opened ∨ r.state = .barred ∧ r.cause = some .foreign := by
  simp [BayRecord.freeFor_iff]

/-- A bay OPEN, or BARRED FOREIGN or LOST, is free for a mass found (R19). -/
theorem BayRecord.freeFor_foreign_lost (r : BayRecord) :
    r.freeFor [.foreign, .lost] = true ↔
      r.state = .opened ∨ r.state = .barred ∧ (r.cause = some .foreign ∨ r.cause = some .lost) := by
  simp [BayRecord.freeFor_iff]

/-- Settles O27: each command makes its checks in the order of its rule, and the first that fails gives the answer. -/
theorem massCommandsRefuseInOrder : Obligations.MassCommandsRefuseInOrder := by
  intro s m number nominal bay b
  refine ⟨fun hands bad => ?_, fun hands low high => ?_, fun hands bad => ?_, fun hands bad => ?_, fun hands bad => ?_,
    fun hands low high => ?_, fun hands => ?_, fun hands => ?_⟩
  · exact hands.command_refused (admitMass_outOfRange s.chip number nominal bay bad)
  · obtain ⟨t, next, refused⟩ := hands.command_refusals (admitMass (massNumber m) nominal b.val s.chip)
    rw [admitMass_inRange s.chip m b nominal low high] at refused
    refine ⟨t, next, fun taken => ?_, fun absent notOpen notForeign => ?_, fun absent free sensor => ?_⟩
    · exact refused _ (by simp [taken])
    · have free : (s.chip.bay b).freeFor [.foreign] = false := by
        simp only [← Bool.not_eq_true, BayRecord.freeFor_foreign]
        tauto
      exact refused _ (by simp [absent, free])
    · exact refused _ (by simp [absent, (BayRecord.freeFor_foreign _).mpr free, sensor])
  · exact hands.command_refused (amendMass_outOfRange s.chip number nominal bad)
  · exact hands.command_refused (retireMass_outOfRange s.chip number bad)
  · exact hands.command_refused (foundMass_outOfRange s.chip number bay bad)
  · obtain ⟨t, next, refused⟩ := hands.command_refusals (amendMass (massNumber m) nominal s.chip)
    exact ⟨t, next, fun absent => refused _ (amendMass_absent s.chip m nominal low high absent),
      fun locked => refused _ (amendMass_locked s.chip m nominal low high locked)⟩
  · obtain ⟨t, next, refused⟩ := hands.command_refusals (retireMass (massNumber m) s.chip)
    exact ⟨t, next, fun absent => refused _ (retireMass_absent s.chip m absent),
      fun locked => refused _ (retireMass_locked s.chip m locked),
      fun parked inBay bad => refused _ (retireMass_notAtService s.chip m b parked inBay bad)⟩
  · obtain ⟨t, next, refused⟩ := hands.command_refusals (foundMass (massNumber m) b.val s.chip)
    rw [foundMass_inRange] at refused
    refine ⟨t, next, fun absent => refused _ (by simp [absent]),
      fun present notMissing => refused _ (by simp [present, notMissing]), fun missing notOpen notBarred => ?_,
      fun missing free => ⟨fun taken => ?_, fun vacant sensor => ?_⟩⟩
    · have free : (s.chip.bay b).freeFor [.foreign, .lost] = false := by
        simp only [← Bool.not_eq_true, BayRecord.freeFor_foreign_lost]
        tauto
      exact refused _ (by simp [missing, free])
    · exact refused _ (by simp [missing, (BayRecord.freeFor_foreign_lost _).mpr free, taken])
    · exact refused _ (by simp [missing, (BayRecord.freeFor_foreign_lost _).mpr free, vacant, sensor])

/-! ### What the commands do where they pass their checks (R11, R13, R15, R16, R20) -/

/-- A bay filled with a mass that has entered PARKED in it (R11, R20): what the part, the mass and the bay are then. -/
theorem Chip.fillBay_unchangedBut (p : Chip) (m : MassId) (b : BayId) (f : MassRecord → MassRecord) :
    p.unchangedBut (((p.updMass m f).request).occupyBay b m) [.masses, .bays, .selector] :=
  Chip.unchangedBut_mono
    (Chip.unchangedBut_append
      (Chip.unchangedBut_append (p.updMass_unchangedBut m f) (Chip.request_unchangedBut _)) (Chip.updBay_unchangedBut _ b _))
    (by decide)

/-- The answer of a command that fills a bay: the mass takes its new record, the bay is OCCUPIED, a selection request is raised. -/
theorem State.Hands.fillBay {s : State} {i : Instr} (hands : s.Hands i) (m : MassId) (b : BayId)
    (f : MassRecord → MassRecord) (p : Chip) (filled : p = ((s.chip.updMass m f).request).occupyBay b m) :
    ∃ t, s.command i (p, answerDone (p.massResult m)) = .next t ∧ t.pending = s.pending ∧
      s.chip.unchangedBut t.chip [.masses, .bays, .selector, .port] ∧
      t.chip.mass m = f (s.chip.mass m) ∧ s.chip.otherMassesSame t.chip m ∧
      t.chip.bay b = { s.chip.bay b with state := .occupied, occupant := some m, cause := none, holder := none } ∧
      s.chip.otherBaysSame t.chip b ∧ t.chip.selector = { s.chip.selector with request := true } ∧
      s.chip.repliedWith t.chip (answerDone ((t.chip.drawnAs s.chip).massResult m)) := by
  have change : s.chip.unchangedBut p [.masses, .bays, .selector] := filled ▸ s.chip.fillBay_unchangedBut m b f
  obtain ⟨t, next, pending, frame, replied⟩ :=
    hands.command_done (Chip.unchangedBut_mono change (by decide)) (p.massResult m)
  refine ⟨t, next, pending, Chip.unchangedBut_append change frame, ?_, fun k ne => ?_, ?_, fun k ne => ?_, ?_, ?_⟩
  · rw [frame.mass (by decide), filled]
    exact s.chip.updMass_mass_self m f
  · rw [frame.mass (by decide), filled]
    exact s.chip.updMass_mass_of_ne m k f ne
  · rw [frame.bay (by decide), filled]
    exact Chip.updBay_bay_self _ b _
  · rw [frame.bay (by decide), filled]
    exact Chip.updBay_bay_of_ne _ b k _ ne
  · have e : t.chip.selector = p.selector := frame .selector (by decide)
    rw [e, filled]
    rfl
  · rw [Chip.massResult_drawnAs frame (by rw [filled]; rfl)]
    exact replied

/-- Settles O24: both commands fill the bay, with the record that each gives the mass. -/
theorem admitAndFoundMassComplete : Obligations.AdmitAndFoundMassComplete := by
  intro s m nominal b sensor
  refine ⟨fun hands low high absent free => ?_, fun hands missing free vacant => ?_⟩
  · have taken := admitMass_inRange s.chip m b nominal low high
    simp only [absent, (BayRecord.freeFor_foreign _).mpr free, sensor, ne_eq, not_true_eq_false, if_false,
      Bool.true_eq_false] at taken
    obtain ⟨t, next, rest⟩ := hands.fillBay m b _ _ rfl
    exact ⟨t, by rw [← next]; exact congrArg (s.command _) taken, rest⟩
  · have taken := foundMass_inRange s.chip m b
    simp only [missing, (BayRecord.freeFor_foreign_lost _).mpr free, vacant, sensor, ne_eq, not_true_eq_false, if_false,
      Bool.true_eq_false, reduceCtorEq] at taken
    obtain ⟨t, next, rest⟩ := hands.fillBay m b _ _ rfl
    exact ⟨t, by rw [← next]; exact congrArg (s.command _) taken, rest⟩

section
variable (p : Chip) (m : MassId) (nominal : Nat)

theorem Chip.massAmended_unchangedBut : p.unchangedBut (p.massAmended m nominal) [.masses, .selector] := by
  unfold Chip.massAmended
  simp only
  split
  · exact Chip.unchangedBut_append (p.updMass_unchangedBut m _) (Chip.request_unchangedBut _)
  · exact Chip.unchangedBut_mono (p.updMass_unchangedBut m _) (by decide)

theorem Chip.massAmended_mass (k : MassId) : (p.massAmended m nominal).mass k =
    if k = m then { p.mass m with nominal := some nominal, weighHold := false } else p.mass k := by
  unfold Chip.massAmended
  simp only
  split <;> simp only [Chip.request_mass, Chip.updMass_mass]

theorem Chip.massAmended_selector : (p.massAmended m nominal).selector =
    { p.selector with request := p.selector.request || (p.mass m).weighHold } := by
  unfold Chip.massAmended
  cases hold : (p.mass m).weighHold <;> simp [Chip.request]

theorem Chip.massAmended_draws : (p.massAmended m nominal).draws = p.draws := by
  unfold Chip.massAmended
  simp only
  split <;> rfl

end

/-- Settles O25. -/
theorem amendMassCompletes : Obligations.AmendMassCompletes := by
  intro s m nominal hands low high state
  have change := s.chip.massAmended_unchangedBut m nominal
  have taken := amendMass_done s.chip m nominal low high state
  obtain ⟨t, next, pending, frame, replied⟩ := hands.command_done (Chip.unchangedBut_mono change (by decide)) _
  refine ⟨t, by rw [← next, ← taken]; rfl, pending,
    Chip.unchangedBut_append change frame, ?_, fun k ne => ?_, ?_, ?_⟩
  · rw [frame.mass (by decide), s.chip.massAmended_mass, if_pos rfl]
  · rw [frame.mass (by decide), s.chip.massAmended_mass, if_neg ne]
  · rw [← s.chip.massAmended_selector m nominal]
    exact frame .selector (by decide)
  · rw [Chip.massResult_drawnAs frame (s.chip.massAmended_draws m nominal)]
    exact replied

/-! ### RETIRE_MASS (R14 to R16, R120, R126) -/

section
variable (p : Chip) (m : MassId)

@[simp] theorem Chip.notifyOrders_mass (k : MassId) : (p.notifyOrders m).mass k = p.mass k :=
  (p.notifyOrders_unchangedBut m).mass (by decide) k

@[simp] theorem Chip.notifyOrders_selector : (p.notifyOrders m).selector = p.selector :=
  p.notifyOrders_unchangedBut m .selector (by decide)

theorem Chip.notifyOrders_queue :
    (p.notifyOrders m).orders.queue = p.orders.queue.filter fun o => decide (o.mass ≠ m) := by
  unfold Chip.notifyOrders
  split
  · rfl
  · rename_i unnamed
    rw [eq_comm, List.filter_eq_self]
    simpa [Chip.queued] using unnamed

theorem Chip.notifyOrders_dropped : (p.notifyOrders m).orders.dropped =
    if p.queued m then satInc16 p.orders.dropped else p.orders.dropped := by
  unfold Chip.notifyOrders
  split <;> rfl

@[simp] theorem Chip.notifyOrders_heldActive : (p.notifyOrders m).orders.heldActive = p.orders.heldActive := by
  unfold Chip.notifyOrders
  split <;> rfl

@[simp] theorem Chip.notifyOrders_heldStaged : (p.notifyOrders m).orders.heldStaged = p.orders.heldStaged := by
  unfold Chip.notifyOrders
  split <;> rfl

@[simp] theorem Chip.notifyOrders_draws : (p.notifyOrders m).draws = p.draws := by
  unfold Chip.notifyOrders
  split <;> rfl

/-- A mass record changed with the Mass Table's notice to the Order Queue (R4), as retirement, loss and writing off do. -/
theorem Chip.updMass_notifyOrders_unchangedBut (f : MassRecord → MassRecord) :
    p.unchangedBut ((p.updMass m f).notifyOrders m) [.masses, .orders] :=
  Chip.unchangedBut_append (p.updMass_unchangedBut m f) (Chip.notifyOrders_unchangedBut _ m)

/-- A mass written off is the notice's part, with a selection request where a weigh hold ended (R126). -/
theorem Chip.massAbsent_eq : p.massAbsent m =
    { (p.updMass m fun _ => MassRecord.empty).notifyOrders m with
      selector := { p.selector with request := p.selector.request || (p.mass m).weighHold } } := by
  have selector : ((p.updMass m fun _ => MassRecord.empty).notifyOrders m).selector = p.selector := by simp
  unfold Chip.massAbsent
  rw [← selector]
  cases (p.mass m).weighHold with
  | false => rw [Bool.or_false]; rfl
  | true => rw [Bool.or_true]; rfl

theorem Chip.massAbsent_unchangedBut : p.unchangedBut (p.massAbsent m) [.masses, .orders, .selector] := by
  unfold Chip.massAbsent
  simp only
  split
  · exact Chip.unchangedBut_append (p.updMass_notifyOrders_unchangedBut m _) (Chip.request_unchangedBut _)
  · exact Chip.unchangedBut_mono (p.updMass_notifyOrders_unchangedBut m _) (by decide)

end

/-- The answer of a retirement: beyond the change of the mass and the selector, which the form of the retirement gives, the queued orders
that name the mass are gone and counted (R120). -/
theorem State.Hands.retired {s : State} {i : Instr} (hands : s.Hands i) (m : MassId) (f : MassRecord → MassRecord)
    (sel : Selector) (p : Chip) (change : p = { (s.chip.updMass m f).notifyOrders m with selector := sel }) :
    ∃ t, s.command i (p, answerDone (p.massResult m)) = .next t ∧ t.pending = s.pending ∧
      s.chip.unchangedBut t.chip [.masses, .selector, .orders, .port] ∧ s.chip.otherMassesSame t.chip m ∧
      t.chip.selector = sel ∧ t.chip.mass m = f (s.chip.mass m) ∧
      t.chip.orders.queue = s.chip.orders.queue.filter (fun o => decide (o.mass ≠ m)) ∧
      t.chip.orders.dropped =
        (if s.chip.queued m then satInc16 s.chip.orders.dropped else s.chip.orders.dropped) ∧
      t.chip.orders.heldActive = s.chip.orders.heldActive ∧ t.chip.orders.heldStaged = s.chip.orders.heldStaged ∧
      s.chip.repliedWith t.chip (answerDone ((t.chip.drawnAs s.chip).massResult m)) := by
  have changed : s.chip.unchangedBut p [.masses, .selector, .orders] := by
    intro x out
    have base := s.chip.updMass_notifyOrders_unchangedBut m f x
    rw [change]
    cases x <;> simp at out <;> exact base (by decide)
  have mass : ∀ k, p.mass k = (s.chip.updMass m f).mass k := fun k => by
    rw [change]
    exact Chip.notifyOrders_mass _ m k
  have orders : p.orders = ((s.chip.updMass m f).notifyOrders m).orders := by rw [change]
  obtain ⟨t, next, pending, frame, replied⟩ :=
    hands.command_done (Chip.unchangedBut_mono changed (by decide)) (p.massResult m)
  have orders' : t.chip.orders = ((s.chip.updMass m f).notifyOrders m).orders := (frame .orders (by decide)).trans orders
  refine ⟨t, next, pending, Chip.unchangedBut_append changed frame, fun k ne => ?_, ?_, ?_, ?_, ?_, ?_, ?_, ?_⟩
  · rw [frame.mass (by decide), mass, s.chip.updMass_mass_of_ne m k f ne]
  · have e : t.chip.selector = p.selector := frame .selector (by decide)
    rw [e, change]
  · rw [frame.mass (by decide), mass, s.chip.updMass_mass_self m f]
  · rw [orders', Chip.notifyOrders_queue]
    rfl
  · rw [orders', Chip.notifyOrders_dropped]
    rfl
  · rw [orders', Chip.notifyOrders_heldActive]
    rfl
  · rw [orders', Chip.notifyOrders_heldStaged]
    rfl
  · rw [Chip.massResult_drawnAs frame (by rw [change]; simp)]
    exact replied

/-- Settles O26: a MISSING mass is written off, a PARKED one becomes RETIRING. -/
theorem retireMassCompletes : Obligations.RetireMassCompletes := by
  intro s m hands state
  rcases state with missing | ⟨parked, b, inBay, service, occupied⟩
  · have taken := retireMass_missing s.chip m missing
    obtain ⟨t, next, pending, frame, others, selector, mass, rest⟩ := hands.retired m _ _ _ (s.chip.massAbsent_eq m)
    exact ⟨t, by rw [← next]; exact congrArg (s.command _) taken, pending, frame, others, fun _ => selector,
      fun parked => absurd (missing.symm.trans parked) (by decide), fun _ => mass,
      fun parked => absurd (missing.symm.trans parked) (by decide), rest⟩
  · have taken := retireMass_parked s.chip m b parked inBay service occupied
    have retiring : s.chip.massRetiring m =
        { (s.chip.updMass m fun r => { r with state := .retiring }).notifyOrders m with selector := s.chip.selector } := by
      have selector : ((s.chip.updMass m fun r => { r with state := .retiring }).notifyOrders m).selector =
        s.chip.selector := by simp
      rw [← selector]
      rfl
    obtain ⟨t, next, pending, frame, others, selector, mass, rest⟩ := hands.retired m _ _ _ retiring
    exact ⟨t, by rw [← next]; exact congrArg (s.command _) taken, pending, frame, others,
      fun missing => absurd (parked.symm.trans missing) (by decide), fun _ => selector,
      fun missing => absurd (parked.symm.trans missing) (by decide), fun _ => mass, rest⟩

/-! ### BAR_BAY and UNBAR_BAY (R15, R30, R31) -/

section
variable (p : Chip) (b : BayId) (number : Nat)

theorem barBay_outOfRange (bad : 63 < number) : (barBay number p).2 = refuse .range := by
  simp [barBay, (bayOf_eq_none_iff number).mpr bad]

theorem unbarBay_outOfRange (bad : 63 < number) : (unbarBay number p).2 = refuse .range := by
  simp [unbarBay, (bayOf_eq_none_iff number).mpr bad]

theorem Chip.occupantRetiring_iff :
    p.occupantRetiring b = true ↔ ∃ m, (p.bay b).occupant = some m ∧ (p.mass m).state = .retiring := by
  unfold Chip.occupantRetiring
  cases (p.bay b).occupant <;> simp

/-- A bay record that an update leaves as it is. -/
theorem Chip.updBay_of_eq {f : BayRecord → BayRecord} (same : f (p.bay b) = p.bay b) : p.updBay b f = p := by
  unfold Chip.updBay
  rw [same]
  simp [Chip.bay]

/-- A bay that is BARRED SERVICE already is as a barring leaves it. -/
theorem Chip.barForService_of_barred (barred : (p.bay b).state = .barred) (service : (p.bay b).cause = some .service) :
    p.barForService b = p :=
  p.updBay_of_eq b (by rw [← barred, ← service])

theorem barBay_held (held : (p.bay b).state = .inbound ∨ (p.bay b).state = .outbound) :
    (barBay b.val p).2 = refuse .locked := by
  rcases held with e | e <;> simp [barBay, bayOf_val, e]

theorem barBay_retiring {m : MassId} (occupied : (p.bay b).state = .occupied) (occupant : (p.bay b).occupant = some m)
    (retiring : (p.mass m).state = .retiring) : (barBay b.val p).2 = refuse .locked := by
  simp [barBay, bayOf_val, occupied, (p.occupantRetiring_iff b).mpr ⟨m, occupant, retiring⟩]

theorem barBay_otherwise
    (state : (p.bay b).state = .unsurveyed ∨ (p.bay b).state = .barred ∧ (p.bay b).cause ≠ some .service) :
    (barBay b.val p).2 = refuse .state := by
  rcases state with unsurveyed | ⟨barred, otherwise⟩
  · simp [barBay, bayOf_val, unsurveyed]
  · simp [barBay, bayOf_val, barred, otherwise]

/-- The three bays that BAR_BAY bars (R30). -/
theorem barBay_done (state : (p.bay b).state = .opened ∨
      (p.bay b).state = .occupied ∧ (∀ m, (p.bay b).occupant = some m → (p.mass m).state ≠ .retiring) ∨
      (p.bay b).state = .barred ∧ (p.bay b).cause = some .service) :
    barBay b.val p = (p.barForService b, answerDone ((p.barForService b).bayResult b)) := by
  rcases state with opened | ⟨occupied, notRetiring⟩ | ⟨barred, service⟩
  · simp [barBay, bayOf_val, opened]
  · have free : p.occupantRetiring b = false := by
      rw [← Bool.not_eq_true, p.occupantRetiring_iff]
      exact fun ⟨m, occupant, retiring⟩ => notRetiring m occupant retiring
    simp [barBay, bayOf_val, occupied, free]
  · simp [barBay, bayOf_val, barred, service, p.barForService_of_barred b barred service]

/-- UNBAR_BAY of a bay makes the checks of R31 in their order. -/
theorem unbarBay_val :
    unbarBay b.val p =
      if (p.bay b).state ≠ .barred then (p, refuse .state)
      else if (p.bay b).sensor ≠ some (if (p.bay b).occupant.isSome then .occupied else .empty) then (p, refuse .sensor)
      else (p.liftBarring b, answerDone ((p.liftBarring b).bayResult b)) := by
  simp [unbarBay, bayOf_val]

end

/-- Any change of one bay record by a command that is carried out, with or without a selection request. -/
theorem State.Hands.bayChanged {s : State} {i : Instr} (hands : s.Hands i) (b : BayId) (f : BayRecord → BayRecord)
    {p : Chip} {parts : List Part} (change : s.chip.unchangedBut p parts)
    (quiet : ∀ x ∈ parts, x ∈ [Part.masses, .bays, .selector, .orders])
    (bay : ∀ k, p.bay k = (s.chip.updBay b f).bay k) (draws : p.draws = s.chip.draws) :
    ∃ t, s.command i (p, answerDone (p.bayResult b)) = .next t ∧ t.pending = s.pending ∧
      s.chip.unchangedBut t.chip (parts ++ [.port]) ∧ s.chip.otherBaysSame t.chip b ∧
      t.chip.bay b = f (s.chip.bay b) ∧ t.chip.selector = p.selector ∧
      s.chip.repliedWith t.chip (answerDone ((t.chip.drawnAs s.chip).bayResult b)) := by
  obtain ⟨t, next, pending, frame, replied⟩ := hands.command_done (Chip.unchangedBut_mono change quiet) (p.bayResult b)
  refine ⟨t, next, pending, Chip.unchangedBut_append change frame, fun k ne => ?_, ?_, frame .selector (by decide), ?_⟩
  · rw [frame.bay (by decide), bay, s.chip.updBay_bay_of_ne b k f ne]
  · rw [frame.bay (by decide), bay, s.chip.updBay_bay_self b f]
  · rw [Chip.bayResult_drawnAs frame draws]
    exact replied

/-- Settles O29, clause by clause: the changes by the state of the bay, and the refusals in their order. -/
theorem barAndUnbarBayComplete : Obligations.BarAndUnbarBayComplete := by
  intro s b number
  refine ⟨fun bad => ⟨fun hands => hands.command_refused (barBay_outOfRange s.chip number bad),
      fun hands => hands.command_refused (unbarBay_outOfRange s.chip number bad)⟩,
    fun hands state => ?_, fun hands => ?_, fun hands barred m occupant sensor => ?_,
    fun hands barred vacant sensor => ?_, fun hands => ?_⟩
  · have taken := barBay_done s.chip b state
    obtain ⟨t, next, pending, frame, others, bay, _, replied⟩ :=
      hands.bayChanged b _ (s.chip.updBay_unchangedBut b _) (by decide) (fun _ => rfl) rfl
    exact ⟨t, by rw [← next]; exact congrArg (s.command _) taken, pending, frame, others, bay, replied⟩
  · obtain ⟨t, next, refused⟩ := hands.command_refusals (barBay b.val s.chip)
    exact ⟨t, next, fun held => refused _ (barBay_held s.chip b held),
      fun m occupied occupant retiring => refused _ (barBay_retiring s.chip b occupied occupant retiring),
      fun state => refused _ (barBay_otherwise s.chip b state)⟩
  · have taken := unbarBay_val s.chip b
    have lifted : s.chip.liftBarring b = (s.chip.occupyBay b m).request := by simp [Chip.liftBarring, occupant]
    simp only [barred, occupant, sensor, Option.isSome_some, if_true, ne_eq, not_true_eq_false, if_false, lifted] at taken
    obtain ⟨t, next, pending, frame, others, bay, selector, replied⟩ :=
      hands.bayChanged b _ (Chip.unchangedBut_append (s.chip.updBay_unchangedBut b _) (Chip.request_unchangedBut _))
        (by decide) (fun _ => rfl) rfl
    exact ⟨t, by rw [← next]; exact congrArg (s.command _) taken, pending, frame, others, by rw [bay, ← occupant],
      selector, replied⟩
  · have taken := unbarBay_val s.chip b
    have lifted : s.chip.liftBarring b = s.chip.openBay b := by simp [Chip.liftBarring, vacant]
    simp only [barred, vacant, sensor, Option.isSome_none, ne_eq, not_true_eq_false, if_false, lifted,
      Bool.false_eq_true] at taken
    obtain ⟨t, next, pending, frame, others, bay, selector, replied⟩ :=
      hands.bayChanged b _ (Chip.unchangedBut_append (s.chip.updBay_unchangedBut b _) (Chip.request_unchangedBut _))
        (by decide) (fun _ => rfl) rfl
    exact ⟨t, by rw [← next]; exact congrArg (s.command _) taken, pending, frame, others, by rw [bay, ← vacant],
      selector, replied⟩
  · obtain ⟨t, next, refused⟩ := hands.command_refusals (unbarBay b.val s.chip)
    rw [unbarBay_val] at refused
    refine ⟨t, next, fun notBarred => refused _ (by simp [notBarred]), fun barred disagrees => refused _ ?_⟩
    rcases disagrees with ⟨occupant, sensor⟩ | ⟨vacant, sensor⟩
    · simp [barred, Option.isSome_iff_ne_none.mpr occupant, sensor]
    · simp [barred, vacant, sensor]

end Sys2Proof.Machine
end

section
/-! SUPPORT. The operations of the trip machine, record by record: what each leaves of the masses, the bays, the orders and hoist `h`'s
controller (spec/01 R3, spec/02 R33 to R35, spec/05 R91, R103, R104, R106, spec/06 R121). -/

namespace Sys2Proof.Machine

variable (p : Chip) (h k : HoistId) (b x : BayId) (m i : MassId) (slot : Slot)

/-! ### Bays barred and opened, masses released and lost -/

@[simp] theorem Chip.barBay_masses (c : BarredCause) : (p.barBay b c).masses = p.masses := rfl

@[simp] theorem Chip.barBay_mass (c : BarredCause) : (p.barBay b c).mass m = p.mass m := rfl

@[simp] theorem Chip.barBay_hoist (c : BarredCause) : (p.barBay b c).hoist k = p.hoist k := rfl

@[simp] theorem Chip.barBay_unit (c : BarredCause) : (p.barBay b c).unit k = p.unit k := rfl

@[simp] theorem Chip.barBay_orders (c : BarredCause) : (p.barBay b c).orders = p.orders := rfl

@[simp] theorem Chip.barBay_held (c : BarredCause) : (p.barBay b c).held h slot = p.held h slot := rfl

@[simp] theorem Chip.barBay_params (c : BarredCause) : (p.barBay b c).params = p.params := rfl

@[simp] theorem Chip.barBay_power (c : BarredCause) : (p.barBay b c).power = p.power := rfl

@[simp] theorem Chip.barBay_bay_self (c : BarredCause) : (p.barBay b c).bay b =
    { p.bay b with state := .barred, occupant := none, cause := some c, holder := none } := p.updBay_bay_self b _

theorem Chip.barBay_bay_of_ne (c : BarredCause) (ne : x ≠ b) : (p.barBay b c).bay x = p.bay x :=
  p.updBay_bay_of_ne b x _ ne

@[simp] theorem Chip.openBay_masses : (p.openBay b).masses = p.masses := rfl

@[simp] theorem Chip.openBay_mass : (p.openBay b).mass m = p.mass m := rfl

@[simp] theorem Chip.openBay_bay_self : (p.openBay b).bay b =
    { p.bay b with state := .opened, occupant := none, cause := none, holder := none } := by
  simp [Chip.openBay]

theorem Chip.openBay_bay_of_ne (ne : x ≠ b) : (p.openBay b).bay x = p.bay x := by
  simp [Chip.openBay, Chip.updBay_bay, ne]

theorem Chip.barBay_unchangedBut (c : BarredCause) : p.unchangedBut (p.barBay b c) [.bays] := p.updBay_unchangedBut b _

theorem Chip.openBay_unchangedBut : p.unchangedBut (p.openBay b) [.bays, .selector] :=
  Chip.unchangedBut_append (p.updBay_unchangedBut b _) (Chip.request_unchangedBut _)

@[simp] theorem Chip.massReleased_bay : (p.massReleased m).bay b = p.bay b := rfl

@[simp] theorem Chip.massReleased_hoist : (p.massReleased m).hoist k = p.hoist k := rfl

@[simp] theorem Chip.massReleased_orders : (p.massReleased m).orders = p.orders := rfl

@[simp] theorem Chip.massReleased_held : (p.massReleased m).held h slot = p.held h slot := rfl

@[simp] theorem Chip.massReleased_mass_self : (p.massReleased m).mass m = { p.mass m with state := .parked } := by
  simp [Chip.massReleased]

theorem Chip.massLostFromBay_unchangedBut : p.unchangedBut (p.massLostFromBay m) [.masses, .orders] :=
  p.updMass_notifyOrders_unchangedBut m _

@[simp] theorem Chip.massLostFromBay_mass_self : (p.massLostFromBay m).mass m =
    { p.mass m with state := .missing, lastBay := (p.mass m).bay, bay := none } :=
  (Chip.notifyOrders_mass _ m m).trans (p.updMass_mass_self m _)

theorem Chip.massLostFromBay_mass_of_ne (ne : i ≠ m) : (p.massLostFromBay m).mass i = p.mass i :=
  (Chip.notifyOrders_mass _ m i).trans (p.updMass_mass_of_ne m i _ ne)

@[simp] theorem Chip.massLostFromBay_bay : (p.massLostFromBay m).bay b = p.bay b :=
  (p.massLostFromBay_unchangedBut m).bay (by decide) b

@[simp] theorem Chip.massLostFromBay_hoist : (p.massLostFromBay m).hoist k = p.hoist k := by
  have e : (p.massLostFromBay m).hoists = p.hoists := p.massLostFromBay_unchangedBut m .hoists (by decide)
  unfold Chip.hoist
  rw [e]

/-- Where no queued order names the mass, the Order Queue takes no notice of its loss. -/
theorem Chip.massLostFromBay_orders (unnamed : p.queued m = false) : (p.massLostFromBay m).orders = p.orders := by
  have e : (p.updMass m fun r => { r with state := .missing, lastBay := r.bay, bay := none }).queued m = false := unnamed
  simp [Chip.massLostFromBay, Chip.notifyOrders, e]

@[simp] theorem Chip.massLostFromBay_held : (p.massLostFromBay m).held h slot = p.held h slot := by
  cases slot <;> simp [Chip.held, Chip.massLostFromBay]

theorem Chip.massAbsent_mass : (p.massAbsent m).mass i = if i = m then MassRecord.empty else p.mass i := by
  rw [p.massAbsent_eq m]
  exact (Chip.notifyOrders_mass _ m i).trans (p.updMass_mass m i _)

theorem Chip.massAbsent_bay : (p.massAbsent m).bay b = p.bay b := (p.massAbsent_unchangedBut m).bay (by decide) b

/-! ### Holds given up (R35) -/

@[simp] theorem Chip.giveUpSource_masses : (p.giveUpSource h slot b).masses = p.masses := by
  unfold Chip.giveUpSource
  split <;> rfl

@[simp] theorem Chip.giveUpSource_hoist : (p.giveUpSource h slot b).hoist k = p.hoist k := by
  unfold Chip.giveUpSource
  split <;> rfl

@[simp] theorem Chip.giveUpSource_orders : (p.giveUpSource h slot b).orders = p.orders := by
  unfold Chip.giveUpSource
  split <;> rfl

/-- Every bay after a source is given up: only one that is held as such, with its occupant, changes. -/
theorem Chip.giveUpSource_bay : (p.giveUpSource h slot b).bay x =
    if x = b ∧ p.holdsSource h slot b = true ∧ (p.bay b).occupant ≠ none then
      { p.bay b with state := .occupied, holder := none } else p.bay x := by
  unfold Chip.giveUpSource
  by_cases held : p.holdsSource h slot b = true ∧ (p.bay b).occupant ≠ none
  · have cond : (p.holdsSource h slot b && (p.bay b).occupant.isSome) = true := by
      simp [held.1, Option.isSome_iff_ne_none, held.2]
    rw [if_pos cond, Chip.updBay_bay]
    simp [held]
  · have cond : ¬(p.holdsSource h slot b && (p.bay b).occupant.isSome) = true := by
      simpa [Option.isSome_iff_ne_none] using held
    rw [if_neg cond, if_neg fun all => held all.2]

@[simp] theorem Chip.giveUpDestination_masses : (p.giveUpDestination h slot b).masses = p.masses := by
  unfold Chip.giveUpDestination
  split
  · split <;> rfl
  · rfl

@[simp] theorem Chip.giveUpDestination_hoist : (p.giveUpDestination h slot b).hoist k = p.hoist k := by
  unfold Chip.giveUpDestination
  split
  · split <;> rfl
  · rfl

@[simp] theorem Chip.giveUpDestination_orders : (p.giveUpDestination h slot b).orders = p.orders := by
  unfold Chip.giveUpDestination
  split
  · split <;> rfl
  · rfl

/-- A destination that is not held as such is left. -/
theorem Chip.giveUpDestination_of_not (no : p.holdsDestination h slot b = false) : p.giveUpDestination h slot b = p := by
  simp [Chip.giveUpDestination, no]

theorem Chip.giveUpDestination_bay_of_ne (ne : x ≠ b) : (p.giveUpDestination h slot b).bay x = p.bay x := by
  unfold Chip.giveUpDestination
  split
  · split
    · exact p.barBay_bay_of_ne b x _ ne
    · exact p.openBay_bay_of_ne b x ne
  · rfl

theorem Chip.giveUpDestination_bay_of_notInbound (notInbound : (p.bay x).state ≠ .inbound) :
    (p.giveUpDestination h slot b).bay x = p.bay x := by
  by_cases e : x = b
  · subst e
    rw [p.giveUpDestination_of_not h x slot (by simp [Chip.holdsDestination, notInbound])]
  · exact p.giveUpDestination_bay_of_ne h b x slot e

/-- A held destination given up, by its sensor. -/
theorem Chip.giveUpDestination_bay_self (held : p.holdsDestination h slot b = true) :
    (p.giveUpDestination h slot b).bay b = { p.bay b with
      state := if (p.bay b).sensor = some .occupied then .barred else .opened
      occupant := none
      cause := if (p.bay b).sensor = some .occupied then some .foreign else none
      holder := none } := by
  unfold Chip.giveUpDestination
  rw [if_pos held]
  split <;> simp [*]

theorem Chip.holdsSource_iff : p.holdsSource h slot b = true ↔
    (p.bay b).state = .outbound ∧ (p.bay b).holder = some (h, slot) := decide_eq_true_iff

theorem Chip.holdsDestination_iff : p.holdsDestination h slot b = true ↔
    (p.bay b).state = .inbound ∧ (p.bay b).holder = some (h, slot) := decide_eq_true_iff

/-! ### Surveyed elevations are kept by all of them -/

/-- An update of a bay record that keeps the elevation. -/
theorem Chip.updBay_elevationOf (f : BayRecord → BayRecord) (keeps : ∀ r, (f r).elevation = r.elevation) :
    (p.updBay b f).elevationOf x = p.elevationOf x := by
  unfold Chip.elevationOf
  rw [Chip.updBay_bay]
  split
  · rename_i e
    rw [keeps, e]
  · rfl

@[simp] theorem Chip.barBay_elevationOf (c : BarredCause) : (p.barBay b c).elevationOf x = p.elevationOf x :=
  p.updBay_elevationOf b x _ fun _ => rfl

@[simp] theorem Chip.openBay_elevationOf : (p.openBay b).elevationOf x = p.elevationOf x :=
  p.updBay_elevationOf b x (fun r => { r with state := .opened, occupant := none, cause := none, holder := none })
    fun _ => rfl

@[simp] theorem Chip.massLostFromBay_elevationOf : (p.massLostFromBay m).elevationOf x = p.elevationOf x := by
  unfold Chip.elevationOf
  rw [Chip.massLostFromBay_bay]

@[simp] theorem Chip.massReleased_elevationOf : (p.massReleased m).elevationOf x = p.elevationOf x := rfl

@[simp] theorem Chip.giveUpSource_elevationOf : (p.giveUpSource h slot b).elevationOf x = p.elevationOf x := by
  unfold Chip.giveUpSource
  split
  · exact p.updBay_elevationOf b x _ fun _ => rfl
  · rfl

@[simp] theorem Chip.giveUpDestination_elevationOf : (p.giveUpDestination h slot b).elevationOf x = p.elevationOf x := by
  unfold Chip.giveUpDestination
  split
  · split
    · exact p.barBay_elevationOf b x _
    · exact p.openBay_elevationOf b x
  · rfl

@[simp] theorem Chip.moveHold_elevationOf : (p.moveHold h b).elevationOf x = p.elevationOf x := by
  unfold Chip.moveHold
  split
  · exact p.updBay_elevationOf b x _ fun _ => rfl
  · rfl

/-! ### Held orders (R121) -/

section
variable (fate : OrderFate)

@[simp] theorem Chip.endHeld_masses : (p.endHeld h slot fate).masses = p.masses := by
  unfold Chip.endHeld
  cases p.held h slot <;> cases fate <;> simp

@[simp] theorem Chip.endHeld_bays : (p.endHeld h slot fate).bays = p.bays := by
  unfold Chip.endHeld
  cases p.held h slot <;> cases fate <;> simp

@[simp] theorem Chip.endHeld_hoists : (p.endHeld h slot fate).hoists = p.hoists := by
  unfold Chip.endHeld
  cases p.held h slot <;> cases fate <;> simp

@[simp] theorem Chip.endHeld_mass : (p.endHeld h slot fate).mass m = p.mass m := by
  unfold Chip.mass
  rw [Chip.endHeld_masses]

@[simp] theorem Chip.endHeld_bay : (p.endHeld h slot fate).bay x = p.bay x := by
  unfold Chip.bay
  rw [Chip.endHeld_bays]

@[simp] theorem Chip.endHeld_hoist : (p.endHeld h slot fate).hoist k = p.hoist k := by
  unfold Chip.hoist
  rw [Chip.endHeld_hoists]

@[simp] theorem Chip.endHeld_elevationOf : (p.endHeld h slot fate).elevationOf x = p.elevationOf x := by
  unfold Chip.elevationOf
  rw [Chip.endHeld_bay]

/-- After its end an order is held no longer; the other held orders stay. -/
theorem Chip.endHeld_held (other : Slot) : (p.endHeld h slot fate).held k other =
    if k = h ∧ other = slot then none else p.held k other := by
  have kept : ∀ q : Chip, q.orders.heldActive = (p.setHeld h slot none).orders.heldActive →
      q.orders.heldStaged = (p.setHeld h slot none).orders.heldStaged →
      q.held k other = if k = h ∧ other = slot then none else p.held k other := by
    intro q active staged
    rw [← p.setHeld_held h k slot other none]
    unfold Chip.held
    rw [active, staged]
  cases held : p.held h slot with
  | none =>
    have unheld : p.endHeld h slot fate = p := by simp [Chip.endHeld, held]
    rw [unheld]
    by_cases same : k = h ∧ other = slot
    · rw [if_pos same, same.1, same.2, held]
    · rw [if_neg same]
  | some o =>
    simp only [Chip.endHeld, held]
    cases fate <;> exact kept _ rfl rfl

theorem Chip.endHeld_returned (o : Order) (held : p.held h slot = some o) :
    (p.endHeld h slot .returned).orders.queue = o :: p.orders.queue := by
  simp [Chip.endHeld, held]

theorem Chip.endHeld_counted_queue : (p.endHeld h slot .counted).orders.queue = p.orders.queue := by
  unfold Chip.endHeld
  cases p.held h slot <;> simp

theorem Chip.endHeld_counted_dropped : (p.endHeld h slot .counted).orders.dropped =
    if p.held h slot = none then p.orders.dropped else satInc16 p.orders.dropped := by
  unfold Chip.endHeld
  cases p.held h slot <;> simp

end

/-! ### Holds moved at a promotion (R88, R91) -/

@[simp] theorem Chip.moveHold_masses : (p.moveHold h b).masses = p.masses := by
  unfold Chip.moveHold
  split <;> rfl

@[simp] theorem Chip.moveHold_hoist : (p.moveHold h b).hoist k = p.hoist k := by
  unfold Chip.moveHold
  split <;> rfl

@[simp] theorem Chip.moveHold_orders : (p.moveHold h b).orders = p.orders := by
  unfold Chip.moveHold
  split <;> rfl

@[simp] theorem Chip.moveHold_unit : (p.moveHold h b).unit k = p.unit k := by
  unfold Chip.moveHold
  split <;> rfl

@[simp] theorem Chip.moveHold_params : (p.moveHold h b).params = p.params := by
  unfold Chip.moveHold
  split <;> rfl

/-- A bay that no staged trip of the hoist holds keeps its hold. -/
theorem Chip.moveHold_bay_of_not (free : (p.bay x).holder ≠ some (h, .staged)) : (p.moveHold h b).bay x = p.bay x := by
  unfold Chip.moveHold
  split
  · rename_i held
    exact p.updBay_bay_of_ne b x _ fun e => free (e ▸ held)
  · rfl

end Sys2Proof.Machine
end

section
/-! SUPPORT. The ends of a trip and its re-targeting, as the statements describe them: `Chip.activeEnded` and `Chip.emptyEnded` of an end
(spec/05 R91, R103, R104), the re-target rule (spec/06 R135), and what each leaves in a bay that no trip holds. -/

namespace Sys2Proof.Machine

variable (p : Chip) (h k : HoistId) (b x : BayId) (m : MassId) (slot : Slot)

/-! ### Activation and promotion (R91) -/

@[simp] theorem Chip.setHeld_hoist (o : Option Order) : (p.setHeld h slot o).hoist k = p.hoist k := by
  cases slot <;> rfl

@[simp] theorem Chip.setHeld_unit (o : Option Order) : (p.setHeld h slot o).unit k = p.unit k := by cases slot <;> rfl

@[simp] theorem Chip.setHeld_bay (o : Option Order) : (p.setHeld h slot o).bay x = p.bay x := by cases slot <;> rfl

@[simp] theorem Chip.setHeld_elevationOf (o : Option Order) : (p.setHeld h slot o).elevationOf x = p.elevationOf x := by
  cases slot <;> rfl

@[simp] theorem Chip.updHoist_elevationOf (f : HoistCtl → HoistCtl) : (p.updHoist h f).elevationOf x = p.elevationOf x := rfl

@[simp] theorem Chip.updHoist_held (f : HoistCtl → HoistCtl) : (p.updHoist h f).held k slot = p.held k slot := rfl

theorem Chip.updHoist_unchangedBut (f : HoistCtl → HoistCtl) : p.unchangedBut (p.updHoist h f) [.hoists] := by
  intro x out
  cases x <;> simp at out <;> rfl

/-- An activation changes the controllers only. -/
theorem Chip.activate_unchangedBut (halt : Option HaltCause) : p.unchangedBut (p.activate h halt) [.hoists] := by
  unfold Chip.activate
  split
  · exact p.unchangedBut_refl _
  · simp only
    split
    · exact Chip.unchangedBut_trans (p.updHoist_unchangedBut h _) (Chip.updHoist_unchangedBut _ h _)
    · split
      · exact Chip.unchangedBut_trans (p.updHoist_unchangedBut h _)
          (Chip.unchangedBut_trans (Chip.updHoist_unchangedBut _ h _) (Chip.updHoist_unchangedBut _ h _))
      · exact Chip.unchangedBut_trans (p.updHoist_unchangedBut h _) (Chip.updHoist_unchangedBut _ h _)

/-- The controller that a promotion leaves, as R91 activates the promoted trip: on a HALTED hoist, near its source, or away from it. -/
def Chip.promoted (p : Chip) (h : HoistId) (t : Trip) (halt : Option HaltCause) : HoistCtl :=
  let c := p.hoist h
  let near := p.atSource h t
  if c.phase = .halted then
    { c with
      active := some { t with resumePhase := some (if near then .engage else .travel), haltCause := halt }
      staged := none, latchCommand := if near then .closed else .opened }
  else if near then
    { c with
      active := some t, staged := none, phase := .engage, phaseReply := none, dwellTimer := none, speedRef := 0
      latchCommand := .closed, phaseTimer := startTimer p.params.engageTo }
  else
    { c with
      active := some t, staged := none, phase := .travel, phaseReply := none, dwellTimer := none, phaseTimer := none
      latchCommand := .opened }

theorem Chip.atSource_congr {q : Chip} (unit : q.unit h = p.unit h) (elevation : ∀ b, q.elevationOf b = p.elevationOf b)
    (params : q.params = p.params) (t : Trip) : q.atSource h t = p.atSource h t := by
  unfold Chip.atSource
  rw [unit, elevation, params]

theorem Chip.promote_hoist (t : Trip) (halt : Option HaltCause) :
    (p.promote h t halt).hoist h = p.promoted h t halt := by
  obtain ⟨q, def_q⟩ : ∃ q : Chip, q = ((((p.updHoist h fun c => { c with active := some t, staged := none }).moveHold h
      t.source).moveHold h t.destination).setHeld h .active (p.held h .staged)).setHeld h .staged none := ⟨_, rfl⟩
  have hoist : q.hoist h = { p.hoist h with active := some t, staged := none } := by rw [def_q]; simp
  have params : q.params = p.params := by rw [def_q]; simp
  have near : q.atSource h t = p.atSource h t :=
    p.atSource_congr h (by rw [def_q]; simp) (fun b => by rw [def_q]; simp) params t
  have step : p.promote h t halt = q.activate h halt := by
    rw [def_q]
    unfold Chip.promote
    simp [Chip.held]
  have active : (q.hoist h).active = some t := by rw [hoist]
  have phase : (q.hoist h).phase = (p.hoist h).phase := by rw [hoist]
  rw [step]
  unfold Chip.activate Chip.promoted
  simp only [active, phase, near]
  by_cases halted : (p.hoist h).phase = .halted
  · simp [halted, Chip.updActive, hoist]
  · by_cases close : p.atSource h t = true
    · simp [halted, close, Chip.enterEngage, Chip.enterPhase, Chip.stopRef, hoist, params]
    · simp [halted, close, Chip.enterTravelEmpty, Chip.enterPhase, hoist]

/-- The parts a promotion may change. -/
theorem Chip.promote_unchangedBut (t : Trip) (halt : Option HaltCause) :
    p.unchangedBut (p.promote h t halt) [.bays, .hoists, .orders] := by
  have moveHold : ∀ (q : Chip) b, q.unchangedBut (q.moveHold h b) [.bays] := fun q b => by
    unfold Chip.moveHold
    split
    · exact q.updBay_unchangedBut b _
    · exact q.unchangedBut_refl _
  have setHeld : ∀ (q : Chip) slot o, q.unchangedBut (q.setHeld h slot o) [.orders] := fun q slot o => by
    cases slot <;> exact q.orders_unchangedBut _
  exact Chip.unchangedBut_mono
    (Chip.unchangedBut_append (p.updHoist_unchangedBut h _)
      (Chip.unchangedBut_append (moveHold _ t.source)
        (Chip.unchangedBut_append (moveHold _ t.destination)
          (Chip.unchangedBut_append (setHeld _ .active _)
            (Chip.unchangedBut_append (setHeld _ .staged none) (Chip.activate_unchangedBut _ h halt))))))
    (by decide)

/-- A bay that the staged trip does not hold keeps its record through the promotion. -/
theorem Chip.promote_bay_of_not (t : Trip) (halt : Option HaltCause) (free : (p.bay x).holder ≠ some (h, .staged)) :
    (p.promote h t halt).bay x = p.bay x := by
  unfold Chip.promote
  rw [(Chip.activate_unchangedBut _ h halt).bay (by decide), Chip.setHeld_bay, Chip.setHeld_bay]
  have first : ∀ q : Chip, (q.bay x).holder ≠ some (h, .staged) → ((q.moveHold h t.source).moveHold h t.destination).bay x =
      q.bay x := fun q free => by
    rw [Chip.moveHold_bay_of_not, q.moveHold_bay_of_not h t.source x free]
    rwa [q.moveHold_bay_of_not h t.source x free]
  exact first _ free

theorem Chip.promote_orders (t : Trip) (halt : Option HaltCause) : (p.promote h t halt).orders = { p.orders with
    heldActive := p.orders.heldActive.set h (p.held h .staged), heldStaged := p.orders.heldStaged.set h none } := by
  have e : ∀ q : Chip, (q.activate h halt).orders = q.orders := fun q => q.activate_unchangedBut h halt .orders (by decide)
  unfold Chip.promote
  rw [e]
  simp [Chip.setHeld, Chip.held]

/-! ### The end of the active trip (R91, R102, R103) -/

/-- The controller without its active trip, before a promotion. -/
def HoistCtl.cleared (c : HoistCtl) : HoistCtl :=
  { c with
    active := none, withdrawal := .none, speedRef := 0, phaseTimer := none, dwellTimer := none, noBay := false }

section
variable (faulted : (p.hoist h).phase = .faulted) (notFaulted : (p.hoist h).phase ≠ .faulted)

include faulted in
theorem Chip.endActive_of_faulted : p.endActive h = p.updHoist h HoistCtl.cleared := by
  simp only [Chip.endActive, Chip.updHoist_hoist_self]
  rw [if_pos faulted]
  rfl

include notFaulted in
theorem Chip.endActive_of_idle (unstaged : (p.hoist h).staged = none) :
    p.endActive h = (p.updHoist h HoistCtl.cleared).enterPhase h .idle := by
  simp only [Chip.endActive, Chip.updHoist_hoist_self, unstaged]
  rw [if_neg notFaulted]
  rfl

include notFaulted in
theorem Chip.endActive_of_staged (t : Trip) (staged : (p.hoist h).staged = some t) :
    p.endActive h =
      (p.updHoist h HoistCtl.cleared).promote h t ((p.hoist h).active.bind fun t => t.haltCause) := by
  simp only [Chip.endActive, Chip.updHoist_hoist_self, staged]
  rw [if_neg notFaulted]
  rfl

end

/-- The three ways in which an active trip leaves its slot. -/
theorem Chip.endActive_cases :
    (p.hoist h).phase = .faulted ∧ p.endActive h = p.updHoist h HoistCtl.cleared ∨
    (p.hoist h).phase ≠ .faulted ∧ (p.hoist h).staged = none ∧
      p.endActive h = (p.updHoist h HoistCtl.cleared).enterPhase h .idle ∨
    ∃ t, (p.hoist h).phase ≠ .faulted ∧ (p.hoist h).staged = some t ∧ p.endActive h =
      (p.updHoist h HoistCtl.cleared).promote h t ((p.hoist h).active.bind fun t => t.haltCause) := by
  by_cases faulted : (p.hoist h).phase = .faulted
  · exact Or.inl ⟨faulted, p.endActive_of_faulted h faulted⟩
  · cases staged : (p.hoist h).staged with
    | none => exact Or.inr (Or.inl ⟨faulted, rfl, p.endActive_of_idle h faulted staged⟩)
    | some t => exact Or.inr (Or.inr ⟨t, faulted, rfl, p.endActive_of_staged h faulted t staged⟩)

theorem Chip.endActive_unchangedBut : p.unchangedBut (p.endActive h) [.bays, .hoists, .orders] := by
  have cleared := p.updHoist_unchangedBut h HoistCtl.cleared
  rcases p.endActive_cases h with ⟨_, e⟩ | ⟨_, _, e⟩ | ⟨t, _, _, e⟩ <;> rw [e]
  · exact Chip.unchangedBut_mono cleared (by decide)
  · exact Chip.unchangedBut_mono (Chip.unchangedBut_trans cleared (Chip.updHoist_unchangedBut _ h _)) (by decide)
  · exact Chip.unchangedBut_trans (Chip.unchangedBut_mono cleared (by decide)) (Chip.promote_unchangedBut _ h t _)

@[simp] theorem Chip.endActive_masses : (p.endActive h).masses = p.masses := p.endActive_unchangedBut h .masses (by decide)

theorem Chip.endActive_bay_of_not (free : (p.bay x).holder ≠ some (h, .staged)) : (p.endActive h).bay x = p.bay x := by
  rcases p.endActive_cases h with ⟨_, e⟩ | ⟨_, _, e⟩ | ⟨t, _, _, e⟩ <;> rw [e]
  · rfl
  · rfl
  · exact Chip.promote_bay_of_not _ h x t _ free

@[simp] theorem Chip.endActive_queue : (p.endActive h).orders.queue = p.orders.queue := by
  rcases p.endActive_cases h with ⟨_, e⟩ | ⟨_, _, e⟩ | ⟨t, _, _, e⟩ <;> rw [e]
  · rfl
  · rfl
  · rw [Chip.promote_orders]
    rfl

@[simp] theorem Chip.endActive_dropped : (p.endActive h).orders.dropped = p.orders.dropped := by
  rcases p.endActive_cases h with ⟨_, e⟩ | ⟨_, _, e⟩ | ⟨t, _, _, e⟩ <;> rw [e]
  · rfl
  · rfl
  · rw [Chip.promote_orders]
    rfl

/-- A trip that enters by its promotion on a moving hoist is entered as R91 says. -/
theorem Chip.tripEntered_promoted (t : Trip) (halt : Option HaltCause) (moving : (p.hoist h).phase ≠ .halted) :
    (p.promoted h t halt).active = some t ∧ p.tripEntered h t (p.promoted h t halt) := by
  unfold Chip.promoted Chip.tripEntered
  by_cases near : p.atSource h t = true
  · have close : apart (p.unit h).elevation (p.elevationOf t.source) ≤ p.params.stopTol := of_decide_eq_true near
    simp [moving, near, close]
  · have far : ¬apart (p.unit h).elevation (p.elevationOf t.source) ≤ p.params.stopTol := fun c =>
      near (decide_eq_true c)
    simp [moving, near, far]

/-- A trip promoted on a HALTED hoist leaves it HALTED, to resume where its source gives (R91). -/
theorem Chip.promoted_of_halted (t : Trip) (halt : Option HaltCause) (halted : (p.hoist h).phase = .halted) :
    p.promoted h t halt = { p.hoist h with
      active := some { t with
        resumePhase := some (if p.atSource h t then .engage else .travel), haltCause := halt }
      staged := none, latchCommand := if p.atSource h t then .closed else .opened } := by
  unfold Chip.promoted
  rw [if_pos halted]

/-- What a promotion leaves of the controller whether it is HALTED, near the source or away from it. -/
theorem Chip.promoted_kept (t : Trip) (halt : Option HaltCause) :
    (p.promoted h t halt).withdrawal = (p.hoist h).withdrawal ∧ (p.promoted h t halt).noBay = (p.hoist h).noBay ∧
    (p.promoted h t halt).staged = none ∧ ((p.hoist h).speedRef = 0 → (p.promoted h t halt).speedRef = 0) ∧
    ((p.hoist h).phaseReply = none → (p.promoted h t halt).phaseReply = none) := by
  unfold Chip.promoted
  simp only
  split
  · exact ⟨rfl, rfl, rfl, id, id⟩
  · split
    · exact ⟨rfl, rfl, rfl, fun _ => rfl, fun _ => rfl⟩
    · exact ⟨rfl, rfl, rfl, id, fun _ => rfl⟩

/-- The end of an active trip is as the statements describe it. -/
theorem Chip.activeEnded_endActive : p.activeEnded (p.endActive h) h := by
  unfold Chip.activeEnded
  rcases p.endActive_cases h with ⟨faulted, e⟩ | ⟨notFaulted, unstaged, e⟩ | ⟨t, notFaulted, staged, e⟩
  · simp [e, faulted, HoistCtl.cleared]
  · simp [e, notFaulted, unstaged, Chip.enterPhase, HoistCtl.cleared]
  · obtain ⟨q, def_q⟩ : ∃ q, q = p.updHoist h HoistCtl.cleared := ⟨_, rfl⟩
    obtain ⟨halt, def_halt⟩ : ∃ halt, halt = (p.hoist h).active.bind fun t => t.haltCause := ⟨_, rfl⟩
    rw [← def_q, ← def_halt] at e
    have cleared : q.hoist h = (p.hoist h).cleared := by rw [def_q, Chip.updHoist_hoist_self]
    have phase : (q.hoist h).phase = (p.hoist h).phase := by rw [cleared]; rfl
    have near : q.atSource h t = p.atSource h t := by rw [def_q]; rfl
    have entered : ∀ c, q.tripEntered h t c → p.tripEntered h t c := fun c => by rw [def_q]; exact id
    have after : (p.endActive h).hoist h = q.promoted h t halt := by rw [e, Chip.promote_hoist]
    have orders : (p.endActive h).orders = { p.orders with
        heldActive := p.orders.heldActive.set h (p.held h .staged), heldStaged := p.orders.heldStaged.set h none } := by
      rw [e, Chip.promote_orders, def_q]
      rfl
    obtain ⟨withdrawal, noBay, unstaged, speed, _⟩ := q.promoted_kept h t halt
    rw [cleared] at withdrawal noBay speed
    simp only [after]
    refine ⟨withdrawal, speed rfl, noBay, fun faulted => absurd faulted notFaulted,
      fun _ unstaged => absurd (unstaged.symm.trans staged) (by simp), fun tr _ is_t => ?_⟩
    obtain rfl : t = tr := Option.some.inj (staged.symm.trans is_t)
    refine ⟨unstaged, by simp [Chip.held, orders], by simp [Chip.held, orders], fun moving => ?_, fun halted => ?_⟩
    · obtain ⟨active, inTrip⟩ := q.tripEntered_promoted h t halt (by rwa [phase])
      exact ⟨active, entered _ inTrip⟩
    · rw [q.promoted_of_halted h t halt (phase.trans halted), near, ← def_halt]
      refine ⟨phase.trans halted, fun close => ?_, fun far => ?_⟩
      · have near : p.atSource h t = true := decide_eq_true close
        simp [near]
      · have away : p.atSource h t = false := decide_eq_false (by omega)
        simp [away]

/-- What of a part the end of hoist `h`'s active trip is described by. -/
structure Chip.SameTrips (h : HoistId) (p q : Chip) : Prop where
  phase : (q.hoist h).phase = (p.hoist h).phase
  staged : (q.hoist h).staged = (p.hoist h).staged
  active : (q.hoist h).active = (p.hoist h).active
  held : q.held h .staged = p.held h .staged
  unit : q.unit h = p.unit h
  params : q.params = p.params
  elevation : ∀ b, q.elevationOf b = p.elevationOf b

theorem Chip.SameTrips.activeEnded {h : HoistId} {p q r : Chip} (same : Chip.SameTrips h p q)
    (ended : q.activeEnded r h) : p.activeEnded r h := by
  unfold Chip.activeEnded Chip.tripEntered at *
  simpa only [same.phase, same.staged, same.active, same.held, same.unit, same.params, same.elevation] using ended

/-- The phase reply stays absent through an end, and the latch command is kept where no trip is promoted. -/
theorem Chip.endActive_hoist_kept :
    ((p.hoist h).phaseReply = none → ((p.endActive h).hoist h).phaseReply = none) ∧
    ((p.hoist h).staged = none ∨ (p.hoist h).phase = .faulted →
      ((p.endActive h).hoist h).latchCommand = (p.hoist h).latchCommand) := by
  rcases p.endActive_cases h with ⟨_, e⟩ | ⟨_, _, e⟩ | ⟨t, notFaulted, staged, e⟩ <;> rw [e]
  · simp [HoistCtl.cleared]
  · simp [Chip.enterPhase, HoistCtl.cleared]
  · rw [Chip.promote_hoist]
    refine ⟨fun noReply => ?_, fun unpromoted => absurd unpromoted (by simp [staged, notFaulted])⟩
    obtain ⟨_, _, _, _, reply⟩ := (p.updHoist h HoistCtl.cleared).promoted_kept h t
      ((p.hoist h).active.bind fun t => t.haltCause)
    exact reply (by simpa [HoistCtl.cleared] using noReply)

@[simp] theorem Chip.endEmpty_masses : (p.endEmpty h).masses = p.masses := by simp [Chip.endEmpty]

@[simp] theorem Chip.endEmpty_queue : (p.endEmpty h).orders.queue = p.orders.queue := by simp [Chip.endEmpty]

@[simp] theorem Chip.endEmpty_dropped : (p.endEmpty h).orders.dropped = p.orders.dropped := by simp [Chip.endEmpty]

theorem Chip.endEmpty_bay_of_not (free : (p.bay x).holder ≠ some (h, .staged)) : (p.endEmpty h).bay x = p.bay x :=
  Chip.endActive_bay_of_not _ h x free

/-- The end of an active trip in leg EMPTY is as the statements describe it. -/
theorem Chip.emptyEnded_endEmpty : p.emptyEnded (p.endEmpty h) h := by
  obtain ⟨r, def_r⟩ : ∃ r, r = p.updHoist h fun c =>
    { c with phaseReply := none, latchCommand := if c.workPhase = .engage then .opened else c.latchCommand } := ⟨_, rfl⟩
  have e : p.endEmpty h = r.endActive h := by rw [def_r]; rfl
  have hoist : r.hoist h = { p.hoist h with
      phaseReply := none
      latchCommand := if (p.hoist h).workPhase = .engage then .opened else (p.hoist h).latchCommand } := by
    rw [def_r, Chip.updHoist_hoist_self]
  have same : Chip.SameTrips h p r :=
    ⟨by rw [hoist], by rw [hoist], by rw [hoist], by rw [def_r]; rfl, by rw [def_r]; rfl, by rw [def_r]; rfl,
      fun b => by rw [def_r]; rfl⟩
  obtain ⟨reply, kept⟩ := r.endActive_hoist_kept h
  rw [e]
  refine ⟨same.activeEnded (r.activeEnded_endActive h), reply (by rw [hoist]), fun unpromoted => ?_⟩
  rw [kept (by rwa [same.staged, same.phase]), hoist]

/-- The description of an end holds of an earlier part as well, where what came between did no more to the trip machine than deal with the
mass, the bays and the order of the trip. -/
theorem Chip.SameTrips.emptyEnded {h : HoistId} {p q r : Chip} (same : Chip.SameTrips h p q)
    (work : (q.hoist h).workPhase = (p.hoist h).workPhase)
    (latch : (q.hoist h).latchCommand = (p.hoist h).latchCommand) (ended : q.emptyEnded r h) : p.emptyEnded r h := by
  obtain ⟨active, reply, command⟩ := ended
  rw [same.staged, same.phase, work, latch] at command
  exact ⟨same.activeEnded active, reply, command⟩

/-! ### The re-target rule (R135) -/

/-- In a list in strictly increasing order, the first that no other precedes by a measure is the least, and of those as small the first. -/
theorem firstBy_of_measure {n : Nat} (measure : Fin n → Nat) (l : List (Fin n)) (sorted : l.Pairwise (· < ·)) :
    (firstBy (fun a b => decide (measure a < measure b)) l = none → l = []) ∧
    ∀ a, firstBy (fun a b => decide (measure a < measure b)) l = some a →
      a ∈ l ∧ ∀ b ∈ l, measure a < measure b ∨ measure a = measure b ∧ a ≤ b := by
  induction l with
  | nil => simp [firstBy]
  | cons first rest ih =>
    obtain ⟨ahead, sorted⟩ := List.pairwise_cons.mp sorted
    obtain ⟨ofNone, ofSome⟩ := ih sorted
    cases found : firstBy (fun a b => decide (measure a < measure b)) rest with
    | none => simp [firstBy, ofNone found]
    | some c =>
      obtain ⟨inRest, least⟩ := ofSome c found
      by_cases better : measure c < measure first
      · simp only [firstBy, found, better, decide_true, if_true, reduceCtorEq, false_implies, true_and]
        rintro a ⟨rfl⟩
        refine ⟨List.mem_cons_of_mem _ inRest, fun b isIn => ?_⟩
        rcases List.mem_cons.mp isIn with rfl | later
        · exact Or.inl better
        · exact least b later
      · simp only [firstBy, found, better, decide_false, Bool.false_eq_true, if_false, reduceCtorEq, false_implies, true_and]
        rintro a ⟨rfl⟩
        refine ⟨List.mem_cons_self, fun b isIn => ?_⟩
        rcases List.mem_cons.mp isIn with rfl | later
        · exact Or.inr ⟨rfl, le_refl _⟩
        · have := least b later
          have := (ahead b later).le
          omega

theorem Chip.retargetCandidate_iff (zr : Nat) : p.retargetCandidate h zr b = true ↔ p.mayRetarget h zr b := by
  unfold Chip.retargetCandidate Chip.mayRetarget Chip.nonService
  cases p.power.mode <;> simp [and_assoc]

/-- The re-target picks by the rule of R135. -/
theorem Chip.retargetRule_retargetBay (zr : Nat) : p.retargetRule h zr (p.retargetBay h zr) := by
  have sorted : (bayList.filter (p.retargetCandidate h zr)).Pairwise (· < ·) :=
    List.Pairwise.filter _ (List.pairwise_lt_finRange 64)
  have mem : ∀ b, b ∈ bayList.filter (p.retargetCandidate h zr) ↔ p.mayRetarget h zr b := fun b => by
    rw [List.mem_filter, p.retargetCandidate_iff]
    simp [bayList]
  obtain ⟨ofNone, ofSome⟩ := firstBy_of_measure (fun b => apart (p.elevationOf b) zr) _ sorted
  refine ⟨fun noBay k may => ?_, fun b picked => ?_⟩
  · have := (mem k).mpr may
    rw [ofNone noBay] at this
    exact absurd this List.not_mem_nil
  · obtain ⟨isIn, least⟩ := ofSome b picked
    exact ⟨(mem b).mp isIn, fun k may => least k ((mem k).mpr may)⟩

theorem Chip.retargetBay_opened {zr : Nat} (picked : p.retargetBay h zr = some b) : (p.bay b).state = .opened := by
  obtain ⟨_, least⟩ := p.retargetRule_retargetBay h zr
  obtain ⟨⟨opened, _⟩, _⟩ := least b picked
  exact opened

/-- Barring a bay that is not OPEN changes nothing for the re-target rule. -/
theorem Chip.barBay_retargetBay (c : BarredCause) (zr : Nat) (notOpen : (p.bay b).state ≠ .opened) :
    (p.barBay b c).retargetBay h zr = p.retargetBay h zr := by
  have candidates : (p.barBay b c).retargetCandidate h zr = p.retargetCandidate h zr := by
    funext k
    rw [Bool.eq_iff_iff, Chip.retargetCandidate_iff, Chip.retargetCandidate_iff]
    unfold Chip.mayRetarget Chip.reaches
    by_cases e : k = b
    · subst e
      simp [notOpen]
    · simp [Chip.barBay_bay_of_ne _ _ _ _ e]
  unfold Chip.retargetBay
  simp only [candidates, Chip.barBay_elevationOf]

end Sys2Proof.Machine
end

section
/-! SUPPORT. A bay BARRED and held by no trip keeps its record through whatever becomes of the trip that lost it (spec/05 R104, R105): the
relation `Chip.LeavesBarred`, with one lemma for each operation of the loss of a source or a destination. -/

namespace Sys2Proof.Machine

/-! ### A re-target (R106) -/

section
variable (p : Chip) (h : HoistId) (t : Trip) (zr : Nat) (b x : BayId) (kind : TripKind)

theorem Chip.takeDestination_bay : (p.takeDestination h t zr b kind).bay x =
    ((p.giveUpDestination h .active t.destination).holdDestination h .active b).bay x := rfl

theorem Chip.takeDestination_bay_of_ne (ne : x ≠ b) :
    (p.takeDestination h t zr b kind).bay x = (p.giveUpDestination h .active t.destination).bay x := by
  rw [Chip.takeDestination_bay]
  exact Chip.updBay_bay_of_ne _ b x _ ne

/-- The OPEN bay of a re-target becomes the held destination. -/
theorem Chip.takeDestination_bay_self (opened : (p.bay b).state = .opened) : (p.takeDestination h t zr b kind).bay b =
    { p.bay b with state := .inbound, occupant := none, holder := some (h, .active) } := by
  rw [Chip.takeDestination_bay, ← p.giveUpDestination_bay_of_notInbound h t.destination b .active (by rw [opened]; decide)]
  exact Chip.updBay_bay_self _ b _

theorem Chip.takeDestination_hoist (active : (p.hoist h).active = some t) :
    (p.takeDestination h t zr b p.power.mode.retargetKind).hoist h =
      { p.hoist h with active := some (p.retargeted t zr b), noBay := false } := by
  simp [Chip.takeDestination, Chip.updActive, Chip.holdDestination, active]
  rfl

theorem Chip.haltHoist_hoist (cause : HaltCause) (resume : Phase) (active : (p.hoist h).active = some t) :
    (p.haltHoist h cause resume).hoist h = { p.hoist h with
      phase := .halted, phaseReply := none, phaseTimer := none, dwellTimer := none, speedRef := 0
      active := some { t with resumePhase := some resume, haltCause := some cause } } := by
  simp [Chip.haltHoist, Chip.updActive, Chip.stopRef, Chip.enterPhase, active]

end

/-! ### Bays that no trip holds -/

/-- Bay `x`, where it is BARRED and no trip holds it in `p`, has the same record in `q`. -/
def Chip.LeavesBarred (x : BayId) (p q : Chip) : Prop :=
  (p.bay x).state = .barred → (p.bay x).holder = none → q.bay x = p.bay x

namespace Chip.LeavesBarred

variable {x : BayId} {p q r : Chip} {h : HoistId} {slot : Slot}

theorem of_bay (same : q.bay x = p.bay x) : LeavesBarred x p q := fun _ _ => same

theorem trans (first : LeavesBarred x p q) (second : LeavesBarred x q r) : LeavesBarred x p r := fun barred free => by
  have e := first barred free
  rw [second (by rwa [e]) (by rwa [e]), e]

theorem giveUpSource (b : BayId) : LeavesBarred x p (p.giveUpSource h slot b) := fun barred _ => by
  rw [p.giveUpSource_bay, if_neg]
  rintro ⟨rfl, held, _⟩
  rw [Chip.holdsSource_iff, barred] at held
  exact absurd held.1 (by decide)

theorem giveUpDestination (b : BayId) : LeavesBarred x p (p.giveUpDestination h slot b) := fun barred _ =>
  p.giveUpDestination_bay_of_notInbound h b x slot (by rw [barred]; decide)

theorem endHeld (fate : OrderFate) : LeavesBarred x p (p.endHeld h slot fate) := of_bay (p.endHeld_bay h x slot fate)

theorem updHoist (f : HoistCtl → HoistCtl) : LeavesBarred x p (p.updHoist h f) := of_bay rfl

theorem endEmpty : LeavesBarred x p (p.endEmpty h) := fun _ free => p.endEmpty_bay_of_not h x (by simp [free])

theorem dropStaged (fate : OrderFate) : LeavesBarred x p (p.dropStaged h fate) := by
  unfold Chip.dropStaged
  split
  · exact of_bay rfl
  · rename_i t _
    have released : LeavesBarred x p ((p.updHoist h fun c => { c with staged := none }).massReleased t.mass) := of_bay rfl
    exact ((released.trans (giveUpSource _)).trans (giveUpDestination _)).trans (endHeld _)

theorem loseSource : LeavesBarred x p (p.loseSource h slot) := by
  unfold Chip.loseSource
  cases slot with
  | staged =>
    simp only
    split
    · exact of_bay rfl
    · exact ((updHoist _).trans (giveUpDestination _)).trans (endHeld _)
  | active =>
    simp only
    split
    · exact of_bay rfl
    · exact ((giveUpDestination _).trans (endHeld _)).trans endEmpty

theorem abandon (fate : OrderFate) : LeavesBarred x p (p.abandon h fate) := by
  unfold Chip.abandon Chip.completeAbandon
  simp only
  split
  · exact of_bay rfl
  · split
    · exact updHoist _
    · split
      · exact of_bay rfl
      · rename_i t _
        have released : LeavesBarred x p (p.massReleased t.mass) := of_bay rfl
        exact (((released.trans (giveUpSource _)).trans (giveUpDestination _)).trans (endHeld _)).trans endEmpty

/-- A re-target takes an OPEN bay, so never a BARRED one. -/
theorem retargetFrom (t : Trip) (zr : Nat) (taken : p.retargetFrom h t zr = some q) : LeavesBarred x p q := by
  unfold Chip.retargetFrom at taken
  obtain ⟨b, picked, rfl⟩ := Option.map_eq_some_iff.mp taken
  have opened := p.retargetBay_opened h b picked
  intro barred free
  have ne : x ≠ b := by
    rintro rfl
    exact absurd (opened.symm.trans barred) (by decide)
  rw [Chip.takeDestination_bay_of_ne _ _ _ _ _ _ _ ne]
  exact giveUpDestination t.destination barred free

theorem loseDestination : LeavesBarred x p (p.loseDestination h slot) := by
  unfold Chip.loseDestination
  cases slot with
  | staged => exact dropStaged _
  | active =>
    simp only
    split
    · exact of_bay rfl
    · split
      · split
        · rename_i taken
          exact retargetFrom _ _ taken
        · exact (updHoist _).trans (abandon _)
      · split
        · split
          · rename_i taken
            exact retargetFrom _ _ taken
          · exact of_bay rfl
        · split
          · rename_i taken
            exact retargetFrom _ _ taken
          · exact of_bay rfl
        all_goals exact of_bay rfl

end Chip.LeavesBarred

/-! ### The two losses, as the statements describe them (R104, R105) -/

/-- What an operation on hoist `h`'s trips may change. -/
theorem Chip.TripFrame.unchangedBut {h : HoistId} {p q : Chip} (frame : Chip.TripFrame h p q) :
    p.unchangedBut q [.masses, .bays, .hoists, .selector, .orders] := by
  intro x out
  cases x <;> simp at out
  case sensors => exact frame.sensors
  case units => exact frame.units
  case power => exact frame.power
  case links => exact frame.links
  case port => exact frame.port
  case params => exact frame.params
  case hoistParams => exact frame.hoistParams

section
variable {p : Chip} {h : HoistId} {t : Trip}

theorem Chip.loseSource_masses (slot : Slot) : (p.loseSource h slot).masses = p.masses := by
  unfold Chip.loseSource
  cases slot <;> simp only <;> split <;> simp

/-- A staged trip dropped (R103). -/
theorem Chip.dropStaged_of_staged (staged : (p.hoist h).staged = some t) (fate : OrderFate) : p.dropStaged h fate =
    ((((p.updHoist h fun c => { c with staged := none }).massReleased t.mass).giveUpSource h .staged
      t.source).giveUpDestination h .staged t.destination).endHeld h .staged fate := by
  simp [Chip.dropStaged, staged]

theorem Chip.held_of_orders {q : Chip} (orders : q.orders = p.orders) (k : HoistId) (slot : Slot) :
    q.held k slot = p.held k slot := by
  unfold Chip.held
  rw [orders]

/-- The loss of a destination by an active trip in leg EMPTY (R105): a re-target, or else NO_BAY and an abandonment. -/
theorem Chip.loseDestination_empty (active : (p.hoist h).active = some t) (leg : t.leg = .empty) :
    p.loseDestination h .active = (p.retargetFrom h t (p.elevationOf t.source)).getD ((p.setNoBay h).abandon h .returned) := by
  simp only [Chip.loseDestination, active, leg]
  cases p.retargetFrom h t (p.elevationOf t.source) <;> rfl

/-- The loss of a destination by a loaded trip in TRAVEL or DWELL (R105): a re-target, or else HALTED with NO_BAY. -/
theorem Chip.loseDestination_travel (active : (p.hoist h).active = some t) (leg : t.leg = .loaded)
    (phase : (p.hoist h).phase = .travel ∨ (p.hoist h).phase = .dwell) :
    p.loseDestination h .active =
      (p.retargetFrom h t (p.unit h).elevation).getD ((p.setNoBay h).haltHoist h .noBay .travel) := by
  rcases phase with e | e <;> simp only [Chip.loseDestination, active, leg, e] <;>
    cases p.retargetFrom h t (p.unit h).elevation <;> rfl

theorem Chip.loseDestination_approach (active : (p.hoist h).active = some t) (leg : t.leg = .loaded)
    (phase : (p.hoist h).phase = .approach) : p.loseDestination h .active = p.haltHoist h .destLost .approach := by
  simp only [Chip.loseDestination, active, leg, phase]

theorem Chip.loseDestination_halted (active : (p.hoist h).active = some t) (leg : t.leg = .loaded)
    (phase : (p.hoist h).phase = .halted) :
    p.loseDestination h .active = p.updActive h fun t => { t with haltCause := some .destLost } := by
  simp only [Chip.loseDestination, active, leg, phase]

theorem Chip.loseDestination_faulted (active : (p.hoist h).active = some t) (leg : t.leg = .loaded)
    (phase : (p.hoist h).phase = .faulted) : p.loseDestination h .active = p := by
  simp only [Chip.loseDestination, active, leg, phase]

/-- What deals with the mass, the bays and the order of a trip before its end changes of hoist `h` the NO_BAY indication at most; so the
end is one of the part before it. -/
theorem Chip.TripFrame.emptyEnded {q r : Chip} (frame : Chip.TripFrame h p q) {noBay : Bool}
    (hoist : q.hoist h = { p.hoist h with noBay := noBay }) (held : q.held h .staged = p.held h .staged)
    (elevation : ∀ b, q.elevationOf b = p.elevationOf b) (ended : q.emptyEnded r h) : p.emptyEnded r h := by
  have unit : q.unit h = p.unit h := by
    unfold Chip.unit
    rw [frame.units]
  have same : Chip.SameTrips h p q :=
    ⟨by rw [hoist], by rw [hoist], by rw [hoist], held, unit, frame.params, elevation⟩
  exact same.emptyEnded (by rw [hoist]; rfl) (by rw [hoist]) ended

/-- The abandonment of an active trip in leg EMPTY that completes at once, its order returned (R103). -/
theorem Chip.abandon_completed (active : (p.hoist h).active = some t) (withdrawal : (p.hoist h).withdrawal = .none)
    (free : (p.hoist h).waitsForLatch = false) : p.abandon h .returned =
      ((((p.massReleased t.mass).giveUpSource h .active t.source).giveUpDestination h .active t.destination).endHeld h
        .active .returned).endEmpty h := by
  simp [Chip.abandon, Chip.completeAbandon, active, withdrawal, free]

/-- What such an abandonment leaves: the trip has ended, its mass is PARKED, and its order is at the head of the list. -/
theorem Chip.abandon_completed_ended (active : (p.hoist h).active = some t) (withdrawal : (p.hoist h).withdrawal = .none)
    (free : (p.hoist h).waitsForLatch = false) :
    p.emptyEnded (p.abandon h .returned) h ∧
    (p.abandon h .returned).mass t.mass = { p.mass t.mass with state := .parked } ∧
    ∀ o, p.held h .active = some o → (p.abandon h .returned).orders.queue = o :: p.orders.queue := by
  obtain ⟨q, def_q⟩ : ∃ q, q = ((p.massReleased t.mass).giveUpSource h .active t.source).giveUpDestination h .active
    t.destination := ⟨_, rfl⟩
  have orders : q.orders = p.orders := by rw [def_q]; simp
  have masses : q.masses = (p.massReleased t.mass).masses := by rw [def_q]; simp
  have frame : Chip.TripFrame h p q := def_q ▸ ((Chip.TripFrame.massReleased _).trans
    (Chip.TripFrame.giveUpSource h .active _)).trans (Chip.TripFrame.giveUpDestination h .active _)
  rw [p.abandon_completed active withdrawal free, ← def_q]
  refine ⟨?_, ?_, fun o held => ?_⟩
  · refine (frame.trans (Chip.TripFrame.endHeld h .active .returned)).emptyEnded (noBay := (p.hoist h).noBay) ?_ ?_ (fun b => ?_) ?_
    · rw [def_q]
      simp
    · rw [Chip.endHeld_held, if_neg (by simp), p.held_of_orders orders]
    · rw [def_q]
      simp
    · exact Chip.emptyEnded_endEmpty _ h
  · have e : ((q.endHeld h .active .returned).endEmpty h).masses = (p.massReleased t.mass).masses := by simp [masses]
    unfold Chip.mass
    rw [e]
    exact p.massReleased_mass_self t.mass
  · rw [Chip.endEmpty_queue, Chip.endHeld_returned _ _ _ o ((p.held_of_orders orders h .active).trans held), orders]

end

end Sys2Proof.Machine
end

section
/-! SUPPORT. What a change of accepted level does at a bay (spec/01 R17, spec/02 R38 to R40), by the state of the bay, and to the trip that
held it (spec/05 R104 to R106). -/

namespace Sys2Proof.Machine

/-! ### The branches of the reconciliation (R38 to R40) -/

section
variable {p : Chip} {b : BayId} {m : MassId} {holder : HoistId × Slot}

theorem Chip.reconcile_of_unheeded (state : (p.bay b).state = .unsurveyed ∨ (p.bay b).state = .barred)
    (level : Occupancy) : p.reconcile b level = p := by
  rcases state with e | e <;> simp [Chip.reconcile, e]

theorem Chip.reconcile_opened (opened : (p.bay b).state = .opened) :
    p.reconcile b .occupied = p.barBay b .foreign := by
  simp [Chip.reconcile, opened]

theorem Chip.reconcile_parked (occupied : (p.bay b).state = .occupied) (occupant : (p.bay b).occupant = some m)
    (parked : (p.mass m).state = .parked) : p.reconcile b .empty = (p.barBay b .lost).massLostFromBay m := by
  simp [Chip.reconcile, occupied, occupant, parked]

theorem Chip.reconcile_retiring (occupied : (p.bay b).state = .occupied) (occupant : (p.bay b).occupant = some m)
    (retiring : (p.mass m).state = .retiring) : p.reconcile b .empty = (p.massAbsent m).openBay b := by
  simp [Chip.reconcile, occupied, occupant, retiring]

theorem Chip.reconcile_outbound_vacant (outbound : (p.bay b).state = .outbound) (vacant : (p.bay b).occupant = none) :
    p.reconcile b .empty = p.openBay b := by
  simp [Chip.reconcile, outbound, vacant]

theorem Chip.reconcile_outbound_unheld (outbound : (p.bay b).state = .outbound) (occupant : (p.bay b).occupant = some m)
    (unheld : (p.bay b).holder = none) : p.reconcile b .empty = (p.barBay b .lost).massLostFromBay m := by
  simp [Chip.reconcile, outbound, occupant, unheld]

theorem Chip.reconcile_outbound_held (outbound : (p.bay b).state = .outbound) (occupant : (p.bay b).occupant = some m)
    (held : (p.bay b).holder = some holder) :
    p.reconcile b .empty = ((p.barBay b .lost).massLostFromBay m).loseSource holder.1 holder.2 := by
  simp [Chip.reconcile, outbound, occupant, held]

theorem Chip.reconcile_released (inbound : (p.bay b).state = .inbound) (held : (p.bay b).holder = some holder)
    (released : p.releaseInProgress holder = true) (level : Occupancy) : p.reconcile b level = p.releaseTest holder.1 := by
  simp [Chip.reconcile, inbound, held, released]

theorem Chip.reconcile_inbound_empty (inbound : (p.bay b).state = .inbound) (held : (p.bay b).holder = some holder)
    (notReleased : p.releaseInProgress holder = false) : p.reconcile b .empty = p := by
  simp [Chip.reconcile, inbound, held, notReleased]

theorem Chip.reconcile_inbound_occupied (inbound : (p.bay b).state = .inbound) (held : (p.bay b).holder = some holder)
    (notReleased : p.releaseInProgress holder = false) :
    p.reconcile b .occupied = (p.barBay b .foreign).loseDestination holder.1 holder.2 := by
  simp [Chip.reconcile, inbound, held, notReleased]

end

/-! ### The bay itself -/

/-- A bay just barred stays as it is through the loss that follows. -/
theorem Chip.LeavesBarred.after_barBay {p q r : Chip} {b : BayId} {cause : BarredCause}
    (bay : q.bay b = (p.barBay b cause).bay b) (leaves : Chip.LeavesBarred b q r) : (r.bay b).state = .barred ∧
    (r.bay b).cause = some cause ∧ (r.bay b).holder = none ∧ (r.bay b).occupant = none := by
  rw [p.barBay_bay_self] at bay
  rw [leaves (by rw [bay]) (by rw [bay]), bay]
  exact ⟨rfl, rfl, rfl, rfl⟩

section
variable (p : Chip) (b : BayId) (m : MassId)

/-- Barring a bay LOST with its mass MISSING touches no other bay or mass. -/
theorem Chip.lost_others : p.otherBaysSame ((p.barBay b .lost).massLostFromBay m) b ∧
    p.otherMassesSame ((p.barBay b .lost).massLostFromBay m) m :=
  ⟨fun k ne => by rw [Chip.massLostFromBay_bay, p.barBay_bay_of_ne b k _ ne],
    fun i ne => by rw [Chip.massLostFromBay_mass_of_ne _ _ _ ne, Chip.barBay_mass]⟩

theorem Chip.lost_unchangedBut : p.unchangedBut ((p.barBay b .lost).massLostFromBay m) [.masses, .bays, .orders] :=
  Chip.unchangedBut_mono
    (Chip.unchangedBut_append (p.barBay_unchangedBut b _) (Chip.massLostFromBay_unchangedBut _ m)) (by decide)

/-- A RETIRING occupant taken away (R17, R39): the mass written off and the bay OPEN. -/
theorem Chip.takenAway_unchangedBut :
    p.unchangedBut ((p.massAbsent m).openBay b) [.masses, .bays, .selector, .orders] :=
  Chip.unchangedBut_mono
    (Chip.unchangedBut_append (p.massAbsent_unchangedBut m) (Chip.openBay_unchangedBut _ b)) (by decide)

theorem Chip.takenAway_others : p.otherBaysSame ((p.massAbsent m).openBay b) b ∧
    p.otherMassesSame ((p.massAbsent m).openBay b) m :=
  ⟨fun k ne => by rw [Chip.openBay_bay_of_ne _ b k ne, Chip.massAbsent_bay],
    fun i ne => by rw [Chip.openBay_mass, p.massAbsent_mass m i, if_neg ne]⟩

end

/-! ### Loss of source (R104) -/

section
variable {p : Chip} {h : HoistId} {slot : Slot} {t : Trip}

theorem Chip.loseSource_staged (staged : (p.hoist h).staged = some t) : p.loseSource h .staged =
    ((p.updHoist h fun c => { c with staged := none }).giveUpDestination h .staged t.destination).endHeld
      h .staged .counted := by
  simp [Chip.loseSource, staged]

theorem Chip.loseSource_active (active : (p.hoist h).active = some t) : p.loseSource h .active =
    ((p.giveUpDestination h .active t.destination).endHeld h .active .counted).endEmpty h := by
  simp [Chip.loseSource, active]

variable (staged : slot = .staged → (p.hoist h).staged = some t) (active : slot = .active → (p.hoist h).active = some t)
include staged active

/-- The order of a trip that loses its source is discarded and counted (R104, R121). -/
theorem Chip.loseSource_orders : (p.loseSource h slot).orders.queue = p.orders.queue ∧
    (p.loseSource h slot).orders.dropped =
      if p.held h slot = none then p.orders.dropped else satInc16 p.orders.dropped := by
  cases slot with
  | staged =>
    rw [Chip.loseSource_staged (staged rfl), Chip.endHeld_counted_queue, Chip.endHeld_counted_dropped,
      Chip.held_of_orders (Chip.giveUpDestination_orders _ _ _ _)]
    simp
  | active =>
    rw [Chip.loseSource_active (active rfl), Chip.endEmpty_queue, Chip.endEmpty_dropped, Chip.endHeld_counted_queue,
      Chip.endHeld_counted_dropped, Chip.held_of_orders (Chip.giveUpDestination_orders _ _ _ _)]
    simp

/-- The destination of a trip that loses its source is given up (R35, R104). -/
theorem Chip.loseSource_destination (held : p.holdsDestination h slot t.destination = true) :
    ((p.loseSource h slot).bay t.destination).state =
      if (p.bay t.destination).sensor = some .occupied then .barred else .opened := by
  cases slot with
  | staged =>
    have given := (p.updHoist h fun c => { c with staged := none }).giveUpDestination_bay_self h t.destination .staged held
    rw [Chip.loseSource_staged (staged rfl), Chip.endHeld_bay, given]
    rfl
  | active =>
    have given := p.giveUpDestination_bay_self h t.destination .active held
    rw [Chip.loseSource_active (active rfl), Chip.endEmpty_bay_of_not _ _ _ (by simp [given]), Chip.endHeld_bay, given]

end

/-- A trip that loses its source (R104), its bay barred LOST and its mass MISSING: the destination and the order, a staged trip gone with the
rest of its hoist as it was, an active one ended. -/
theorem Chip.sourceLost {p q : Chip} {b : BayId} {m : MassId} {h : HoistId} {slot : Slot} {t : Trip}
    (lost : q = ((p.barBay b .lost).massLostFromBay m).loseSource h slot) (outbound : (p.bay b).state = .outbound)
    (staged : slot = .staged → (p.hoist h).staged = some t) (active : slot = .active → (p.hoist h).active = some t)
    (unnamed : p.queued m = false) :
    (p.holdsDestination h slot t.destination = true → (q.bay t.destination).state =
      if (p.bay t.destination).sensor = some .occupied then .barred else .opened) ∧
    q.orders.queue = p.orders.queue ∧
    q.orders.dropped = (if p.held h slot = none then p.orders.dropped else satInc16 p.orders.dropped) ∧
    (slot = .staged → q.hoist h = { p.hoist h with staged := none } ∧ q.held h .staged = none) ∧
    (slot = .active → p.emptyEnded q h) := by
  obtain ⟨r, def_r⟩ : ∃ r, r = (p.barBay b .lost).massLostFromBay m := ⟨_, rfl⟩
  rw [← def_r] at lost
  have hoist : r.hoist h = p.hoist h := by rw [def_r]; simp
  have orders : r.orders = p.orders := by
    rw [def_r]
    exact Chip.massLostFromBay_orders _ m unnamed
  have held : r.held h slot = p.held h slot := p.held_of_orders orders h slot
  rw [← hoist] at staged active
  obtain ⟨queue, dropped⟩ := Chip.loseSource_orders staged active
  rw [lost, queue, dropped, orders, held]
  refine ⟨fun holds => ?_, rfl, rfl, ?_, ?_⟩
  · obtain ⟨inbound, _⟩ := (p.holdsDestination_iff h t.destination slot).mp holds
    have ne : t.destination ≠ b := by
      rintro e
      rw [e, outbound] at inbound
      exact absurd inbound (by decide)
    have bay : r.bay t.destination = p.bay t.destination := by
      rw [def_r, Chip.massLostFromBay_bay, p.barBay_bay_of_ne b _ _ ne]
    have holds' : r.holdsDestination h slot t.destination = true := by
      rwa [Chip.holdsDestination, bay]
    rw [Chip.loseSource_destination staged active holds', bay]
  · rintro rfl
    rw [Chip.loseSource_staged (staged rfl)]
    refine ⟨?_, ?_⟩
    · simp [hoist]
    · rw [Chip.endHeld_held, if_pos ⟨rfl, rfl⟩]
  · rintro rfl
    have frame : Chip.TripFrame h p
        ((r.giveUpDestination h .active t.destination).endHeld h .active .counted) := by
      rw [def_r]
      exact (((Chip.TripFrame.barBay b _).trans (Chip.TripFrame.massLostFromBay m)).trans
        (Chip.TripFrame.giveUpDestination h .active _)).trans (Chip.TripFrame.endHeld h .active _)
    rw [Chip.loseSource_active (active rfl)]
    refine frame.emptyEnded (noBay := (p.hoist h).noBay) (by simp [hoist]) ?_ (fun k => by rw [def_r]; simp)
      (Chip.emptyEnded_endEmpty _ h)
    rw [Chip.endHeld_held, if_neg (by simp), Chip.held_of_orders (Chip.giveUpDestination_orders _ _ _ _),
      p.held_of_orders orders]

/-! ### Loss of destination (R105) -/

/-- A staged trip that loses its destination is dropped, its order returned (R103, R105). -/
theorem Chip.stagedDestinationLost {p q : Chip} {b : BayId} {h : HoistId} {t : Trip}
    (lost : q = (p.barBay b .foreign).loseDestination h .staged) (inbound : (p.bay b).state = .inbound)
    (staged : (p.hoist h).staged = some t) :
    q.hoist h = { p.hoist h with staged := none } ∧ q.mass t.mass = { p.mass t.mass with state := .parked } ∧
    (p.holdsSource h .staged t.source = true → (p.bay t.source).occupant ≠ none →
      q.bay t.source = { p.bay t.source with state := .occupied, holder := none }) ∧
    q.held h .staged = none ∧
    (∀ o, p.held h .staged = some o → q.orders.queue = o :: p.orders.queue) := by
  obtain ⟨r, def_r⟩ : ∃ r, r = ((p.barBay b .foreign).updHoist h fun c => { c with staged := none }).massReleased t.mass :=
    ⟨_, rfl⟩
  have dropped : q = ((r.giveUpSource h .staged t.source).giveUpDestination h .staged t.destination).endHeld h .staged
      .returned := by
    rw [lost, def_r]
    exact Chip.dropStaged_of_staged (by simpa using staged) .returned
  have orders : r.orders = p.orders := by rw [def_r]; rfl
  rw [dropped]
  refine ⟨by simp [def_r], ?_, fun holds occupant => ?_, ?_, fun o held => ?_⟩
  · rw [Chip.endHeld_mass]
    unfold Chip.mass
    rw [Chip.giveUpDestination_masses, Chip.giveUpSource_masses, def_r]
    exact Chip.massReleased_mass_self _ _
  · obtain ⟨outbound, _⟩ := (p.holdsSource_iff h t.source .staged).mp holds
    have ne : t.source ≠ b := by
      rintro e
      rw [e, inbound] at outbound
      exact absurd outbound (by decide)
    have bay : r.bay t.source = p.bay t.source := by
      rw [def_r]
      exact p.barBay_bay_of_ne b _ _ ne
    have given : (r.giveUpSource h .staged t.source).bay t.source =
        { p.bay t.source with state := .occupied, holder := none } := by
      rw [r.giveUpSource_bay, if_pos ⟨rfl, by rwa [Chip.holdsSource, bay], by rwa [bay]⟩, bay]
    rw [Chip.endHeld_bay, Chip.giveUpDestination_bay_of_notInbound _ _ _ _ _ (by rw [given]; simp), given]
  · rw [Chip.endHeld_held, if_pos ⟨rfl, rfl⟩]
  · have given : ((r.giveUpSource h .staged t.source).giveUpDestination h .staged t.destination).orders = p.orders := by
      simp [orders]
    rw [Chip.endHeld_returned _ _ _ o ((p.held_of_orders given h .staged).trans held), given]

section
variable {p q r otherwise : Chip} {b k : BayId} {h : HoistId} {t : Trip} {zr : Nat}

/-- An active trip that has lost its destination and is given another by the re-target rule (R106). -/
theorem Chip.destinationReplaced (active : (p.hoist h).active = some t) (notOpen : (p.bay b).state ≠ .opened)
    (found : p.retargetBay h zr = some k)
    (lost : q = ((p.barBay b .foreign).retargetFrom h t zr).getD otherwise) :
    p.destinationTaken q h k ∧ q.hoist h = { p.hoist h with active := some (p.retargeted t zr k), noBay := false } := by
  obtain ⟨r, def_r⟩ : ∃ r, r = p.barBay b .foreign := ⟨_, rfl⟩
  have opened : (p.bay k).state = .opened := p.retargetBay_opened h k found
  have ne : k ≠ b := by
    rintro rfl
    exact notOpen opened
  have bay : r.bay k = p.bay k := by rw [def_r]; exact p.barBay_bay_of_ne b k _ ne
  have taken : q = r.takeDestination h t zr k r.power.mode.retargetKind := by
    have same : r.retargetBay h zr = some k := by rw [def_r, p.barBay_retargetBay h b _ zr notOpen, found]
    simp [lost, ← def_r, Chip.retargetFrom, same]
  have trip : r.retargeted t zr k = p.retargeted t zr k := by
    unfold Chip.retargeted
    simp [def_r]
  have hoist : q.hoist h = { p.hoist h with active := some (p.retargeted t zr k), noBay := false } := by
    rw [taken, r.takeDestination_hoist h t zr k (by rw [def_r]; exact active), trip, def_r]
    rfl
  refine ⟨⟨?_, by rw [hoist]⟩, hoist⟩
  rw [taken, r.takeDestination_bay_self h t zr k _ (by rw [bay]; exact opened), bay]

/-- Where the rule gives no bay, the trip takes the other way. -/
theorem Chip.destinationNotReplaced (notOpen : (p.bay b).state ≠ .opened) (noBay : p.retargetBay h zr = none)
    (lost : q = ((p.barBay b .foreign).retargetFrom h t zr).getD otherwise) : q = otherwise := by
  have same : (p.barBay b .foreign).retargetBay h zr = none := by rw [p.barBay_retargetBay h b _ zr notOpen, noBay]
  simp [lost, Chip.retargetFrom, same]

/-- An empty trip without a bay: NO_BAY is set, and the abandonment waits for a withdrawal under way, waits for the latch, or completes at
once (R103, R105). -/
theorem Chip.abandonedWithoutBay (active : (p.hoist h).active = some t)
    (lost : q = ((p.barBay b .foreign).setNoBay h).abandon h .returned) :
    ((p.hoist h).withdrawal ≠ .none → q.hoist h = { p.hoist h with noBay := true } ∧ q.masses = p.masses) ∧
    ((p.hoist h).withdrawal = .none → (p.hoist h).waitsForLatch = true → q.masses = p.masses ∧
      q.hoist h = { p.hoist h with noBay := true, latchCommand := .opened, withdrawal := .abandon .returned }) ∧
    ((p.hoist h).withdrawal = .none → (p.hoist h).waitsForLatch = false →
      p.emptyEnded q h ∧ q.mass t.mass = { p.mass t.mass with state := .parked } ∧
      ∀ o, p.held h .active = some o → q.orders.queue = o :: p.orders.queue) := by
  obtain ⟨r, def_r⟩ : ∃ r, r = (p.barBay b .foreign).setNoBay h := ⟨_, rfl⟩
  have hoist : r.hoist h = { p.hoist h with noBay := true } := by rw [def_r]; simp [Chip.setNoBay]
  have withdrawal : (r.hoist h).withdrawal = (p.hoist h).withdrawal := by rw [hoist]
  have waits : (r.hoist h).waitsForLatch = (p.hoist h).waitsForLatch := by rw [hoist]; rfl
  have masses : r.masses = p.masses := by rw [def_r]; rfl
  rw [lost, ← def_r]
  refine ⟨fun underWay => ?_, fun noWithdrawal wait => ?_, fun noWithdrawal free => ?_⟩
  · have kept : r.abandon h .returned = r := by simp [Chip.abandon, withdrawal, underWay]
    rw [kept]
    exact ⟨hoist, masses⟩
  · have waiting : r.abandon h .returned =
        r.updHoist h fun c => { c with latchCommand := .opened, withdrawal := .abandon .returned } := by
      simp [Chip.abandon, withdrawal, waits, noWithdrawal, wait]
    rw [waiting]
    exact ⟨masses, by rw [Chip.updHoist_hoist_self, hoist]⟩
  · have frame : Chip.TripFrame h p r := def_r ▸ (Chip.TripFrame.barBay b _).trans Chip.TripFrame.setNoBay
    obtain ⟨ended, mass, order⟩ := r.abandon_completed_ended (by rw [hoist]; exact active) (withdrawal.trans noWithdrawal)
      (waits.trans free)
    refine ⟨frame.emptyEnded hoist (by rw [def_r]; rfl) (fun k => by rw [def_r]; simp [Chip.setNoBay]) ended, ?_,
      fun o held => ?_⟩
    · rw [mass]
      unfold Chip.mass
      rw [masses]
    · rw [order o (by rw [def_r]; exact held), def_r]
      rfl

end

/-- An active trip that loses its destination, by its leg and the phase of its hoist (R105). -/
theorem Chip.activeDestinationLost {p q : Chip} {b : BayId} {h : HoistId} {t : Trip} {zr : Nat}
    (lost : q = (p.barBay b .foreign).loseDestination h .active) (inbound : (p.bay b).state = .inbound)
    (active : (p.hoist h).active = some t)
    (reference : zr = if t.leg = .loaded then (p.unit h).elevation else p.elevationOf t.source) :
    ((t.leg = .empty ∨ (p.hoist h).phase = .travel ∨ (p.hoist h).phase = .dwell) →
      (∀ k, p.retargetBay h zr = some k → p.destinationTaken q h k ∧
        q.hoist h = { p.hoist h with active := some (p.retargeted t zr k), noBay := false }) ∧
      (p.retargetBay h zr = none → t.leg = .loaded →
        (q.hoist h).phase = .halted ∧ (q.hoist h).speedRef = 0 ∧ (q.hoist h).noBay = true ∧
        (q.hoist h).active = some { t with resumePhase := some .travel, haltCause := some .noBay }) ∧
      (p.retargetBay h zr = none → t.leg = .empty →
        ((p.hoist h).withdrawal ≠ .none → q.hoist h = { p.hoist h with noBay := true } ∧ q.masses = p.masses) ∧
        ((p.hoist h).withdrawal = .none → (p.hoist h).waitsForLatch = true → q.masses = p.masses ∧
          q.hoist h = { p.hoist h with
            noBay := true, latchCommand := .opened, withdrawal := .abandon .returned }) ∧
        ((p.hoist h).withdrawal = .none → (p.hoist h).waitsForLatch = false →
          p.emptyEnded q h ∧ q.mass t.mass = { p.mass t.mass with state := .parked } ∧
          ∀ o, p.held h .active = some o → q.orders.queue = o :: p.orders.queue))) ∧
    (t.leg = .loaded → (p.hoist h).phase = .approach → (q.hoist h).phase = .halted ∧ (q.hoist h).speedRef = 0 ∧
      (q.hoist h).phaseTimer = none ∧
      (q.hoist h).active = some { t with resumePhase := some .approach, haltCause := some .destLost }) ∧
    (t.leg = .loaded → (p.hoist h).phase = .halted →
      q.hoist h = { p.hoist h with active := some { t with haltCause := some .destLost } }) ∧
    (t.leg = .loaded → (p.hoist h).phase = .faulted → q.hoist h = p.hoist h) := by
  have notOpen : (p.bay b).state ≠ .opened := by rw [inbound]; decide
  have barred : ((p.barBay b .foreign).hoist h).active = some t := active
  have legs : t.leg = .empty ∨ t.leg = .loaded := by cases t.leg <;> simp
  rcases legs with leg | leg
  · have notLoaded : t.leg ≠ .loaded := by rw [leg]; decide
    rw [if_neg notLoaded] at reference
    rw [Chip.loseDestination_empty barred leg, Chip.barBay_elevationOf, ← reference] at lost
    exact ⟨fun _ => ⟨fun k found => Chip.destinationReplaced active notOpen found lost,
        fun _ loaded => absurd loaded notLoaded,
        fun noBay _ => Chip.abandonedWithoutBay active (Chip.destinationNotReplaced notOpen noBay lost)⟩,
      fun loaded => absurd loaded notLoaded, fun loaded => absurd loaded notLoaded,
      fun loaded => absurd loaded notLoaded⟩
  · have notEmpty : t.leg ≠ .empty := by rw [leg]; decide
    rw [if_pos leg] at reference
    refine ⟨fun moving => ?_, fun _ approach => ?_, fun _ halted => ?_, fun _ faulted => ?_⟩
    · rw [Chip.loseDestination_travel barred leg (moving.resolve_left notEmpty), Chip.barBay_unit, ← reference] at lost
      refine ⟨fun k found => Chip.destinationReplaced active notOpen found lost, fun noBay _ => ?_,
        fun _ empty => absurd empty notEmpty⟩
      rw [Chip.destinationNotReplaced notOpen noBay lost, Chip.haltHoist_hoist _ _ t _ _ (by simp [Chip.setNoBay, active])]
      simp [Chip.setNoBay]
    · rw [lost, Chip.loseDestination_approach barred leg approach, Chip.haltHoist_hoist _ _ t _ _ barred]
      exact ⟨rfl, rfl, rfl, rfl⟩
    · rw [lost, Chip.loseDestination_halted barred leg halted]
      simp [Chip.updActive, active]
    · rw [lost, Chip.loseDestination_faulted barred leg faulted, Chip.barBay_hoist]

end Sys2Proof.Machine
end

section
/-! SUPPORT. The trip machine and the Bay Table do not read the Sensor Filter Bank (spec/03 R59): an operation in a part with another bank does
the same, and leaves that bank. With this the other lines of a sample instant do not matter to the acceptance on one (R53). -/

namespace Sys2Proof.Machine

/-- The part with another Sensor Filter Bank. -/
def Chip.withSensors (p : Chip) (s : SensorBank) : Chip := { p with sensors := s }

section
variable (p : Chip) (s : SensorBank) (h : HoistId) (slot : Slot) (b : BayId) (m : MassId) (t : Trip)

/-! ### What an operation reads -/

@[simp] theorem Chip.withSensors_mass : (p.withSensors s).mass m = p.mass m := rfl

@[simp] theorem Chip.withSensors_bay : (p.withSensors s).bay b = p.bay b := rfl

@[simp] theorem Chip.withSensors_hoist : (p.withSensors s).hoist h = p.hoist h := rfl

@[simp] theorem Chip.withSensors_unit : (p.withSensors s).unit h = p.unit h := rfl

@[simp] theorem Chip.withSensors_params : (p.withSensors s).params = p.params := rfl

@[simp] theorem Chip.withSensors_power : (p.withSensors s).power = p.power := rfl

@[simp] theorem Chip.withSensors_held : (p.withSensors s).held h slot = p.held h slot := rfl

@[simp] theorem Chip.withSensors_queued : (p.withSensors s).queued m = p.queued m := rfl

@[simp] theorem Chip.withSensors_holdsSource : (p.withSensors s).holdsSource h slot b = p.holdsSource h slot b := rfl

@[simp] theorem Chip.withSensors_holdsDestination :
    (p.withSensors s).holdsDestination h slot b = p.holdsDestination h slot b := rfl

@[simp] theorem Chip.withSensors_elevationOf : (p.withSensors s).elevationOf b = p.elevationOf b := rfl

@[simp] theorem Chip.withSensors_atSource : (p.withSensors s).atSource h t = p.atSource h t := rfl

@[simp] theorem Chip.withSensors_retargetBay (zr : Nat) : (p.withSensors s).retargetBay h zr = p.retargetBay h zr := rfl

@[simp] theorem Chip.withSensors_releaseComplete : (p.withSensors s).releaseComplete h t = p.releaseComplete h t := rfl

@[simp] theorem Chip.withSensors_releaseInProgress (holder : HoistId × Slot) :
    (p.withSensors s).releaseInProgress holder = p.releaseInProgress holder := rfl

/-! ### Plain updates -/

@[simp] theorem Chip.withSensors_updMass (f : MassRecord → MassRecord) :
    (p.withSensors s).updMass m f = (p.updMass m f).withSensors s := rfl

@[simp] theorem Chip.withSensors_updBay (f : BayRecord → BayRecord) :
    (p.withSensors s).updBay b f = (p.updBay b f).withSensors s := rfl

@[simp] theorem Chip.withSensors_updHoist (f : HoistCtl → HoistCtl) :
    (p.withSensors s).updHoist h f = (p.updHoist h f).withSensors s := rfl

@[simp] theorem Chip.withSensors_request : (p.withSensors s).request = p.request.withSensors s := rfl

@[simp] theorem Chip.withSensors_massReleased : (p.withSensors s).massReleased m = (p.massReleased m).withSensors s := rfl

@[simp] theorem Chip.withSensors_massDelivered :
    (p.withSensors s).massDelivered m b = (p.massDelivered m b).withSensors s := rfl

@[simp] theorem Chip.withSensors_barBay (c : BarredCause) : (p.withSensors s).barBay b c = (p.barBay b c).withSensors s := rfl

@[simp] theorem Chip.withSensors_openBay : (p.withSensors s).openBay b = (p.openBay b).withSensors s := rfl

@[simp] theorem Chip.withSensors_occupyBay : (p.withSensors s).occupyBay b m = (p.occupyBay b m).withSensors s := rfl

@[simp] theorem Chip.withSensors_holdDestination :
    (p.withSensors s).holdDestination h slot b = (p.holdDestination h slot b).withSensors s := rfl

@[simp] theorem Chip.withSensors_enterPhase (phase : Phase) :
    (p.withSensors s).enterPhase h phase = (p.enterPhase h phase).withSensors s := rfl

@[simp] theorem Chip.withSensors_updActive (f : Trip → Trip) :
    (p.withSensors s).updActive h f = (p.updActive h f).withSensors s := rfl

@[simp] theorem Chip.withSensors_enterEngage : (p.withSensors s).enterEngage h = (p.enterEngage h).withSensors s := rfl

@[simp] theorem Chip.withSensors_enterTravelEmpty :
    (p.withSensors s).enterTravelEmpty h = (p.enterTravelEmpty h).withSensors s := rfl

@[simp] theorem Chip.withSensors_haltHoist (cause : HaltCause) (resume : Phase) :
    (p.withSensors s).haltHoist h cause resume = (p.haltHoist h cause resume).withSensors s := rfl

@[simp] theorem Chip.withSensors_setNoBay : (p.withSensors s).setNoBay h = (p.setNoBay h).withSensors s := rfl

@[simp] theorem Chip.withSensors_setHeld (o : Option Order) :
    (p.withSensors s).setHeld h slot o = (p.setHeld h slot o).withSensors s := by cases slot <;> rfl

/-! ### Operations that depend on the records -/

@[simp] theorem Chip.withSensors_notifyOrders :
    (p.withSensors s).notifyOrders m = (p.notifyOrders m).withSensors s := by
  unfold Chip.notifyOrders
  rw [Chip.withSensors_queued]
  split <;> rfl

@[simp] theorem Chip.withSensors_massLostFromBay :
    (p.withSensors s).massLostFromBay m = (p.massLostFromBay m).withSensors s := by
  simp [Chip.massLostFromBay]

@[simp] theorem Chip.withSensors_massAbsent : (p.withSensors s).massAbsent m = (p.massAbsent m).withSensors s := by
  cases hold : (p.mass m).weighHold <;> simp [Chip.massAbsent, hold]

@[simp] theorem Chip.withSensors_endHeld (fate : OrderFate) :
    (p.withSensors s).endHeld h slot fate = (p.endHeld h slot fate).withSensors s := by
  cases held : p.held h slot with
  | none => simp [Chip.endHeld, held]
  | some o =>
    simp only [Chip.endHeld, Chip.withSensors_held, held, Chip.withSensors_setHeld]
    cases fate <;> rfl

@[simp] theorem Chip.withSensors_giveUpSource :
    (p.withSensors s).giveUpSource h slot b = (p.giveUpSource h slot b).withSensors s := by
  unfold Chip.giveUpSource
  rw [Chip.withSensors_holdsSource, Chip.withSensors_bay]
  split <;> rfl

@[simp] theorem Chip.withSensors_giveUpDestination :
    (p.withSensors s).giveUpDestination h slot b = (p.giveUpDestination h slot b).withSensors s := by
  unfold Chip.giveUpDestination
  rw [Chip.withSensors_holdsDestination, Chip.withSensors_bay]
  split
  · split <;> rfl
  · rfl

@[simp] theorem Chip.withSensors_barClearedSource :
    (p.withSensors s).barClearedSource h b = (p.barClearedSource h b).withSensors s := by
  unfold Chip.barClearedSource
  rw [Chip.withSensors_holdsSource, Chip.withSensors_bay]
  split <;> rfl

@[simp] theorem Chip.withSensors_moveHold : (p.withSensors s).moveHold h b = (p.moveHold h b).withSensors s := by
  unfold Chip.moveHold
  rw [Chip.withSensors_bay]
  split <;> rfl

@[simp] theorem Chip.withSensors_activate (halt : Option HaltCause) :
    (p.withSensors s).activate h halt = (p.activate h halt).withSensors s := by
  cases active : (p.hoist h).active with
  | none => simp [Chip.activate, active]
  | some t =>
    by_cases halted : (p.hoist h).phase = .halted <;> by_cases near : p.atSource h t = true <;>
      simp [Chip.activate, active, halted, near]

@[simp] theorem Chip.withSensors_promote (halt : Option HaltCause) :
    (p.withSensors s).promote h t halt = (p.promote h t halt).withSensors s := by
  simp [Chip.promote]

@[simp] theorem Chip.withSensors_endActive : (p.withSensors s).endActive h = (p.endActive h).withSensors s := by
  rcases p.endActive_cases h with ⟨faulted, e⟩ | ⟨notFaulted, unstaged, e⟩ | ⟨t, notFaulted, staged, e⟩ <;> rw [e]
  · rw [(p.withSensors s).endActive_of_faulted h faulted]
    simp
  · rw [(p.withSensors s).endActive_of_idle h notFaulted unstaged]
    simp
  · rw [(p.withSensors s).endActive_of_staged h notFaulted t staged]
    simp

@[simp] theorem Chip.withSensors_endEmpty : (p.withSensors s).endEmpty h = (p.endEmpty h).withSensors s := by
  simp [Chip.endEmpty]

@[simp] theorem Chip.withSensors_dropStaged (fate : OrderFate) :
    (p.withSensors s).dropStaged h fate = (p.dropStaged h fate).withSensors s := by
  cases staged : (p.hoist h).staged <;> simp [Chip.dropStaged, staged]

@[simp] theorem Chip.withSensors_abandon (fate : OrderFate) :
    (p.withSensors s).abandon h fate = (p.abandon h fate).withSensors s := by
  by_cases underWay : (p.hoist h).withdrawal ≠ .none
  · simp [Chip.abandon, underWay]
  · by_cases waits : (p.hoist h).waitsForLatch = true
    · simp [Chip.abandon, underWay, waits]
    · cases active : (p.hoist h).active <;> simp [Chip.abandon, Chip.completeAbandon, underWay, waits, active]

@[simp] theorem Chip.withSensors_loseSource :
    (p.withSensors s).loseSource h slot = (p.loseSource h slot).withSensors s := by
  cases slot with
  | staged => cases staged : (p.hoist h).staged <;> simp [Chip.loseSource, staged]
  | active => cases active : (p.hoist h).active <;> simp [Chip.loseSource, active]

@[simp] theorem Chip.withSensors_takeDestination (zr : Nat) (kind : TripKind) :
    (p.withSensors s).takeDestination h t zr b kind = (p.takeDestination h t zr b kind).withSensors s := by
  simp only [Chip.takeDestination, Chip.withSensors_giveUpDestination]
  rfl

@[simp] theorem Chip.withSensors_retargetFrom (zr : Nat) : (p.withSensors s).retargetFrom h t zr =
    (p.retargetFrom h t zr).map fun q => q.withSensors s := by
  cases found : p.retargetBay h zr <;> simp [Chip.retargetFrom, found]

@[simp] theorem Chip.withSensors_loseDestination :
    (p.withSensors s).loseDestination h slot = (p.loseDestination h slot).withSensors s := by
  cases slot with
  | staged => exact p.withSensors_dropStaged s h .returned
  | active =>
    cases active : (p.hoist h).active with
    | none => simp [Chip.loseDestination, active]
    | some t =>
      cases leg : t.leg with
      | empty =>
        cases found : p.retargetFrom h t (p.elevationOf t.source) <;> simp [Chip.loseDestination, active, leg, found]
      | loaded =>
        cases found : p.retargetFrom h t (p.unit h).elevation <;> cases phase : (p.hoist h).phase <;>
          simp [Chip.loseDestination, active, leg, found, phase]

@[simp] theorem Chip.withSensors_releaseTest :
    (p.withSensors s).releaseTest h = (p.releaseTest h).withSensors s := by
  cases active : (p.hoist h).active with
  | none => simp [Chip.releaseTest, active]
  | some t =>
    by_cases complete : p.releaseComplete h t = true
    · simp only [Chip.releaseTest, Chip.withSensors_hoist, active, Chip.withSensors_releaseComplete, complete, if_true,
        Chip.completeRelease, Chip.withSensors_massDelivered, Chip.withSensors_occupyBay,
        Chip.withSensors_barClearedSource]
      split <;> simp
    · simp [Chip.releaseTest, active, complete]

/-- What an acceptance does at a bay does not depend on the Sensor Filter Bank. -/
theorem Chip.withSensors_reconcile (level : Occupancy) :
    (p.withSensors s).reconcile b level = (p.reconcile b level).withSensors s := by
  cases state : (p.bay b).state with
  | unsurveyed | barred => simp [Chip.reconcile, state]
  | opened => cases level <;> simp [Chip.reconcile, state]
  | inbound =>
    cases held : (p.bay b).holder with
    | none => simp [Chip.reconcile, state, held]
    | some holder =>
      cases level <;> cases released : p.releaseInProgress holder <;> simp [Chip.reconcile, state, held, released]
  | occupied =>
    cases occupant : (p.bay b).occupant with
    | none => cases level <;> simp [Chip.reconcile, state, occupant]
    | some m => cases level <;> cases mass : (p.mass m).state <;> simp [Chip.reconcile, state, occupant, mass]
  | outbound =>
    cases occupant : (p.bay b).occupant with
    | none => cases level <;> simp [Chip.reconcile, state, occupant]
    | some m => cases level <;> cases held : (p.bay b).holder <;> simp [Chip.reconcile, state, occupant, held]

end

/-! ### One line accepted as changed among lines that are not (R53, log 14) -/

section
variable {α : Type} [DecidableEq α] (code : Nat) {l : LineFilter α} {level a : α}

theorem LineFilter.judge_of_same (same : l.accepted = some level) : l.judge code level = .nothing := by
  simp [LineFilter.judge, same]

theorem LineFilter.judge_of_change (accepted : l.accepted = some a) (differs : level ≠ a)
    (checked : code = 0 ∨ l.previous = some level) : l.judge code level = .change := by
  simp [LineFilter.judge, accepted, differs, checked]

theorem LineFilter.sampled_of_same (same : l.accepted = some level) :
    l.sampled code level = { l with previous := some level } := by
  simp [LineFilter.sampled, LineFilter.judge_of_same code same]

end

/-- The bank with one bay line sampled. -/
def SensorBank.sampleLine (s : SensorBank) (code : Nat) (levels : BitVec 64) (k : BayId) : SensorBank :=
  { s with bayLines := s.bayLines.set k ((s.bayLines[k]).sampled code (bayLevel levels k)) }

theorem SensorBank.sampleLine_of_ne (s : SensorBank) (code : Nat) (levels : BitVec 64) {j k : BayId} (ne : j ≠ k) :
    (s.sampleLine code levels k).bayLines[j] = s.bayLines[j] := by
  have indexNe : k.val ≠ j.val := fun e => ne (Fin.ext e.symm)
  simp [SensorBank.sampleLine, indexNe]

section
variable {p : Chip} {levels : BitVec 64} {k b : BayId}

/-- A line whose sample is not accepted: the bank alone changes. -/
theorem Chip.sampleBay_of_same (same : (p.sensors.bayLines[k]).accepted = some (bayLevel levels k)) :
    Chip.sampleBay levels p k = p.withSensors (p.sensors.sampleLine p.params.bayFilter levels k) := by
  unfold Chip.sampleBay
  simp only [LineFilter.judge_of_same _ same]
  rfl

/-- Such a sample changes no accepted level. -/
theorem SensorBank.sampleLine_accepted {s : SensorBank} (code : Nat)
    (same : (s.bayLines[k]).accepted = some (bayLevel levels k)) (j : BayId) :
    ((s.sampleLine code levels k).bayLines[j]).accepted = (s.bayLines[j]).accepted := by
  by_cases e : j = k
  · subst e
    have line : (s.sampleLine code levels j).bayLines[j] = (s.bayLines[j]).sampled code (bayLevel levels j) := by
      simp [SensorBank.sampleLine]
    rw [line, LineFilter.sampled_of_same code same]
  · rw [s.sampleLine_of_ne code levels e]

/-- Lines none of whose samples is accepted: the bank alone changes, and in it none of the other lines. -/
theorem Chip.foldl_sampleBay_of_same (l : List BayId) (p : Chip)
    (same : ∀ k ∈ l, (p.sensors.bayLines[k]).accepted = some (bayLevel levels k)) :
    ∃ s, l.foldl (Chip.sampleBay levels) p = p.withSensors s ∧
      (∀ j : BayId, (s.bayLines[j]).accepted = (p.sensors.bayLines[j]).accepted) ∧
      ∀ j : BayId, j ∉ l → s.bayLines[j] = p.sensors.bayLines[j] := by
  induction l generalizing p with
  | nil => exact ⟨p.sensors, rfl, fun _ => rfl, fun _ _ => rfl⟩
  | cons k rest ih =>
    have here := same k List.mem_cons_self
    obtain ⟨first, def_first⟩ : ∃ x, x = p.sensors.sampleLine p.params.bayFilter levels k := ⟨_, rfl⟩
    have accepted : ∀ j : BayId, (first.bayLines[j]).accepted = (p.sensors.bayLines[j]).accepted := fun j => by
      rw [def_first, SensorBank.sampleLine_accepted _ here]
    obtain ⟨s, folded, later, others⟩ := ih (p.withSensors first) fun j isIn =>
      (accepted j).trans (same j (List.mem_cons_of_mem _ isIn))
    refine ⟨s, ?_, fun j => (later j).trans (accepted j), fun j out => ?_⟩
    · rw [List.foldl_cons, Chip.sampleBay_of_same here, ← def_first, folded]
      rfl
    · obtain ⟨ne, outRest⟩ := not_or.mp (mt List.mem_cons.mpr out)
      refine (others j outRest).trans ?_
      show first.bayLines[j] = _
      rw [def_first, SensorBank.sampleLine_of_ne _ _ _ ne]

/-- A line whose sample is accepted as a change: the bay's sensor field takes the level, the change is reconciled, and the event ends. -/
theorem Chip.sampleBay_of_change {a : Occupancy} (accepted : (p.sensors.bayLines[b]).accepted = some a)
    (differs : bayLevel levels b ≠ a)
    (checked : p.params.bayFilter = 0 ∨ (p.sensors.bayLines[b]).previous = some (bayLevel levels b)) :
    Chip.sampleBay levels p b = p.finish
      (((p.updBay b fun r => { r with sensor := some (bayLevel levels b) }).reconcile b (bayLevel levels b)).withSensors
        (p.sensors.sampleLine p.params.bayFilter levels b)) := by
  rw [← Chip.withSensors_reconcile]
  unfold Chip.sampleBay
  simp only [LineFilter.judge_of_change _ accepted differs checked]
  rfl

/-- A sample instant of group BAY at which one line is accepted as changed (R53): the reconciliation at its bay and the end of that event, in a
part in which the bank alone has changed before and changes after. -/
theorem Chip.sampleBays_of_one_change {a : Occupancy} (accepted : (p.sensors.bayLines[b]).accepted = some a)
    (differs : bayLevel levels b ≠ a)
    (checked : p.params.bayFilter = 0 ∨ (p.sensors.bayLines[b]).previous = some (bayLevel levels b))
    (others : ∀ k : BayId, k ≠ b → (p.sensors.bayLines[k]).accepted = some (bayLevel levels k)) :
    ∃ before within after, p.sampleBays levels = ((p.withSensors before).finish
      (((p.updBay b fun r => { r with sensor := some (bayLevel levels b) }).reconcile b (bayLevel levels b)).withSensors
        within)).withSensors after := by
  obtain ⟨l, r, split⟩ := List.append_of_mem (List.mem_finRange b)
  have nodup : (l ++ b :: r).Nodup := split ▸ List.nodup_finRange 64
  obtain ⟨_, nodupAfter, disjoint⟩ := List.nodup_append.mp nodup
  obtain ⟨notAfter, _⟩ := List.nodup_cons.mp nodupAfter
  have notBefore : b ∉ l := fun isIn => disjoint b isIn b List.mem_cons_self rfl
  obtain ⟨group, def_group⟩ : ∃ x, x = { p.sensors with bayGroup := p.sensors.bayGroup.instantTaken } := ⟨_, rfl⟩
  have lines : group.bayLines = p.sensors.bayLines := by rw [def_group]
  obtain ⟨before, foldBefore, acceptedBefore, keptBefore⟩ := Chip.foldl_sampleBay_of_same (levels := levels) l
    (p.withSensors group) fun k isIn => by
      show (group.bayLines[k]).accepted = _
      rw [lines]
      exact others k fun e => notBefore (e ▸ isIn)
  have bankBefore : ∀ k : BayId, (before.bayLines[k]).accepted = (p.sensors.bayLines[k]).accepted := fun k => by
    rw [← lines]
    exact acceptedBefore k
  have line : before.bayLines[b] = p.sensors.bayLines[b] := by
    rw [← lines]
    exact keptBefore b notBefore
  have here := Chip.sampleBay_of_change (p := p.withSensors before) (levels := levels) (b := b) (a := a)
    (by show (before.bayLines[b]).accepted = _; rw [line, accepted]) differs
    (by show _ ∨ (before.bayLines[b]).previous = _; rw [line]; exact checked)
  rw [Chip.withSensors_updBay, Chip.withSensors_reconcile] at here
  obtain ⟨within, def_within⟩ : ∃ x, x = before.sampleLine p.params.bayFilter levels b := ⟨_, rfl⟩
  obtain ⟨after, foldAfter, _⟩ := Chip.foldl_sampleBay_of_same (levels := levels) r (Chip.sampleBay levels
    (p.withSensors before) b) fun k isIn => by
      have ne : k ≠ b := fun e => notAfter (e ▸ isIn)
      rw [here, Chip.finish_sensors]
      show ((before.sampleLine p.params.bayFilter levels b).bayLines[k]).accepted = _
      rw [SensorBank.sampleLine_of_ne _ _ _ ne, bankBefore, others k ne]
  refine ⟨before, within, after, ?_⟩
  have folded : p.sampleBays levels = (l ++ b :: r).foldl (Chip.sampleBay levels) (p.withSensors group) := by
    rw [← split, def_group]
    rfl
  rw [folded, List.foldl_append, foldBefore, List.foldl_cons]
  show r.foldl _ (Chip.sampleBay levels (p.withSensors before) b) = _
  rw [foldAfter, here, def_within]
  rfl

end

end Sys2Proof.Machine
end

section
/-! What a change of accepted level does, as spec/02, section 2.5 has it: the statement, clause by clause. -/

namespace Sys2Proof.Machine

/-- What FILTER_SAMPLE_INSTANT leaves of the tables and the controllers where one bay's line is accepted as changed. -/
theorem acceptance_of_sampleInstant {s : State} {levels : BitVec 64} {b : BayId} {a : Occupancy} {q : Chip}
    (due : s.chip.sampleOpen (.bay levels) = true)
    (accepted : (s.chip.sensors.bayLines[b]).accepted = some a) (differs : bayLevel levels b ≠ a)
    (checked : s.chip.params.bayFilter = 0 ∨ (s.chip.sensors.bayLines[b]).previous = some (bayLevel levels b))
    (others : ∀ k : BayId, k ≠ b → (s.chip.sensors.bayLines[k]).accepted = some (bayLevel levels k))
    (reconciled : q = (s.chip.updBay b fun r => { r with sensor := some (bayLevel levels b) }).reconcile b
      (bayLevel levels b)) :
    ∃ t, exec (.filterSampleInstant (.bay levels)) s = .next t ∧ t.chip.masses = q.masses ∧ t.chip.bays = q.bays ∧
      t.chip.orders = q.orders ∧ ∀ h, t.chip.hoist h = { q.hoist h with
        able := (t.chip.hoist h).able, brake := (t.chip.hoist h).brake, speedRef := (t.chip.hoist h).speedRef } := by
  obtain ⟨before, within, after, sampled⟩ := Chip.sampleBays_of_one_change accepted differs checked others
  rw [← reconciled] at sampled
  obtain ⟨r, def_r⟩ : ∃ r, r = (s.chip.withSensors before).finish (q.withSensors within) := ⟨_, rfl⟩
  rw [← def_r] at sampled
  have hoist : ∀ h, r.hoist h = (q.withSensors within).keptHoist h := fun h => by rw [def_r, Chip.finish_hoist]
  refine ⟨{ s with chip := s.chip.finish (r.withSensors after) }, ?_, ?_, ?_, ?_, fun h => ?_⟩
  · rw [← sampled]
    exact s.event_of _ _ due
  · rw [Chip.finish_masses]
    show r.masses = _
    rw [def_r, Chip.finish_masses]
    rfl
  · rw [Chip.finish_bays]
    show r.bays = _
    rw [def_r, Chip.finish_bays]
    rfl
  · rw [Chip.finish_orders]
    show r.orders = _
    rw [def_r, Chip.finish_orders]
    rfl
  · rw [Chip.finish_hoist]
    unfold Chip.keptHoist
    rw [Chip.withSensors_hoist, hoist h]
    rfl

/-- Settles O57: the reconciliation of a bay by its state, the loss of a source or destination by the trip's slot, leg and phase, and the sample
instant at which one line is accepted as changed. -/
theorem acceptancesAreReconciled : Obligations.AcceptancesAreReconciled := by
  refine ⟨fun p b => ⟨fun state level => Chip.reconcile_of_unheeded state level, fun opened => ?_,
    fun m occupied occupant parked => ?_, fun m occupied occupant retiring => ?_, fun outbound vacant => ?_,
    fun m outbound occupant => ?_, fun holder inbound held notReleased => ?_,
    fun holder level inbound held released => Chip.reconcile_released inbound held released level,
    fun q m h slot t lost outbound occupant held staged active unnamed => ?_,
    fun q h t lost inbound held staged => ?_, fun q h t zr lost inbound held active notRelease reference => ?_⟩, ?_⟩
  · rw [Chip.reconcile_opened opened]
    exact ⟨by simp, by simp, fun k ne => p.barBay_bay_of_ne b k _ ne, p.barBay_unchangedBut b _⟩
  · rw [Chip.reconcile_parked occupied occupant parked]
    obtain ⟨bays, masses⟩ := p.lost_others b m
    exact ⟨by simp, by simp, by simp, by simp, bays, masses, p.lost_unchangedBut b m⟩
  · rw [Chip.reconcile_retiring occupied occupant retiring]
    obtain ⟨bays, masses⟩ := p.takenAway_others b m
    exact ⟨by simp, by simp, by rw [Chip.openBay_mass, p.massAbsent_mass, if_pos rfl], rfl, bays, masses,
      p.takenAway_unchangedBut b m⟩
  · rw [Chip.reconcile_outbound_vacant outbound vacant]
    exact ⟨by simp, by simp, p.openBay_unchangedBut b⟩
  · cases held : (p.bay b).holder with
    | none =>
      rw [Chip.reconcile_outbound_unheld outbound occupant held]
      exact ⟨by simp, by simp, by simp, Chip.unchangedBut_mono (p.lost_unchangedBut b m) (by decide)⟩
    | some holder =>
      rw [Chip.reconcile_outbound_held outbound occupant held]
      obtain ⟨state, cause, _⟩ := Chip.LeavesBarred.after_barBay (p := p) (cause := .lost)
        (Chip.massLostFromBay_bay _ b m) (Chip.LeavesBarred.loseSource (h := holder.1) (slot := holder.2))
      refine ⟨state, cause, ?_, Chip.unchangedBut_trans
        (Chip.unchangedBut_mono (p.lost_unchangedBut b m) (by decide)) (Chip.TripFrame.loseSource holder.2).unchangedBut⟩
      unfold Chip.mass
      rw [Chip.loseSource_masses]
      exact congrArg MassRecord.state (Chip.massLostFromBay_mass_self _ m)
  · rw [Chip.reconcile_inbound_occupied inbound held notReleased]
    obtain ⟨state, cause, free, _⟩ := Chip.LeavesBarred.after_barBay (p := p) (b := b) (cause := .foreign) rfl
      (Chip.LeavesBarred.loseDestination (h := holder.1) (slot := holder.2))
    exact ⟨Chip.reconcile_inbound_empty inbound held notReleased, state, cause, free, Chip.unchangedBut_trans
      (Chip.unchangedBut_mono (p.barBay_unchangedBut b _) (by decide))
      (Chip.TripFrame.loseDestination holder.2).unchangedBut⟩
  · rw [Chip.reconcile_outbound_held outbound occupant held] at lost
    exact Chip.sourceLost lost outbound staged active unnamed
  · rw [Chip.reconcile_inbound_occupied inbound held (by simp [Chip.releaseInProgress])] at lost
    exact Chip.stagedDestinationLost lost inbound staged
  · rw [Chip.reconcile_inbound_occupied inbound held (by simp [Chip.releaseInProgress, notRelease])] at lost
    exact ⟨p.retargetRule_retargetBay h zr, Chip.activeDestinationLost lost inbound active reference⟩
  · rintro s levels b level a q _ due rfl accepted differs checked others reconciled
    exact acceptance_of_sampleInstant due accepted differs checked others reconciled

end Sys2Proof.Machine
end

section
/-! SUPPORT. Every operation keeps the bay records' shape (spec/02 R25, R26) and their sensor fields (R27): one lemma for each operation of the
part, composed along the operation. -/

namespace Sys2Proof.Machine

/-! ### The bays of a trip to be staged (spec/06, R129 to R131) -/

theorem firstBy_mem {α : Type} (before : α → α → Bool) (l : List α) (a : α) (first : firstBy before l = some a) : a ∈ l := by
  induction l generalizing a with
  | nil => exact absurd first (by simp [firstBy])
  | cons x rest ih =>
    rw [firstBy] at first
    split at first
    · exact Option.some.inj first ▸ List.mem_cons_self
    · rename_i found
      split at first
      · exact List.mem_cons_of_mem _ (ih _ (found.trans first))
      · exact Option.some.inj first ▸ List.mem_cons_self

/-- An order is chosen from an OCCUPIED bay to an OPEN one (R129). -/
theorem Chip.directedChoice_bays {p : Chip} {h : HoistId} {o : Order} {source : BayId}
    (chosen : p.directedChoice h = some (o, source)) :
    (p.bay source).state = .occupied ∧ (p.bay o.destination).state = .opened := by
  unfold Chip.directedChoice at chosen
  split at chosen
  · exact absurd chosen (by simp)
  · rename_i o' found
    obtain ⟨b, inBay, e⟩ := Option.map_eq_some_iff.mp chosen
    obtain ⟨rfl, rfl⟩ := Prod.mk.inj e
    have fits := List.find?_some found
    simp only [Chip.orderFits, inBay, Bool.and_eq_true, decide_eq_true_eq] at fits
    obtain ⟨⟨⟨⟨_, occupied⟩, _⟩, opened, _⟩, _⟩ := fits
    exact ⟨occupied, opened⟩

/-- A load is chosen from an OCCUPIED bay (R130). -/
theorem Chip.loadBays_occupied {p : Chip} {h : HoistId} {m : MassId} {b : BayId} (listed : (m, b) ∈ p.loadBays h) :
    (p.bay b).state = .occupied := by
  obtain ⟨m', candidate, e⟩ := List.mem_filterMap.mp listed
  obtain ⟨b', inBay, e⟩ := Option.map_eq_some_iff.mp e
  obtain ⟨rfl, rfl⟩ := Prod.mk.inj e
  have loads := (List.mem_filter.mp candidate).2
  simp only [Chip.candidateLoad, inBay, Bool.and_eq_true, decide_eq_true_eq] at loads
  obtain ⟨_, ⟨occupied, _⟩, _⟩ := loads
  exact occupied

/-- An automatic trip is chosen from an OCCUPIED bay to an OPEN one (R130, R131). -/
theorem Chip.automaticIn_bays {p : Chip} {h : HoistId} {charging : Bool} {t : Trip}
    (chosen : p.automaticIn h charging = some t) :
    (p.bay t.source).state = .occupied ∧ (p.bay t.destination).state = .opened := by
  unfold Chip.automaticIn at chosen
  split at chosen
  · rename_i m source destination load place
    simp only [Option.ite_none_right_eq_some, Option.some.injEq] at chosen
    obtain ⟨_, rfl⟩ := chosen
    have candidate := (List.mem_filter.mp (firstBy_mem _ _ _ place)).2
    simp only [Chip.candidateDestination, Bool.and_eq_true, decide_eq_true_eq] at candidate
    obtain ⟨⟨opened, _⟩, _⟩ := candidate
    exact ⟨Chip.loadBays_occupied (firstBy_mem _ _ _ load), opened⟩
  · exact absurd chosen (by simp)

theorem Chip.automaticChoice_bays {p : Chip} {h : HoistId} {t : Trip} (chosen : p.automaticChoice h = some t) :
    (p.bay t.source).state = .occupied ∧ (p.bay t.destination).state = .opened := by
  unfold Chip.automaticChoice at chosen
  split at chosen
  · exact Chip.automaticIn_bays chosen
  · exact Chip.automaticIn_bays chosen
  · exact absurd chosen (by simp)

/-! ### What every step keeps of the bays -/

/-- What every step keeps of the bays, from `p` to `q`: the shape of all records, and that each sensor field is its line's accepted level. -/
structure Chip.KeepsBays (p q : Chip) : Prop where
  shape : (∀ b, (p.bay b).Shape) → ∀ b, (q.bay b).Shape
  sensors : p.SensorsAgree → q.SensorsAgree

namespace Chip.KeepsBays

variable {p q r : Chip} {h : HoistId} {slot : Slot}

theorem of_same (bays : q.bays = p.bays) (lines : q.sensors.bayLines = p.sensors.bayLines) : KeepsBays p q := by
  have bay : ∀ b, q.bay b = p.bay b := fun b => by unfold Chip.bay; rw [bays]
  exact ⟨fun shape b => by rw [bay]; exact shape b, fun agree b => by rw [bay]; simpa only [lines] using agree b⟩

theorem of_frame {parts : List Part} (frame : p.unchangedBut q parts) (bays : .bays ∉ parts) (sensors : .sensors ∉ parts) :
    KeepsBays p q := of_same (frame .bays bays) (congrArg SensorBank.bayLines (frame .sensors sensors))

theorem refl (p : Chip) : KeepsBays p p := of_same rfl rfl

theorem trans (first : KeepsBays p q) (second : KeepsBays q r) : KeepsBays p r :=
  ⟨fun shape => second.shape (first.shape shape), fun agree => second.sensors (first.sensors agree)⟩

theorem foldl {α : Type} (f : Chip → α → Chip) (each : ∀ q x, KeepsBays q (f q x)) (l : List α) :
    KeepsBays p (l.foldl f p) := by
  induction l generalizing p with
  | nil => exact refl p
  | cons x _ ih => exact (each p x).trans ih

/-! ### Updates of one record -/

theorem updMass (m : MassId) (f : MassRecord → MassRecord) : KeepsBays p (p.updMass m f) := of_same rfl rfl

theorem updHoist (f : HoistCtl → HoistCtl) : KeepsBays p (p.updHoist h f) := of_same rfl rfl

theorem updUnit (f : PositionUnit → PositionUnit) : KeepsBays p (p.updUnit h f) := of_same rfl rfl

theorem updLink (f : LinkPort → LinkPort) : KeepsBays p (p.updLink h f) := of_same rfl rfl

theorem request : KeepsBays p p.request := of_same rfl rfl

theorem orders (o : OrderQueue) : KeepsBays p { p with orders := o } := of_same rfl rfl

/-- A change of one bay record that keeps its shape and its sensor field. -/
theorem updBay (b : BayId) (f : BayRecord → BayRecord) (shape : (p.bay b).Shape → (f (p.bay b)).Shape)
    (sensor : (f (p.bay b)).sensor = (p.bay b).sensor) : KeepsBays p (p.updBay b f) where
  shape all k := by
    rw [Chip.updBay_bay]
    split
    · exact shape (all b)
    · exact all k
  sensors agree k := by
    rw [Chip.updBay_bay]
    split
    · rename_i e
      subst e
      exact sensor.trans (agree k)
    · exact agree k

/-! ### Bays entered, held and given up (spec/02, R33 to R35) -/

theorem openBay (b : BayId) : KeepsBays p (p.openBay b) :=
  (updBay b _ (fun _ => ⟨by simp, by simp, by simp⟩) rfl).trans request

theorem barBay (b : BayId) (c : BarredCause) : KeepsBays p (p.barBay b c) :=
  updBay b _ (fun _ => ⟨by simp, by simp, by simp⟩) rfl

theorem occupyBay (b : BayId) (m : MassId) : KeepsBays p (p.occupyBay b m) :=
  updBay b _ (fun _ => ⟨by simp, by simp, by simp⟩) rfl

/-- A bay in a state other than BARRED has no barred cause. -/
theorem cause_none {x : BayRecord} (shape : x.Shape) (notBarred : x.state ≠ .barred) : x.cause = none := by
  simpa [notBarred] using shape.cause

theorem holdSource (b : BayId) (occupied : (p.bay b).state = .occupied) : KeepsBays p (p.holdSource h slot b) :=
  updBay b _ (fun shape => ⟨by simp [cause_none shape (by simp [occupied])], by simp, by simp⟩) rfl

theorem holdDestination (b : BayId) (opened : (p.bay b).state = .opened) : KeepsBays p (p.holdDestination h slot b) :=
  updBay b _ (fun shape => ⟨by simp [cause_none shape (by simp [opened])], by simp, by simp⟩) rfl

theorem giveUpSource (b : BayId) : KeepsBays p (p.giveUpSource h slot b) := by
  unfold Chip.giveUpSource
  split
  · rename_i held
    rw [Bool.and_eq_true, Chip.holdsSource_iff] at held
    exact updBay b _ (fun shape => ⟨by simp [cause_none shape (by simp [held.1.1])], by simp, by simp⟩) rfl
  · exact refl p

theorem giveUpDestination (b : BayId) : KeepsBays p (p.giveUpDestination h slot b) := by
  unfold Chip.giveUpDestination
  split
  · split
    · exact barBay b _
    · exact openBay b
  · exact refl p

theorem barClearedSource (b : BayId) : KeepsBays p (p.barClearedSource h b) := by
  unfold Chip.barClearedSource
  split
  · exact barBay b _
  · exact refl p

theorem moveHold (b : BayId) : KeepsBays p (p.moveHold h b) := by
  unfold Chip.moveHold
  split
  · rename_i held
    exact updBay b _ (fun shape => ⟨shape.cause, by simpa [held] using shape.holder, shape.occupant⟩) rfl
  · exact refl p

/-! ### Orders and masses (spec/01 R3, R4, spec/06 R121) -/

theorem setHeld (k : HoistId) (o : Option Order) : KeepsBays p (p.setHeld k slot o) :=
  of_same (p.setHeld_bays k slot o) (by rw [p.setHeld_sensors k slot o])

theorem endHeld (fate : OrderFate) : KeepsBays p (p.endHeld h slot fate) :=
  of_same (p.endHeld_bays h slot fate) (by rw [(Chip.TripFrame.endHeld (h := h) h slot fate).sensors])

theorem massReleased (m : MassId) : KeepsBays p (p.massReleased m) := of_same rfl rfl

theorem massLostFromBay (m : MassId) : KeepsBays p (p.massLostFromBay m) :=
  of_frame (p.massLostFromBay_unchangedBut m) (by decide) (by decide)

theorem massLostAboard (m : MassId) : KeepsBays p (p.massLostAboard m) :=
  of_frame (p.updMass_notifyOrders_unchangedBut m _) (by decide) (by decide)

theorem massAbsent (m : MassId) : KeepsBays p (p.massAbsent m) :=
  of_frame (p.massAbsent_unchangedBut m) (by decide) (by decide)

/-! ### The trip machine (spec/05) -/

theorem enterPhase (phase : Phase) : KeepsBays p (p.enterPhase h phase) := updHoist _

theorem updActive (f : Trip → Trip) : KeepsBays p (p.updActive h f) := updHoist _

theorem haltHoist (cause : HaltCause) (resume : Phase) : KeepsBays p (p.haltHoist h cause resume) := of_same rfl rfl

theorem activate (halt : Option HaltCause) : KeepsBays p (p.activate h halt) :=
  of_frame (p.activate_unchangedBut h halt) (by decide) (by decide)

theorem promote (t : Trip) (halt : Option HaltCause) : KeepsBays p (p.promote h t halt) :=
  (((((updHoist _).trans (moveHold t.source)).trans (moveHold t.destination)).trans (setHeld h _)).trans
    (setHeld h none)).trans (activate halt)

theorem endActive : KeepsBays p (p.endActive h) := by
  rcases p.endActive_cases h with ⟨_, e⟩ | ⟨_, _, e⟩ | ⟨t, _, _, e⟩ <;> rw [e]
  · exact updHoist _
  · exact (updHoist _).trans (enterPhase _)
  · exact (updHoist _).trans (promote t _)

theorem dropStaged (fate : OrderFate) : KeepsBays p (p.dropStaged h fate) := by
  unfold Chip.dropStaged
  split
  · exact refl p
  · exact ((((updHoist _).trans (massReleased _)).trans (giveUpSource _)).trans (giveUpDestination _)).trans (endHeld _)

theorem endEmpty : KeepsBays p (p.endEmpty h) := (updHoist _).trans endActive

theorem completeAbandon (fate : OrderFate) (mismatch : Bool) : KeepsBays p (p.completeAbandon h fate mismatch) := by
  unfold Chip.completeAbandon
  split
  · exact refl p
  · rename_i t _
    have returned : KeepsBays p (if mismatch then p.massMismatched t.mass t.measured else p.massReleased t.mass) := by
      split <;> exact of_same rfl rfl
    exact (((returned.trans (giveUpSource _)).trans (giveUpDestination _)).trans (endHeld _)).trans endEmpty

theorem abandon (fate : OrderFate) : KeepsBays p (p.abandon h fate) := by
  unfold Chip.abandon
  simp only
  split
  · exact refl p
  · split
    · exact updHoist _
    · exact completeAbandon fate false

theorem completeWithdrawal : KeepsBays p (p.completeWithdrawal h) := by
  unfold Chip.completeWithdrawal
  split
  · exact refl p
  · exact completeAbandon _ _
  · exact completeAbandon _ _

theorem loseSource : KeepsBays p (p.loseSource h slot) := by
  unfold Chip.loseSource
  split
  · split
    · exact refl p
    · exact ((updHoist _).trans (giveUpDestination _)).trans (endHeld _)
  · split
    · exact refl p
    · exact ((giveUpDestination _).trans (endHeld _)).trans endEmpty

/-- A new destination is OPEN, so that giving up the old one leaves it as it is (R106). -/
theorem takeDestination (t : Trip) (zr : Nat) (b : BayId) (kind : TripKind) (opened : (p.bay b).state = .opened) :
    KeepsBays p (p.takeDestination h t zr b kind) := by
  have still : ((p.giveUpDestination h .active t.destination).bay b).state = .opened := by
    rw [p.giveUpDestination_bay_of_notInbound h _ b .active (by simp [opened]), opened]
  unfold Chip.takeDestination
  exact (((giveUpDestination _).trans (holdDestination b still)).trans (updActive _)).trans (updHoist _)

theorem retargetFrom (t : Trip) (zr : Nat) (taken : p.retargetFrom h t zr = some q) : KeepsBays p q := by
  obtain ⟨b, picked, rfl⟩ := Option.map_eq_some_iff.mp taken
  exact takeDestination t zr b _ (p.retargetBay_opened h b picked)

theorem loseDestination : KeepsBays p (p.loseDestination h slot) := by
  unfold Chip.loseDestination
  split
  · exact dropStaged _
  · split
    · exact refl p
    · split
      · split
        · rename_i taken
          exact retargetFrom _ _ taken
        · exact (updHoist _).trans (abandon _)
      · split
        case h_3 => exact haltHoist _ _
        case h_4 => exact updHoist _
        case h_1 | h_2 =>
          split
          · rename_i taken
            exact retargetFrom _ _ taken
          · exact (updHoist _).trans (haltHoist _ _)
        all_goals exact refl p

theorem takeFault (cause : FaultCause) (detail : Option Nat) : KeepsBays p (p.takeFault h cause detail) := by
  unfold Chip.takeFault
  simp only
  split
  · exact updHoist _
  · exact ((((dropStaged _).trans (enterPhase _)).trans (updHoist _)).trans (updHoist _)).trans (updHoist _)

theorem takePositionFault (cause : FaultCause) (detail : Option Nat) :
    KeepsBays p (p.takePositionFault h cause detail) := (updUnit _).trans (takeFault cause detail)

theorem emptySource (b : BayId) : KeepsBays p (p.emptySource b) :=
  updBay b _ (fun shape => ⟨shape.cause, shape.holder, by simp⟩) rfl

theorem engageTest : KeepsBays p (p.engageTest h) := by
  unfold Chip.engageTest
  split
  · exact refl p
  · split
    · exact refl p
    · split
      · exact ((((updMass _ _).trans (emptySource _)).trans (setHeld h none)).trans (enterPhase _)).trans (updActive _)
      · exact (updActive _).trans (updHoist _)

theorem completeRelease (t : Trip) : KeepsBays p (p.completeRelease h t) := by
  unfold Chip.completeRelease
  simp only
  have delivered : KeepsBays p (((p.massDelivered t.mass t.destination).occupyBay t.destination t.mass).barClearedSource h
      t.source) := ((of_same rfl rfl : KeepsBays p (p.massDelivered t.mass t.destination)).trans
        (occupyBay _ _)).trans (barClearedSource _)
  split
  · exact ((delivered.trans (updHoist _)).trans (dropStaged _)).trans endActive
  · exact delivered.trans endActive

theorem releaseTest : KeepsBays p (p.releaseTest h) := by
  unfold Chip.releaseTest
  split
  · exact refl p
  · split
    · exact completeRelease _
    · exact refl p

theorem completionTest : KeepsBays p (p.completionTest h) := by
  unfold Chip.completionTest
  split
  · exact engageTest
  · exact releaseTest
  · exact refl p

/-! ### Links, motion and timers (spec/05, spec/07, spec/08) -/

theorem closeSegment : KeepsBays p (p.closeSegment h) := by
  unfold Chip.closeSegment
  simp only
  split
  · exact (updLink _).trans (takeFault _ _)
  · exact updLink _

theorem driveChecks (r : DriveReply) : KeepsBays p (p.driveChecks h r) := by
  unfold Chip.driveChecks
  split
  · exact takeFault _ _
  · split
    · exact takeFault _ _
    · exact refl p

theorem takeReply (r : DriveReply) : KeepsBays p (p.takeReply h r) := by
  unfold Chip.takeReply
  simp only
  split
  · exact refl _
  · split
    · exact updLink _
    · exact (updLink _).trans (((driveChecks _).trans (updHoist _)).trans completionTest)

theorem clearReply : KeepsBays p (p.clearReply h) := updLink _

theorem completeReply (byte : Byte) : KeepsBays p (p.completeReply h byte) := by
  unfold Chip.completeReply
  split
  · exact clearReply.trans (takeReply _)
  · exact clearReply.trans (updLink _)

theorem checkMarkers (zBefore : Nat) : KeepsBays p (p.checkMarkers h zBefore) := by
  unfold Chip.checkMarkers
  simp only
  split
  · split
    · exact (updUnit _).trans (takePositionFault _ _)
    · exact updUnit _
  · exact refl p

theorem overspeedCheck : KeepsBays p (p.overspeedCheck h) := by
  unfold Chip.overspeedCheck
  extract_lets
  split
  · exact (updHoist _).trans (takeFault _ _)
  · exact updHoist _

theorem clearHeightCheck : KeepsBays p (p.clearHeightCheck h) := by
  unfold Chip.clearHeightCheck
  split
  · exact refl p
  · split
    · exact barBay _ _
    · exact refl p

theorem approachTest (t : Trip) : KeepsBays p (p.approachTest h t) := by
  unfold Chip.approachTest
  split
  · split <;> exact of_same rfl rfl
  · exact refl p

theorem phaseTest (previous : Int) : KeepsBays p (p.phaseTest h previous) := by
  unfold Chip.phaseTest
  split
  · exact refl p
  · split
    · unfold Chip.travelTest
      split
      · exact (of_same rfl rfl : KeepsBays p (p.enterApproach h)).trans (approachTest _)
      · split
        · exact of_same rfl rfl
        · exact refl p
    · exact approachTest _
    · split
      · exact enterPhase _
      · exact refl p
    · exact refl p

theorem closeIfOpen : KeepsBays p (p.closeIfOpen h) := by
  unfold Chip.closeIfOpen
  split
  · exact updLink _
  · exact closeSegment

theorem sendReference (previous : Int) : KeepsBays p (p.sendReference h previous) := of_same rfl rfl

theorem segment : KeepsBays p (p.segment h) :=
  ((((((updHoist _).trans closeIfOpen).trans ((updUnit _).trans (checkMarkers _))).trans overspeedCheck).trans
    clearHeightCheck).trans (phaseTest _)).trans (sendReference _)

theorem expirePhaseTimer : KeepsBays p (p.expirePhaseTimer h) := by
  unfold Chip.expirePhaseTimer
  split
  · exact takeFault _ _
  · exact updHoist _

theorem expireDwell : KeepsBays p (p.expireDwell h) := by
  unfold Chip.expireDwell
  split
  · exact updHoist _
  · split
    · rename_i taken
      split
      · exact (retargetFrom _ _ taken).trans (enterPhase _)
      · exact (retargetFrom _ _ taken).trans (updHoist _)
    · exact (updHoist _).trans (updHoist _)

/-! ### The Position Unit (spec/04) -/

theorem takePulse : KeepsBays p (p.takePulse h) := by
  unfold Chip.takePulse
  simp only
  split
  · exact of_same rfl rfl
  · split
    case h_4 => exact (updUnit _).trans (takePositionFault _ _)
    all_goals exact of_same rfl rfl

theorem encoderEdge (levels : Channels) : KeepsBays p (p.encoderEdge h levels) := by
  unfold Chip.encoderEdge
  simp only
  split
  · exact (updUnit _).trans (takePositionFault _ _)
  · exact updUnit _

/-! ### The sensors (spec/02, section 2.5; spec/03) -/

theorem reconcile (b : BayId) (level : Occupancy) : KeepsBays p (p.reconcile b level) := by
  have lost : ∀ m, KeepsBays p ((p.barBay b .lost).massLostFromBay m) := fun m => (barBay b _).trans (massLostFromBay m)
  unfold Chip.reconcile
  simp only
  split
  case h_3 => exact barBay b _
  case h_5 =>
    split
    · exact refl p
    · split
      · exact releaseTest
      · split
        · exact (barBay b _).trans loseDestination
        · exact refl p
  case h_6 =>
    split
    · exact refl p
    · split
      · exact (massAbsent _).trans (openBay b)
      · exact lost _
  case h_7 =>
    split
    · exact openBay b
    · split
      · exact lost _
      · exact (lost _).trans loseSource
  all_goals exact refl p

theorem actOnLatch (level : Latch) : KeepsBays p (p.actOnLatch h level) := by
  unfold Chip.actOnLatch
  simp only
  split
  · exact completionTest
  · split
    · exact completeWithdrawal
    · split
      · exact takeFault _ _
      · exact completionTest

theorem finish {before : Chip} : KeepsBays p (Chip.finish before p) := of_same (Chip.finish_bays _ _) (by rw [Chip.finish_sensors])

theorem reply (a : Answer) : KeepsBays p (p.reply a) := of_same (p.reply_bays a) (by rw [p.reply_sensors a])

/-- A line's filter and its bay's sensor field take the accepted level together (R27, R52). -/
theorem recordLevel (b : BayId) (l : LineFilter Occupancy) (level : Occupancy) (accepted : l.accepted = some level) :
    KeepsBays p ({ p with sensors := { p.sensors with bayLines := p.sensors.bayLines.set b l } }.updBay b fun r =>
      { r with sensor := some level }) where
  shape all k := by
    rw [Chip.updBay_bay]
    split
    · exact ⟨(all b).cause, (all b).holder, (all b).occupant⟩
    · exact all k
  sensors agree k := by
    rw [Chip.updBay_bay]
    split
    · rename_i e
      simp [e, accepted]
    · rename_i ne
      have apart : b.val ≠ k.val := fun e => ne (Fin.ext e.symm)
      exact (agree k).trans (by simp [apart])

/-- A sample that is not accepted leaves the line's accepted level (R53). -/
theorem recordSample (b : BayId) (l : LineFilter Occupancy) (same : l.accepted = (p.sensors.bayLines[b]).accepted) :
    KeepsBays p { p with sensors := { p.sensors with bayLines := p.sensors.bayLines.set b l } } where
  shape all := all
  sensors agree k := by
    refine (agree k).trans ?_
    by_cases e : b = k
    · subst e
      simp [same]
    · have apart : b.val ≠ k.val := fun same => e (Fin.ext same)
      simp [apart]

theorem sampleBay (levels : BitVec 64) (b : BayId) : KeepsBays p (Chip.sampleBay levels p b) := by
  unfold Chip.sampleBay
  simp only
  split
  · rename_i judged
    exact recordSample b _ (by rw [LineFilter.sampled, judged])
  · rename_i judged
    exact recordLevel b _ _ (by rw [LineFilter.sampled, judged])
  · rename_i judged
    exact ((recordLevel b _ _ (by rw [LineFilter.sampled, judged])).trans (reconcile b _)).trans finish

theorem sampleLatch (levels : BitVec 4) (k : HoistId) : KeepsBays p (Chip.sampleLatch levels p k) := by
  unfold Chip.sampleLatch
  simp only
  have recorded : ∀ (l : LineFilter Latch) level, KeepsBays p
      ({ p with sensors := { p.sensors with latchLines := p.sensors.latchLines.set k l } }.updHoist k fun c =>
        { c with latchLevel := some level }) := fun _ _ => of_same rfl rfl
  split
  · exact of_same rfl rfl
  · exact recorded _ _
  · exact ((recorded _ _).trans (actOnLatch _)).trans finish

theorem sampleBays (levels : BitVec 64) : KeepsBays p (p.sampleBays levels) := by
  unfold Chip.sampleBays
  refine trans ?_ (foldl _ (fun _ => sampleBay levels) _)
  exact of_same rfl rfl

theorem sampleLatches (levels : BitVec 4) : KeepsBays p (p.sampleLatches levels) := by
  unfold Chip.sampleLatches
  refine trans ?_ (foldl _ (fun _ => sampleLatch levels) _)
  exact of_same rfl rfl

theorem sampleInstant (sample : GroupSample) : KeepsBays p (p.sampleInstant sample) := by
  cases sample with
  | bay levels => exact sampleBays levels
  | latch levels => exact sampleLatches levels

theorem interlockHalt : KeepsBays p (p.interlockHalt h) := by
  unfold Chip.interlockHalt
  simp only
  split
  · exact (updHoist _).trans (haltHoist _ _)
  · exact updHoist _

/-- The qualifier and the groups' counts are no line's accepted level. -/
theorem millisecondMark (line : Interlock) : KeepsBays p (p.millisecondMark line) := by
  refine of_same rfl ?_
  unfold Chip.millisecondMark SensorBank.sampleInterlock
  cases p.sensors.qualifier <;> cases line <;> rfl

/-! ### The Trip Selector (spec/06) -/

/-- A trip is staged from an OCCUPIED source to an OPEN destination (R129, R130). -/
theorem stage (t : Trip) (o : Option Order) (source : (p.bay t.source).state = .occupied)
    (destination : (p.bay t.destination).state = .opened) : KeepsBays p (p.stage h t o) := by
  have apart : t.destination ≠ t.source := fun e => by
    rw [e, source] at destination
    exact absurd destination (by decide)
  have held : ∀ (q : Chip) slot, q.bays = p.bays → KeepsBays q ((q.holdSource h slot t.source).holdDestination h slot
      t.destination) := fun q slot bays => by
    have bay : ∀ b, q.bay b = p.bay b := fun b => by unfold Chip.bay; rw [bays]
    refine (holdSource t.source (by rw [bay, source])).trans (holdDestination t.destination ?_)
    rw [Chip.holdSource, Chip.updBay_bay_of_ne _ _ _ _ apart, bay, destination]
  have kept : ∀ (q : Chip) (slot : Slot), KeepsBays q (match o with
      | some _ => q.setHeld h slot o
      | none => q) := fun q slot => by
    split
    · exact setHeld h _
    · exact refl q
  have assigned : KeepsBays p ({ p with selector := { p.selector with pointer := h } }.massAssigned t.mass) := of_same rfl rfl
  have staged := fun slot => (assigned.trans (held _ slot rfl)).trans (kept _ slot)
  unfold Chip.stage
  simp only
  split
  · exact (((staged _).trans (updHoist _)).trans (activate _)).trans request
  · exact (staged _).trans (updHoist _)

theorem tryFor : KeepsBays p (p.tryFor h) := by
  unfold Chip.tryFor
  split
  · rename_i o source chosen
    obtain ⟨occupied, opened⟩ := Chip.directedChoice_bays chosen
    exact (orders _).trans (stage _ _ occupied opened)
  · split
    · rename_i t chosen
      obtain ⟨occupied, opened⟩ := Chip.automaticChoice_bays chosen
      exact stage _ _ occupied opened
    · exact refl p

theorem nextTry : KeepsBays p p.nextTry := by
  unfold Chip.nextTry
  split
  · exact refl p
  · simp only
    split
    · refine trans ?_ tryFor
      exact of_same rfl rfl
    · exact of_same rfl rfl

/-! ### The Power Allocator and the parameters (spec/07, spec/10) -/

theorem setSetpoint (x : Int) : KeepsBays p (p.setSetpoint x) := by
  unfold Chip.setSetpoint
  simp only
  split <;> exact of_same rfl rfl

theorem setPower (kW : Int) : KeepsBays p (Machine.setPower kW p).1 := setSetpoint _

theorem reevaluate : KeepsBays p (p.reevaluate h) := by
  unfold Chip.reevaluate
  simp only
  split <;> exact of_same rfl rfl

theorem endOtherKind (m : PlantMode) : KeepsBays p (p.endOtherKind h m) := by
  have staged : KeepsBays p (match (p.hoist h).staged with
      | some t => if t.ofAnotherKind m then p.dropStaged h .returned else p
      | none => p) := by
    split
    · split
      · exact dropStaged _
      · exact refl p
    · exact refl p
  unfold Chip.endOtherKind
  extract_lets q
  split
  · split
    · exact staged.trans (abandon _)
    · exact staged
  · exact staged

theorem takeModeRequest : KeepsBays p (p.takeModeRequest h) := by
  unfold Chip.takeModeRequest
  split
  · exact refl p
  · refine trans ?_ (endOtherKind _)
    exact of_same rfl rfl

/-- A restart of the group BAY forgets the previous samples only (R56). -/
theorem restartBayGroup : KeepsBays p p.restartBayGroup :=
  ⟨id, fun agree b => (agree b).trans (by simp [Chip.restartBayGroup, LineFilter.forget])⟩

theorem setPlant (x : PlantParam) (v : Nat) : KeepsBays p (p.setPlant x v) := by
  unfold Chip.setPlant
  split
  · exact refl p
  · refine (of_same rfl rfl : KeepsBays p { p with params := p.params.set x v }).trans ?_
    unfold Chip.afterPlantChange
    split
    · exact restartBayGroup
    · exact of_same rfl rfl
    · simp only
      split
      · exact refl _
      · exact setSetpoint _
    · exact refl _

theorem setHoistParam (x : HoistParam) (v : Nat) : KeepsBays p (p.setHoistParam h x v) := by
  unfold Chip.setHoistParam
  simp only
  split <;> split <;> exact of_same rfl rfl

/-! ### The Plant Link Port and RESTART (spec/10) -/

theorem port (q : PlantPort) : KeepsBays p { p with port := q } := of_same rfl rfl

theorem takeFrame (f : Frame) : KeepsBays p (p.takeFrame f) := by
  unfold Chip.takeFrame
  simp only
  split
  · exact (port _).trans (reply _)
  · exact port _

theorem completeFrame (byte : Byte) : KeepsBays p (p.completeFrame byte) := by
  unfold Chip.completeFrame Chip.placeFrame
  simp only
  split
  · split
    · exact (port _).trans (takeFrame _)
    · exact port _
    · exact port _
  · exact port _

theorem settleGap : KeepsBays p p.settleGap := by
  unfold Chip.settleGap
  split
  · exact port _
  · exact refl p

theorem receiveByte (byte : Byte) : KeepsBays p (p.receiveByte byte) := by
  unfold Chip.receiveByte
  split
  · exact refl p
  · exact port _

theorem endReply : KeepsBays p p.endReply := by
  unfold Chip.endReply
  simp only
  split
  · exact (port _).trans (takeFrame _)
  · exact port _

theorem answerRestart : KeepsBays p p.answerRestart := by
  unfold Chip.answerRestart
  split
  · exact refl p
  · split
    · exact (port _).trans (reply _)
    · exact refl p

theorem restartLoaded : KeepsBays p (p.restartLoaded h) := by
  unfold Chip.restartLoaded
  split
  case h_5 => exact updActive _
  case h_1 | h_2 | h_3 | h_4 => exact haltHoist _ _
  all_goals exact refl p

theorem restartTrips : KeepsBays p (p.restartTrips h) := by
  unfold Chip.restartTrips
  simp only
  split
  · exact dropStaged _
  · split
    · exact ((dropStaged _).trans (abandon _)).trans (updHoist _)
    · exact (dropStaged _).trans restartLoaded

theorem restartHoist : KeepsBays p (p.restartHoist h) := (restartTrips.trans (updHoist _)).trans (port _)

/-! ### The commands -/

theorem survey (b : BayId) (elevation : Nat) (access : BitVec 4) (service : Bool) :
    KeepsBays p (p.survey b elevation access service) := by
  have fields : KeepsBays p (p.updBay b fun r =>
      { r with elevation := some elevation, access := some access, service := some service }) :=
    updBay b _ (fun shape => ⟨shape.cause, shape.holder, shape.occupant⟩) rfl
  unfold Chip.survey
  extract_lets before q q'
  refine trans ?_ (foldl _ (fun _ _ => updUnit _) _)
  unfold q'
  split
  · split
    · exact fields.trans (barBay b _)
    · exact fields.trans (openBay b)
  · exact fields

theorem surveyBay (number elevation access service : Nat) :
    KeepsBays p (Machine.surveyBay number elevation access service p).1 := by
  unfold Machine.surveyBay
  split
  · split
    · exact refl p
    · split
      · exact refl p
      · split
        · exact refl p
        · exact survey _ _ _ _
  · exact refl p

/-- A bay that may be barred for service is held by no trip (R30). -/
theorem barForService (b : BayId) (free : (p.bay b).state = .opened ∨ (p.bay b).state = .occupied) :
    KeepsBays p (p.barForService b) :=
  updBay b _ (fun shape => ⟨by simp, by rcases free with e | e <;> simpa [e] using shape.holder, by simp⟩) rfl

theorem barBayCommand (number : Nat) : KeepsBays p (Machine.barBay number p).1 := by
  unfold Machine.barBay
  split
  · exact refl p
  · rename_i b _
    simp only
    split
    · rename_i opened
      exact barForService b (.inl opened)
    · rename_i occupied
      split
      · exact refl p
      · exact barForService b (.inr occupied)
    · exact refl p
    · exact refl p
    · split <;> exact refl p
    · exact refl p

theorem unbarBay (number : Nat) : KeepsBays p (Machine.unbarBay number p).1 := by
  unfold Machine.unbarBay
  split
  · exact refl p
  · rename_i b _
    have lifted : KeepsBays p (p.liftBarring b) := by
      unfold Chip.liftBarring
      split
      · exact (occupyBay b _).trans request
      · exact openBay b
    by_cases barred : (p.bay b).state ≠ .barred
    · simpa [barred] using refl p
    · rw [if_neg barred]
      generalize (if (p.bay b).occupant.isSome then Occupancy.occupied else Occupancy.empty) = wanted
      split
      · exact refl p
      · exact lifted

theorem fillBay (f : MassRecord → MassRecord) (m : MassId) (b : BayId) :
    KeepsBays p (((p.updMass m f).request).occupyBay b m) := ((updMass m f).trans request).trans (occupyBay b m)

theorem admitMass (number nominal bay : Nat) : KeepsBays p (Machine.admitMass number nominal bay p).1 := by
  unfold Machine.admitMass
  split
  · iterate 4
      split
      · exact refl p
    exact fillBay _ _ _
  · exact refl p

theorem amendMass (number nominal : Nat) : KeepsBays p (Machine.amendMass number nominal p).1 := by
  unfold Machine.amendMass
  split
  · exact refl p
  · split
    · exact refl p
    · split
      case h_5 | h_6 => simp only; split <;> exact of_same rfl rfl
      all_goals exact refl p

theorem retireMass (number : Nat) : KeepsBays p (Machine.retireMass number p).1 := by
  unfold Machine.retireMass
  split
  · exact refl p
  · split
    case h_5 => exact massAbsent _
    case h_6 =>
      split
      · exact refl p
      · split
        · exact refl p
        · exact (updMass _ _).trans (of_frame (Chip.notifyOrders_unchangedBut _ _) (by decide) (by decide))
    all_goals exact refl p

theorem foundMass (number bay : Nat) : KeepsBays p (Machine.foundMass number bay p).1 := by
  unfold Machine.foundMass
  split
  · iterate 5
      split
      · exact refl p
    exact fillBay _ _ _
  · exact refl p

theorem orderMove (mass destination hoist : Nat) : KeepsBays p (Machine.orderMove mass destination hoist p).1 := by
  unfold Machine.orderMove
  split
  · split
    · exact refl p
    · exact (orders _).trans request
  · exact refl p

theorem cancelOrder (mass : Nat) : KeepsBays p (Machine.cancelOrder mass p).1 := by
  unfold Machine.cancelOrder
  split
  · exact refl p
  · split
    · exact (orders _).trans request
    · show KeepsBays p (p.cancelStaged _)
      unfold Chip.cancelStaged
      split
      · exact (dropStaged _).trans request
      · exact dropStaged _
    · split
      · exact refl p
      · exact abandon _
    · exact refl p

theorem reenter (resume : Phase) : KeepsBays p (p.reenter h resume) := by
  unfold Chip.reenter
  split <;> exact of_same rfl rfl

theorem resumeHoist : KeepsBays p (p.resumeHoist h) := by
  unfold Chip.resumeHoist
  split
  · exact refl p
  · simp only
    split
    · exact reenter _
    · split
      · rename_i taken
        exact (retargetFrom _ _ taken).trans (reenter _)
      · exact (updHoist _).trans (updHoist _)

theorem resume (hoist : Nat) : KeepsBays p (Machine.resume hoist p).1 := by
  unfold Machine.resume
  split
  · exact refl p
  · split
    · exact refl p
    · exact resumeHoist
  · split
    · exact refl p
    · split
      · exact refl p
      · exact foldl _ (fun _ _ => resumeHoist) _

theorem abandonTrip (t : Trip) : KeepsBays p (p.abandonTrip h t) := by
  unfold Chip.abandonTrip
  simp only
  split
  · exact (dropStaged _).trans (abandon _)
  · exact (dropStaged _).trans ((((massLostAboard _).trans (giveUpDestination _)).trans (barClearedSource _)).trans endActive)

theorem abandonTripCommand (hoist : Nat) : KeepsBays p (Machine.abandonTrip hoist p).1 := by
  unfold Machine.abandonTrip
  split
  · exact refl p
  · split
    · exact refl p
    · split
      · exact refl p
      · exact abandonTrip _

theorem retarget (hoist bay : Nat) : KeepsBays p (Machine.retarget hoist bay p).1 := by
  unfold Machine.retarget
  split
  · split
    · exact refl p
    · split
      · exact refl p
      · iterate 2
          split
          · exact refl p
        split
        · exact refl p
        · rename_i opened
          split
          · exact refl p
          · exact takeDestination _ _ _ _ (not_not.mp opened)
  · exact refl p

theorem referenceHoist (hoist bay : Nat) : KeepsBays p (Machine.referenceHoist hoist bay p).1 := by
  unfold Machine.referenceHoist
  split
  · iterate 3
      split
      · exact refl p
    exact of_same rfl rfl
  · exact refl p

theorem clearFault : KeepsBays p (p.clearFault h) := by
  unfold Chip.clearFault
  simp only
  split
  · exact (updHoist _).trans (haltHoist _ _)
  · exact (updHoist _).trans (enterPhase _)

theorem clearFaultCommand (hoist : Nat) : KeepsBays p (Machine.clearFault hoist p).1 := by
  unfold Machine.clearFault
  split
  · exact refl p
  · split
    · exact refl p
    · exact clearFault

theorem holdHoist (hoist mode : Nat) : KeepsBays p (Machine.holdHoist hoist mode p).1 := by
  unfold Machine.holdHoist
  split
  · exact of_same rfl rfl
  · exact refl p

theorem enableHoist (hoist setting : Nat) : KeepsBays p (Machine.enableHoist hoist setting p).1 := by
  unfold Machine.enableHoist
  split
  · split
    · exact refl p
    · exact of_same rfl rfl
  · exact refl p

theorem setParam (identifier hoist : Nat) (value : Int) : KeepsBays p (Machine.setParam identifier hoist value p).1 := by
  unfold Machine.setParam
  split
  · split
    · exact refl p
    · exact setPlant _ _
  · split
    · split
      · exact refl p
      · split
        · exact refl p
        · exact setHoistParam _ _
    · exact refl p

/-! ### The ends of a meaning -/

section
variable {s t : State} {i : Instr}

theorem event {arises : Bool} {effect : Chip} (next : s.event arises effect = .next t)
    (keeps : KeepsBays s.chip effect) : KeepsBays s.chip t.chip := by
  obtain rfl | ⟨_, rfl⟩ := s.event_next t arises effect next
  · exact refl _
  · exact keeps.trans finish

theorem query {a : Answer} (next : s.query i a = .next t) : KeepsBays s.chip t.chip := by
  obtain rfl | ⟨_, rfl⟩ := s.query_next t i a next
  · exact refl _
  · exact reply a

theorem command {taken : Chip × Answer} (next : s.command i taken = .next t)
    (keeps : KeepsBays s.chip taken.1) : KeepsBays s.chip t.chip := by
  obtain rfl | ⟨_, _, rfl⟩ | ⟨_, _, rfl⟩ := s.command_next t i taken next
  · exact refl _
  · exact reply _
  · exact (keeps.trans finish).trans (reply _)

theorem restartPart {due : RestartWork → Bool} {effect : Chip} (next : s.restartPart due effect = .next t)
    (keeps : KeepsBays s.chip effect) : KeepsBays s.chip t.chip := by
  unfold State.restartPart at next
  split at next
  · obtain rfl := Host.Outcome.next.inj next
    exact refl _
  · split at next
    · obtain rfl := Host.Outcome.next.inj next
      exact (keeps.trans finish).trans answerRestart
    · obtain rfl := Host.Outcome.next.inj next
      exact refl _

end

theorem powerOn (rate : LineRate) (first : Quad Channels) (draws : Nat) :
    KeepsBays p { Chip.powerOn rate first with draws := draws } where
  shape _ b := by
    show (Chip.bay (Chip.powerOn rate first) b).Shape
    rw [Chip.powerOn_bay]
    exact ⟨by simp [BayRecord.unsurveyed], by simp [BayRecord.unsurveyed], by simp [BayRecord.unsurveyed]⟩
  sensors _ b := by
    show (Chip.bay (Chip.powerOn rate first) b).sensor = _
    rw [Chip.powerOn_bay]
    simp [Chip.powerOn, SensorBank.initial, LineFilter.initial, BayRecord.unsurveyed]

theorem exec (i : Instr) (s t : State) (next : exec i s = .next t) : KeepsBays s.chip t.chip := by
  cases i with
  | powerOnReset =>
    obtain rfl := Host.Outcome.next.inj next
    exact powerOn _ _ _
  | millisecondMark => exact event next (millisecondMark _)
  | segmentEvent => exact event next segment
  | linkTimeout => exact event next (closeSegment.trans (updLink _))
  | hoistLinkReply => exact event next (completeReply _)
  | hoistLinkReplyByte =>
    refine event next ?_
    unfold Chip.takeReplyByte
    split <;> exact of_same rfl rfl
  | replyPartialTimeout => exact event next (of_same rfl rfl)
  | filterSampleInstant => exact event next (sampleInstant _)
  | interlockClosedAcceptance => exact event next (of_same rfl rfl)
  | interlockHalt => exact event next interlockHalt
  | interlockClosedTaken => exact event next (updHoist _)
  | markerPulse h =>
    change execMarkerPulse h s = .next t at next
    refine event next ?_
    split
    · exact refl _
    · exact takePulse
  | encoderEdge h levels =>
    change execEncoderEdge h levels s = .next t at next
    exact event next (encoderEdge levels)
  | phaseTimerExpiry => exact event next expirePhaseTimer
  | dwellLimitExpiry => exact event next expireDwell
  | servingStart => exact event next (of_same rfl rfl)
  | tryHoist => exact event next nextTry
  | eligibilityReevaluation => exact event next reevaluate
  | endTripsOfAnotherKind => exact event next takeModeRequest
  | frameComplete => exact event next (completeFrame _)
  | frameGapTimeout => exact event next (port _)
  | characterError =>
    change execCharacterError s = .next t at next
    exact event next (settleGap.trans (port _))
  | plantLinkByte => exact event next (settleGap.trans (receiveByte _))
  | replyEnd => exact event next endReply
  | getMass | nextMass | getBay | nextBay | getHoist | getOrder | getEnergy | getParam | snapshot => exact query next
  | getPlant page =>
    change execGetPlant page s = .next t at next
    unfold execGetPlant at next
    split at next
    · exact query next
    · split at next
      · obtain rfl := Host.Outcome.next.inj next
        exact (reply _).trans (port _)
      · obtain rfl := Host.Outcome.next.inj next
        exact refl _
  | admitMass => exact command next (admitMass _ _ _)
  | amendMass => exact command next (amendMass _ _)
  | retireMass => exact command next (retireMass _)
  | foundMass => exact command next (foundMass _ _)
  | surveyBay => exact command next (surveyBay _ _ _ _)
  | barBay => exact command next (barBayCommand _)
  | unbarBay => exact command next (unbarBay _)
  | orderMove => exact command next (orderMove _ _ _)
  | cancelOrder => exact command next (cancelOrder _)
  | setPower => exact command next (setPower _)
  | holdHoist => exact command next (holdHoist _ _)
  | resume => exact command next (resume _)
  | abandonTrip => exact command next (abandonTripCommand _)
  | retarget => exact command next (retarget _ _)
  | referenceHoist => exact command next (referenceHoist _ _)
  | clearFault => exact command next (clearFaultCommand _)
  | enableHoist => exact command next (enableHoist _ _)
  | setParam => exact command next (setParam _ _ _)
  | restart =>
    change execRestart s = .next t at next
    unfold execRestart at next
    split at next <;> obtain rfl := Host.Outcome.next.inj next
    · exact port _
    · exact refl _
  | restartOrderQueue => exact restartPart next (of_same rfl rfl)
  | restartPowerAllocator => exact restartPart next ((setSetpoint 0).trans (port _))
  | restartHoist => exact restartPart next restartHoist

end Chip.KeepsBays

/-- Settles O11: every command keeps the bays, and the queue is no part of them. -/
theorem stepKeepsBayRecords : Obligations.StepKeepsBayRecords := by
  intro s t next
  have keeps : Chip.KeepsBays s.chip t.chip := by
    unfold step at next
    split at next
    · obtain rfl := Host.Outcome.next.inj next
      exact .refl _
    · rename_i i rest _
      exact .exec i (s.withPending rest) t next
  exact ⟨keeps.shape, keeps.sensors⟩

end Sys2Proof.Machine
end

section
/-! SUPPORT. The bay queries (spec/02 R44, R45) and SURVEY_BAY (R28, R29, R76): the search over the Bay Table, the record in a reply, and what a
survey leaves of the bay and of the expected markers. -/

namespace Sys2Proof.Machine

/-! ### Fields of one byte in a reply (spec/11 R193, R195) -/

theorem standsAt_byte {r : Frame} {i v : Nat} (there : r.bytes.getD i 0 = BitVec.ofNat 8 v) : standsAt r i 1 v := by
  intro fits
  simp only [Frame.number, Frame.byte, Nat.add_zero, there, BitVec.toNat_ofNat]
  omega

theorem shownAt_byte {r : Frame} {i : Nat} {field : Option Nat} (there : r.bytes.getD i 0 = BitVec.ofNat 8 (field.getD 0)) :
    shownAt r i 1 field := by
  rintro v rfl
  exact standsAt_byte there

theorem Chip.field_length (p : Chip) (n v : Nat) : (p.field n v).length = n := by
  unfold Chip.field
  split <;> exact bigEndian_length _ _

/-- The presence byte of seven fields, bit 0 first. -/
theorem maskOf_seven (a b c d e f g : Bool) : maskOf [a, b, c, d, e, f, g] =
    flagCode a + 2 * flagCode b + 4 * flagCode c + 8 * flagCode d + 16 * flagCode e + 32 * flagCode f + 64 * flagCode g := by
  simp only [maskOf]
  omega

/-! ### GET_BAY and NEXT_BAY (R44, R45) -/

/-- The bay record stands in a reply as R195 lays it out. -/
theorem Chip.bayLaidOut_bayResult (p : Chip) (b : BayId) : p.bayLaidOut b (replyAt (resultBytes (p.bayResult b))) := by
  obtain ⟨x, y, z, elevation⟩ := List.length_eq_three.mp (p.field_length 3 ((p.bay b).elevation.getD 0))
  unfold Chip.bayResult
  simp only [elevation, maskOf_seven]
  refine ⟨standsAt_byte rfl, standsAt_byte rfl, standsAt_byte rfl, ?_, shownAt_byte ?_, shownAt_byte ?_, shownAt_byte rfl,
    shownAt_byte rfl, shownAt_byte rfl, shownAt_byte rfl, shownAt_byte rfl, ?_⟩
  · intro v surveyed fits
    have read := Frame.number_bigEndian 3 v fits
    rw [surveyed, Option.getD_some, Chip.field, if_pos fits] at elevation
    rw [elevation] at read
    exact read
  · cases (p.bay b).access <;> rfl
  · cases (p.bay b).service <;> rfl
  · intro i within
    obtain ⟨low, high⟩ := List.mem_range'_1.mp within
    interval_cases i <;> rfl

theorem getBay_val (p : Chip) (b : BayId) : getBay b.val p = answerDone (p.bayResult b) := by
  simp [getBay, bayOf_val]

/-- The first bay, in increasing number, that meets a test. -/
theorem bayList_find?_eq_some {test : BayId → Bool} {b : BayId} (met : test b = true)
    (before : ∀ k < b, test k = false) : bayList.find? test = some b := by
  rw [bayList, List.find?_eq_some_iff_getElem]
  refine ⟨met, b.val, by simp, by simp, fun j below => ?_⟩
  simpa using before ⟨j, by omega⟩ (Fin.lt_def.mpr below)

section
variable {start filter : Nat}

theorem nextBay_outOfRange (p : Chip) (bad : 63 < start ∨ filter % 64 = 0) : nextBay start filter p = refuse .range := by
  unfold nextBay
  rw [if_pos]
  rwa [bayOf_eq_none_iff]

/-- The check that NEXT_BAY makes of its operands passes. -/
theorem nextBay_inRange (high : start ≤ 63) (states : filter % 64 ≠ 0) : ¬(bayOf start = none ∨ filter % 64 = 0) := by
  rw [bayOf_eq_none_iff]
  omega

theorem nextBay_found (p : Chip) (high : start ≤ 63) (states : filter % 64 ≠ 0) (b : BayId) (reached : start ≤ b.val)
    (chosen : filter.testBit (p.bay b).state.code = true)
    (first : ∀ k : BayId, start ≤ k.val → k < b → filter.testBit (p.bay k).state.code = false) :
    nextBay start filter p = answerDone (p.bayResult b) := by
  have found : bayList.find? (fun b => decide (start ≤ b.val) && maskHas filter (p.bay b).state.code) = some b := by
    refine bayList_find?_eq_some (by simp [reached, maskHas, chosen]) fun k below => ?_
    by_cases reached : start ≤ k.val
    · simp [maskHas, first k reached below]
    · simp [reached]
  unfold nextBay
  simp only [if_neg (nextBay_inRange high states), found]

theorem nextBay_none (p : Chip) (high : start ≤ 63) (states : filter % 64 ≠ 0)
    (noneChosen : ∀ k : BayId, start ≤ k.val → filter.testBit (p.bay k).state.code = false) :
    nextBay start filter p = answerDone (byteField 255) := by
  have found : bayList.find? (fun b => decide (start ≤ b.val) && maskHas filter (p.bay b).state.code) = none := by
    refine List.find?_eq_none.mpr fun k _ => ?_
    by_cases reached : start ≤ k.val
    · simp [maskHas, noneChosen k reached]
    · simp [reached]
  unfold nextBay
  simp only [if_neg (nextBay_inRange high states), found]

end

/-- Settles O19: both queries answer from the table as it stands, NEXT_BAY by the first bay of its search. -/
theorem bayQueriesAnswer : Obligations.BayQueriesAnswer := by
  intro s b start filter
  refine ⟨fun hands => ?_, fun hands high states => ?_, fun hands bad => ?_, rfl, rfl, rfl, s.chip.bayLaidOut_bayResult b⟩
  · rw [← getBay_val]
    exact hands.query _
  · obtain ⟨t, next, pending, frame, replied⟩ := hands.query (nextBay start filter s.chip)
    refine ⟨t, next, pending, frame, fun reached chosen first => ?_, fun noneChosen => ?_⟩
    · rwa [nextBay_found s.chip high states b reached chosen first] at replied
    · rw [nextBay_none s.chip high states noneChosen] at replied
      exact replied
  · rw [← nextBay_outOfRange s.chip bad]
    exact hands.query _

end Sys2Proof.Machine
end

section
/-! SUPPORT. SURVEY_BAY (spec/02 R28, R29): its checks, and what a survey leaves of the bay and of the expected markers (spec/04 R76). -/

namespace Sys2Proof.Machine

/-! ### Expected markers after a re-survey (R76) -/

theorem Chip.expectedMarkers_congr {p q : Chip} (bays : q.bays = p.bays) (h : HoistId) :
    q.expectedMarkers h = p.expectedMarkers h := by
  unfold Chip.expectedMarkers Chip.marks Chip.reaches Chip.elevationOf Chip.bay
  rw [bays]

/-- The state read from a list of markers made of a state for each: a marker not expected is IDLE. -/
theorem markerState_markerList (state : Nat → MarkerState) (expected : List Nat) (e : Nat) :
    markerState (markerList state expected) e = if e ∈ expected then state e else .idle := by
  induction expected with
  | nil => rfl
  | cons x rest ih =>
    by_cases same : x = e
    · subst same
      by_cases idle : state x = .idle
      · simp [markerList, idle, ih]
      · simp [markerList, markerState, idle]
    · by_cases idle : state x = .idle <;> simp [markerList, markerState, idle, ih, same, Ne.symm same]

theorem Chip.pruneMarkers_unit (p : Chip) (h k : HoistId) : (p.pruneMarkers h).unit k =
    if k = h then
      { p.unit h with markers := markerList (markerState (p.unit h).markers) (p.expectedMarkers h) }
    else p.unit k := p.updUnit_unit h k _

/-- The markers of all four hoists after a re-survey. -/
theorem Chip.pruned_unit (p : Chip) (h : HoistId) : (hoistList.foldl Chip.pruneMarkers p).unit h =
    { p.unit h with markers := markerList (markerState (p.unit h).markers) (p.expectedMarkers h) } := by
  have expected : ∀ (q : Chip) (i k : HoistId), (q.pruneMarkers i).expectedMarkers k = q.expectedMarkers k :=
    fun _ _ k => Chip.expectedMarkers_congr rfl k
  simp only [hoistList, List.foldl_cons, List.foldl_nil, Chip.pruneMarkers_unit, expected]
  fin_cases h <;> rfl

theorem Chip.updUnit_unchangedBut (p : Chip) (h : HoistId) (f : PositionUnit → PositionUnit) :
    p.unchangedBut (p.updUnit h f) [.units] := by
  intro x out
  cases x <;> simp at out <;> rfl

theorem Chip.pruned_unchangedBut (p : Chip) : p.unchangedBut (hoistList.foldl Chip.pruneMarkers p) [.units] := by
  have each : ∀ (q : Chip) h, q.unchangedBut (q.pruneMarkers h) [.units] := fun q h => q.updUnit_unchangedBut h _
  exact Chip.unchangedBut_trans (each p 0)
    (Chip.unchangedBut_trans (each _ 1) (Chip.unchangedBut_trans (each _ 2) (each _ 3)))

theorem Chip.pruned_draws (p : Chip) : (hoistList.foldl Chip.pruneMarkers p).draws = p.draws := rfl

/-! ### The survey of a bay (R29) -/

/-- The record of a surveyed bay: an UNSURVEYED one is barred or opened by its level. -/
def BayRecord.surveyed (r : BayRecord) (elevation : Nat) (access : BitVec 4) (service : Bool) : BayRecord :=
  let x := { r with elevation := some elevation, access := some access, service := some service }
  if r.state = .unsurveyed then
    if r.sensor = some .occupied then
      { x with state := .barred, occupant := none, cause := some .foreign, holder := none }
    else { x with state := .opened, occupant := none, cause := none, holder := none }
  else x

section
variable (p : Chip) (b : BayId) (elevation : Nat) (access : BitVec 4) (service : Bool)

/-- A survey changes the bay's record, with a selection request where the bay becomes OPEN, and then the markers of the hoists. -/
theorem Chip.survey_eq : ∃ q, p.survey b elevation access service = hoistList.foldl Chip.pruneMarkers q ∧
    p.unchangedBut q [.bays, .selector] ∧ q.draws = p.draws ∧
    (∀ k, q.bay k = (p.updBay b fun r => r.surveyed elevation access service).bay k) ∧
    q.selector = if (p.bay b).state = .unsurveyed ∧ (p.bay b).sensor ≠ some .occupied then
      { p.selector with request := true } else p.selector := by
  have fields := p.updBay_unchangedBut b fun r =>
    { r with elevation := some elevation, access := some access, service := some service }
  unfold Chip.survey
  extract_lets before q q'
  refine ⟨q', rfl, ?_⟩
  unfold q' before
  by_cases unsurveyed : (p.bay b).state = .unsurveyed
  · by_cases occupied : (p.bay b).sensor = some .occupied
    · simp only [unsurveyed, occupied, if_true, ne_eq, not_true, and_false, if_false]
      refine ⟨Chip.unchangedBut_mono (Chip.unchangedBut_append fields (q.barBay_unchangedBut b _)) (by decide), rfl,
        fun k => ?_, rfl⟩
      by_cases e : k = b <;> simp [q, Chip.barBay, Chip.updBay_bay, e, BayRecord.surveyed, unsurveyed, occupied]
    · simp only [unsurveyed, occupied, if_true, ne_eq, not_false_iff, and_true, if_false]
      refine ⟨Chip.unchangedBut_mono (Chip.unchangedBut_append fields (q.openBay_unchangedBut b)) (by decide), rfl,
        fun k => ?_, rfl⟩
      by_cases e : k = b <;> simp [q, Chip.openBay, Chip.updBay_bay, e, BayRecord.surveyed, unsurveyed, occupied]
  · simp only [unsurveyed, if_false, false_and]
    refine ⟨Chip.unchangedBut_mono fields (by decide), rfl, fun k => ?_, rfl⟩
    by_cases e : k = b <;> simp [q, Chip.updBay_bay, e, BayRecord.surveyed, unsurveyed]

/-! ### The checks of SURVEY_BAY (R28) -/

theorem flagOf_flagCode : flagOf (flagCode service) = some service := by cases service <;> rfl

theorem flagOf_eq_none_iff (n : Nat) : flagOf n = none ↔ 1 < n := by
  match n with
  | 0 => simp [flagOf]
  | 1 => simp [flagOf]
  | n + 2 => simp [flagOf]

theorem surveyBay_outOfRange (number elevation access setting : Nat)
    (bad : 63 < number ∨ 1048575 < elevation ∨ access % 16 = 0 ∨ 1 < setting) :
    (surveyBay number elevation access setting p).2 = refuse .range := by
  rw [← bayOf_eq_none_iff, ← flagOf_eq_none_iff] at bad
  unfold surveyBay
  split
  · rename_i bay flag
    rw [if_pos (by simpa [bay, flag] using bad)]
  · rfl

/-- SURVEY_BAY of a bay, past the check of its operands. -/
theorem surveyBay_val (access : Nat) (high : elevation ≤ 1048575) (someHoist : access % 16 ≠ 0) :
    surveyBay b.val elevation access (flagCode service) p =
      if (p.bay b).state = .inbound ∨ (p.bay b).state = .outbound then (p, refuse .locked)
      else if (p.bay b).sensor = none then (p, refuse .sensor)
      else (p.survey b elevation (BitVec.ofNat 4 access) service,
        answerDone ((p.survey b elevation (BitVec.ofNat 4 access) service).bayResult b)) := by
  have inRange : ¬(1048575 < elevation ∨ access % 16 = 0) := by omega
  simp only [surveyBay, bayOf_val, flagOf_flagCode, if_neg inRange]

end

/-! ### The command -/

/-- The end of an event that left the controllers, the links, the referenced flags and the interlock as they were moves nothing but the port. -/
theorem Chip.Kept.finish_port_only {before p : Chip} (kept : before.Kept) (hoists : p.hoists = before.hoists)
    (links : p.links = before.links) (referenced : ∀ h, (p.unit h).referenced = (before.unit h).referenced)
    (interlock : p.interlock = before.interlock) : p.unchangedBut (before.finish p) [.port] := by
  rw [Chip.finish_quiet kept hoists links referenced interlock]
  intro x out
  cases x <;> simp at out <;> rfl

/-- A survey that passes its checks: what it changes, and its reply. -/
theorem State.Hands.surveyed {s : State} {i : Instr} (hands : s.Hands i) (b : BayId) (elevation : Nat) (access : BitVec 4)
    (service : Bool) {p : Chip} (surveyed : p = s.chip.survey b elevation access service) :
    ∃ t, s.command i (p, answerDone (p.bayResult b)) = .next t ∧ t.pending = s.pending ∧
      s.chip.unchangedBut t.chip [.bays, .units, .selector, .port] ∧
      (∀ k, t.chip.bay k = (s.chip.updBay b fun r => r.surveyed elevation access service).bay k) ∧
      t.chip.selector = (if (s.chip.bay b).state = .unsurveyed ∧ (s.chip.bay b).sensor ≠ some .occupied then
        { s.chip.selector with request := true } else s.chip.selector) ∧
      (∀ h, t.chip.unit h = { s.chip.unit h with
        markers := markerList (markerState (s.chip.unit h).markers) (t.chip.expectedMarkers h) }) ∧
      s.chip.repliedWith t.chip (answerDone ((t.chip.drawnAs s.chip).bayResult b)) := by
  obtain ⟨f, inHand⟩ := hands.frame
  obtain ⟨q, e, record, draws, bay, selector⟩ := s.chip.survey_eq b elevation access service
  rw [← surveyed] at e
  have pruned : q.unchangedBut p [.units] := e ▸ q.pruned_unchangedBut
  have unitSame : ∀ h, q.unit h = s.chip.unit h := fun h => congrArg (Quad.get · h) (record .units (by decide))
  have unit : ∀ h, p.unit h = { s.chip.unit h with
      markers := markerList (markerState (s.chip.unit h).markers) (q.expectedMarkers h) } := fun h => by
    rw [e, q.pruned_unit, unitSame]
  have change : s.chip.unchangedBut p [.bays, .units, .selector] :=
    Chip.unchangedBut_mono (Chip.unchangedBut_append record pruned) (by decide)
  have interlock : p.interlock = s.chip.interlock := by
    unfold Chip.interlock
    rw [change .sensors (by decide)]
  have ended : p.unchangedBut ((s.chip.finish p).reply (answerDone (p.bayResult b))) [.port] :=
    Chip.unchangedBut_trans
      (hands.kept.finish_port_only (change .hoists (by decide)) (change .links (by decide)) (fun h => by rw [unit]) interlock)
      (Chip.reply_unchangedBut _ _)
  refine ⟨_, s.command_of_done i _ hands.handed rfl, rfl, Chip.unchangedBut_append change ended, fun k => ?_, ?_, fun h => ?_, ?_⟩
  · rw [ended.bay (by decide), pruned.bay (by decide), bay]
  · exact ((ended .selector (by decide)).trans (pruned .selector (by decide))).trans selector
  · have expected := Chip.expectedMarkers_congr ((ended .bays (by decide)).trans (pruned .bays (by decide))) h
    rw [expected, ← unit]
    exact congrArg (Quad.get · h) (ended .units (by decide))
  · rw [Chip.bayResult_drawnAs ended (by rw [e, Chip.pruned_draws, draws])]
    exact Chip.repliedWith_finish_reply inHand (change .port (by decide)) _

/-- Settles O28: the survey by the state and the level of the bay, and the refusals in their order. -/
theorem surveyBayCompletes : Obligations.SurveyBayCompletes := by
  intro s b number elevation access setting service level
  refine ⟨fun hands high someHoist notIn notOut read => ?_, fun hands bad => ?_, fun hands high someHoist => ?_⟩
  · have free : ¬((s.chip.bay b).state = .inbound ∨ (s.chip.bay b).state = .outbound) := by simp [notIn, notOut]
    have passes := surveyBay_val s.chip b elevation service access high someHoist
    rw [if_neg free, if_neg (by simp [read])] at passes
    obtain ⟨t, next, pending, frame, bay, selector, unit, replied⟩ :=
      hands.surveyed b elevation (BitVec.ofNat 4 access) service rfl
    rw [← passes] at next
    have self : t.chip.bay b = (s.chip.bay b).surveyed elevation (BitVec.ofNat 4 access) service := by
      rw [bay, Chip.updBay_bay_self]
    refine ⟨t, next, pending, frame, fun k ne => by rw [bay, Chip.updBay_bay_of_ne _ _ _ _ ne], fun known => ?_,
      fun unsurveyed empty => ?_, fun unsurveyed occupied => ?_, fun h => ⟨?_, fun e => ?_⟩, replied⟩
    · rw [selector, self]
      simp [BayRecord.surveyed, known]
    · rw [selector, self]
      simp [BayRecord.surveyed, unsurveyed, read, empty]
    · rw [selector, self]
      simp [BayRecord.surveyed, unsurveyed, read, occupied]
    · rw [unit]
    · rw [unit, markerState_markerList]
  · exact hands.command_refused (surveyBay_outOfRange s.chip number elevation access setting bad)
  · have checks := surveyBay_val s.chip b elevation service access high someHoist
    obtain ⟨t, next, replied⟩ := hands.command_refusals (surveyBay b.val elevation access (flagCode service) s.chip)
    refine ⟨t, next, fun held => replied _ ?_, fun notIn notOut unread => replied _ ?_⟩
    · rw [checks, if_pos held]
    · rw [checks, if_neg (by simp [notIn, notOut]), if_pos unread]

end Sys2Proof.Machine
end

section
/-! SUPPORT. The completion of an ENGAGE and of a RELEASE (spec/05 R97 to R102) as the statements describe them, and what the end of the event
that completes it leaves of that description. -/

namespace Sys2Proof.Machine

/-! ### The end of an event on one hoist -/

section
variable {before p : Chip} {h : HoistId}

/-- An event on hoist `h` leaves the controllers of the others. -/
theorem Chip.Kept.finish_otherHoistsSame (kept : before.Kept) (hoists : before.otherHoistsSame p h)
    (links : before.otherLinksSame p h) (units : before.otherUnitsSame p h) (interlock : p.interlock = before.interlock) :
    before.otherHoistsSame (before.finish p) h := fun k ne =>
  Chip.finish_hoist_same kept (hoists k ne) (links k ne) (by rw [units k ne]) interlock

theorem Chip.interlock_of_sensors (sensors : p.sensors = before.sensors) : p.interlock = before.interlock := by
  unfold Chip.interlock
  rw [sensors]

/-- The end of an event touches of hoist `h`'s controller able, the brake command and the reference only. -/
theorem Chip.finish_hoist_eq (before p : Chip) (h : HoistId) : (before.finish p).hoist h = { p.hoist h with
    able := p.ableLaw h, brake := p.brakeLaw h
    speedRef := if p.brakeLaw h = .set then 0 else (p.hoist h).speedRef } := Chip.finish_hoist before p h

/-- A reference of 0 stays 0. -/
theorem Chip.finish_speedRef_zero (before : Chip) (zero : (p.hoist h).speedRef = 0) :
    ((before.finish p).hoist h).speedRef = 0 := by
  rw [Chip.finish_hoist_eq]
  show (if _ then _ else _) = _
  rw [zero, ite_self]

theorem Chip.finish_held (before p : Chip) (k : HoistId) (slot : Slot) : (before.finish p).held k slot = p.held k slot :=
  p.held_of_orders (before.finish_orders p) k slot

theorem Chip.tripEntered_finish {q : Chip} (before : Chip) {t : Trip} (entered : p.tripEntered h t (q.hoist h)) :
    p.tripEntered h t ((before.finish q).hoist h) := by
  obtain ⟨reply, dwell, near, far⟩ := entered
  rw [Chip.finish_hoist_eq]
  refine ⟨reply, dwell, fun close => ?_, far⟩
  obtain ⟨phase, latch, zero, timer⟩ := near close
  exact ⟨phase, latch, by simp [zero], timer⟩

theorem Chip.activeEnded_finish {q : Chip} (before : Chip) (ended : p.activeEnded q h) :
    p.activeEnded (before.finish q) h := by
  obtain ⟨withdrawal, zero, noBay, faulted, idle, promoted⟩ := ended
  have hoist := Chip.finish_hoist_eq before q h
  refine ⟨by rw [hoist]; exact withdrawal, q.finish_speedRef_zero before zero, by rw [hoist]; exact noBay,
    fun e => by rw [hoist]; exact faulted e, fun moving unstaged => by rw [hoist]; exact idle moving unstaged,
    fun t moving staged => ?_⟩
  obtain ⟨unstaged, active, free, entered, halted⟩ := promoted t moving staged
  refine ⟨by rw [hoist]; exact unstaged, by rw [Chip.finish_held]; exact active, by rw [Chip.finish_held]; exact free,
    fun notHalted => ?_, fun e => by rw [hoist]; exact halted e⟩
  obtain ⟨taken, entered⟩ := entered notHalted
  exact ⟨by rw [hoist]; exact taken, Chip.tripEntered_finish before entered⟩

end

/-! ### The weighing of an engage (R97 to R99) -/

@[simp] theorem Chip.setHeld_mass (p : Chip) (h : HoistId) (slot : Slot) (o : Option Order) (m : MassId) :
    (p.setHeld h slot o).mass m = p.mass m := by cases slot <;> rfl

section
variable {p : Chip} {h : HoistId} {t : Trip}

/-- The completion test of an engage that is complete makes its weighing (R97). -/
theorem Chip.engageTest_of_complete {load nominal : Nat} (active : (p.hoist h).active = some t)
    (engaged : (p.hoist h).phase = .engage) (free : (p.hoist h).withdrawal = .none)
    (closed : (p.hoist h).latchLevel = some .closed) (reply : (p.hoist h).phaseReply = some load)
    (known : (p.mass t.mass).nominal = some nominal) (enough : (p.hp h).tare + nominal / 2 ≤ load) : p.engageTest h =
      if apart (load - (p.hp h).tare) nominal * 1000 ≤ p.params.weighTol * nominal then
        p.weighMatch h t (load - (p.hp h).tare)
      else p.weighMismatch h (load - (p.hp h).tare) := by
  simp [Chip.engageTest, Chip.engageMeasured, Chip.weighingMatches, active, engaged, free, closed, reply, known, enough]

/-- A load short of TARE and half the nominal leaves the engage as it is (R97). -/
theorem Chip.engageTest_of_short {load nominal : Nat} (active : (p.hoist h).active = some t)
    (reply : (p.hoist h).phaseReply = some load) (known : (p.mass t.mass).nominal = some nominal)
    (short : load < (p.hp h).tare + nominal / 2) : p.engageTest h = p := by
  simp [Chip.engageTest, Chip.engageMeasured, active, reply, known, Nat.not_le.mpr short]

theorem Chip.weighMatch_hoist (measured : Nat) (active : (p.hoist h).active = some t) :
    (p.weighMatch h t measured).hoist h = { p.hoist h with
      phase := .travel, phaseReply := none, phaseTimer := none, dwellTimer := none
      active := some { t with measured := some measured, leg := .loaded } } := by
  simp [Chip.weighMatch, Chip.updActive, Chip.enterPhase, Chip.massAboard, Chip.emptySource, active]

theorem Chip.weighMismatch_hoist (measured : Nat) (active : (p.hoist h).active = some t) :
    (p.weighMismatch h measured).hoist h = { p.hoist h with
      latchCommand := .opened, withdrawal := .mismatch, active := some { t with measured := some measured } } := by
  simp [Chip.weighMismatch, Chip.updActive, active]

/-- The weighing of an engage is made as the statements describe it. -/
theorem Chip.weighingMade_engageTest {load nominal : Nat} (active : (p.hoist h).active = some t)
    (engaged : (p.hoist h).phase = .engage) (free : (p.hoist h).withdrawal = .none)
    (closed : (p.hoist h).latchLevel = some .closed) (reply : (p.hoist h).phaseReply = some load)
    (known : (p.mass t.mass).nominal = some nominal) (enough : (p.hp h).tare + nominal / 2 ≤ load) :
    p.weighingMade (p.engageTest h) h t nominal (load - (p.hp h).tare) := by
  rw [Chip.engageTest_of_complete active engaged free closed reply known enough]
  refine ⟨fun within => ?_, fun outside => ?_⟩
  · rw [if_pos within, Chip.weighMatch_hoist _ active]
    refine ⟨rfl, rfl, rfl, rfl, rfl, ?_, ?_, ?_⟩
    · simp [Chip.weighMatch, Chip.updActive, Chip.enterPhase, Chip.massAboard, Chip.emptySource]
    · simp [Chip.weighMatch, Chip.updActive, Chip.enterPhase, Chip.massAboard, Chip.emptySource]
    · exact (Chip.setHeld_held _ h h .active .active none).trans (if_pos ⟨rfl, rfl⟩)
  · rw [if_neg (Nat.not_le.mpr outside), Chip.weighMismatch_hoist _ active]
    exact ⟨engaged, rfl, rfl, rfl, rfl, rfl, rfl⟩

theorem Chip.weighingMade_finish {q : Chip} {nominal measured : Nat} (before : Chip)
    (made : p.weighingMade q h t nominal measured) : p.weighingMade (before.finish q) h t nominal measured := by
  unfold Chip.weighingMade at *
  rw [Chip.finish_hoist_eq, Chip.finish_mass, Chip.finish_bay, Chip.finish_held, Chip.finish_masses, Chip.finish_bays]
  exact made

end

/-! ### Bays of a staged trip, and bays that no trip holds -/

section
variable (p : Chip) (h : HoistId) (b x : BayId)

/-- A bay that no trip holds keeps its record where a staged trip is dropped. -/
theorem Chip.dropStaged_bay_of_free (fate : OrderFate) (free : (p.bay x).holder = none) :
    (p.dropStaged h fate).bay x = p.bay x := by
  unfold Chip.dropStaged
  split
  · rfl
  · rename_i t _
    have source : ∀ q : Chip, q.bay x = p.bay x → (q.giveUpSource h .staged t.source).bay x = p.bay x := fun q same => by
      rw [q.giveUpSource_bay, if_neg, same]
      rintro ⟨rfl, held, _⟩
      rw [Chip.holdsSource_iff, same, free] at held
      exact absurd held.2 (by simp)
    have destination : ∀ q : Chip, q.bay x = p.bay x → (q.giveUpDestination h .staged t.destination).bay x = p.bay x :=
      fun q same => by
        by_cases e : x = t.destination
        · rw [q.giveUpDestination_of_not, same]
          simp [Chip.holdsDestination, ← e, same, free]
        · rw [q.giveUpDestination_bay_of_ne h _ x .staged e, same]
    rw [Chip.endHeld_bay]
    exact destination _ (source _ rfl)

theorem Chip.moveHold_bay : (p.moveHold h b).bay x =
    if x = b ∧ (p.bay b).holder = some (h, .staged) then { p.bay b with holder := some (h, .active) } else p.bay x := by
  unfold Chip.moveHold
  by_cases held : (p.bay b).holder = some (h, .staged) <;> simp [held, Chip.updBay_bay]

/-- The bays that the staged trip holds pass to the active slot at its promotion (R88, R91). -/
theorem Chip.promote_bay_of_held (t : Trip) (halt : Option HaltCause) (place : x = t.source ∨ x = t.destination)
    (held : (p.bay x).holder = some (h, .staged)) :
    (p.promote h t halt).bay x = { p.bay x with holder := some (h, .active) } := by
  unfold Chip.promote
  rw [(Chip.activate_unchangedBut _ h halt).bay (by decide), Chip.setHeld_bay, Chip.setHeld_bay, Chip.moveHold_bay,
    Chip.moveHold_bay, Chip.moveHold_bay]
  simp only [Chip.updHoist_bay]
  by_cases source : x = t.source
  · subst source
    by_cases same : t.source = t.destination
    · rw [← same]
      simp [held]
    · simp [held, same]
  · obtain rfl := place.resolve_left source
    simp [held, source]

end

/-! ### The completion of a release (R101, R102) -/

section
variable (p : Chip) (h : HoistId) (t : Trip)

/-- The mass delivered to its destination, and a source still held barred, before the trip ends. -/
def Chip.delivered (p : Chip) (h : HoistId) (t : Trip) : Chip :=
  ((p.massDelivered t.mass t.destination).occupyBay t.destination t.mass).barClearedSource h t.source

/-- The part in which hoist `h` has taken its STEP and dropped its staged trip, before the active trip ends (R102). -/
def Chip.stepTaken (p : Chip) (h : HoistId) (t : Trip) : Chip :=
  ((p.delivered h t).updHoist h fun c => { c with holdMode := .hold }).dropStaged h .returned

theorem Chip.delivered_frame : Chip.TripFrame h p (p.delivered h t) :=
  ((Chip.TripFrame.massDelivered t.mass t.destination).trans (Chip.TripFrame.occupyBay _ _)).trans
    (Chip.TripFrame.barClearedSource h t.source)

theorem Chip.barClearedSource_unchangedBut (b : BayId) : p.unchangedBut (p.barClearedSource h b) [.bays] := by
  unfold Chip.barClearedSource
  split
  · exact p.barBay_unchangedBut b _
  · exact p.unchangedBut_refl _

theorem Chip.delivered_unchangedBut : p.unchangedBut (p.delivered h t) [.masses, .selector, .bays] :=
  Chip.unchangedBut_mono
    (Chip.unchangedBut_append (p.updMass_unchangedBut t.mass _)
      (Chip.unchangedBut_append (Chip.request_unchangedBut _)
        (Chip.unchangedBut_append (Chip.updBay_unchangedBut _ t.destination _)
          (Chip.barClearedSource_unchangedBut _ h t.source))))
    (by decide)

theorem Chip.delivered_mass (m : MassId) : (p.delivered h t).mass m =
    if m = t.mass then { p.mass t.mass with
      state := .parked, bay := some t.destination, hoist := none, lifts := satInc16 (p.mass t.mass).lifts }
    else p.mass m := by
  unfold Chip.delivered
  rw [(Chip.barClearedSource_unchangedBut _ h t.source).mass (by decide)]
  rw [Chip.occupyBay, Chip.updBay_mass, Chip.massDelivered, Chip.request_mass, Chip.updMass_mass]

theorem Chip.delivered_bay_destination : (p.delivered h t).bay t.destination = { p.bay t.destination with
    state := .occupied, occupant := some t.mass, cause := none, holder := none } := by
  have occupied : ((p.massDelivered t.mass t.destination).occupyBay t.destination t.mass).bay t.destination =
      { p.bay t.destination with state := .occupied, occupant := some t.mass, cause := none, holder := none } :=
    Chip.updBay_bay_self _ _ _
  unfold Chip.delivered Chip.barClearedSource
  by_cases same : t.source = t.destination
  · rw [if_neg]
    · exact occupied
    · simp [Chip.holdsSource, same, occupied]
  · split
    · rw [Chip.barBay_bay_of_ne _ _ _ _ (Ne.symm same), occupied]
    · exact occupied

theorem Chip.delivered_bay_source (ne : t.source ≠ t.destination) (held : p.holdsSource h .active t.source = true)
    (vacant : (p.bay t.source).occupant = none) : (p.delivered h t).bay t.source =
      { p.bay t.source with state := .barred, occupant := none, cause := some .foreign, holder := none } := by
  have same : ((p.massDelivered t.mass t.destination).occupyBay t.destination t.mass).bay t.source = p.bay t.source :=
    Chip.updBay_bay_of_ne _ _ _ _ ne
  unfold Chip.delivered Chip.barClearedSource
  rw [if_pos, Chip.barBay_bay_self, same]
  rw [Chip.holdsSource_iff] at held
  simp [Chip.holdsSource, same, held, vacant]

theorem Chip.delivered_bay_staged (k : BayId) (ne : k ≠ t.destination) (held : (p.bay k).holder = some (h, .staged)) :
    (p.delivered h t).bay k = p.bay k := by
  have same : ((p.massDelivered t.mass t.destination).occupyBay t.destination t.mass).bay k = p.bay k :=
    Chip.updBay_bay_of_ne _ _ _ _ ne
  unfold Chip.delivered Chip.barClearedSource
  split
  · rename_i clears
    have other : k ≠ t.source := by
      rintro rfl
      simp [Chip.holdsSource, same, held] at clears
    rw [Chip.barBay_bay_of_ne _ _ _ _ other, same]
  · exact same

theorem Chip.delivered_elevationOf (k : BayId) : (p.delivered h t).elevationOf k = p.elevationOf k := by
  have occupied : ((p.massDelivered t.mass t.destination).occupyBay t.destination t.mass).elevationOf k = p.elevationOf k :=
    Chip.updBay_elevationOf _ t.destination k _ fun _ => rfl
  unfold Chip.delivered Chip.barClearedSource
  split
  · rw [Chip.barBay_elevationOf, occupied]
  · exact occupied

theorem Chip.completeRelease_of_step (step : (p.hoist h).holdMode = .step) : p.completeRelease h t =
    (p.stepTaken h t).endActive h := by
  have hoist : (p.delivered h t).hoist h = p.hoist h := congrArg (Quad.get · h) (p.delivered_unchangedBut h t .hoists (by decide))
  unfold Chip.completeRelease
  extract_lets q q'
  have chosen : q' = (q.updHoist h fun c => { c with holdMode := .hold }).dropStaged h .returned := if_pos (by
    rw [← step, ← hoist]
    rfl)
  rw [chosen]
  rfl

theorem Chip.completeRelease_of_not_step (noStep : (p.hoist h).holdMode ≠ .step) :
    p.completeRelease h t = (p.delivered h t).endActive h := by
  have hoist : (p.delivered h t).hoist h = p.hoist h := congrArg (Quad.get · h) (p.delivered_unchangedBut h t .hoists (by decide))
  unfold Chip.completeRelease
  extract_lets q q'
  have chosen : q' = q := if_neg (by
    rw [← hoist] at noStep
    exact noStep)
  rw [chosen]
  rfl

end

/-- What the end of an active trip leaves of the hold mode. -/
theorem Chip.endActive_holdMode (p : Chip) (h : HoistId) : ((p.endActive h).hoist h).holdMode = (p.hoist h).holdMode := by
  rcases p.endActive_cases h with ⟨_, e⟩ | ⟨_, _, e⟩ | ⟨t, _, _, e⟩ <;> rw [e]
  · simp [HoistCtl.cleared]
  · simp [Chip.enterPhase, HoistCtl.cleared]
  · rw [Chip.promote_hoist]
    unfold Chip.promoted
    simp only [Chip.updHoist_hoist_self]
    split
    · rfl
    · split <;> rfl

section
variable {p : Chip} {h : HoistId} {t : Trip}

theorem Chip.delivered_hoist : (p.delivered h t).hoist h = p.hoist h :=
  congrArg (Quad.get · h) (p.delivered_unchangedBut h t .hoists (by decide))

theorem Chip.delivered_held (slot : Slot) : (p.delivered h t).held h slot = p.held h slot :=
  p.held_of_orders (p.delivered_unchangedBut h t .orders (by decide)) h slot

theorem Chip.delivered_sameTrips : Chip.SameTrips h p (p.delivered h t) :=
  ⟨by rw [Chip.delivered_hoist], by rw [Chip.delivered_hoist], by rw [Chip.delivered_hoist], Chip.delivered_held _,
    congrArg (Quad.get · h) (p.delivered_frame h t).units, (p.delivered_frame h t).params, p.delivered_elevationOf h t⟩

theorem Chip.dropStaged_hoist (fate : OrderFate) : (p.dropStaged h fate).hoist h = { p.hoist h with staged := none } := by
  unfold Chip.dropStaged
  split
  · rename_i unstaged
    rw [← unstaged]
  · simp

theorem Chip.stepTaken_hoist : (p.stepTaken h t).hoist h = { p.hoist h with holdMode := .hold, staged := none } := by
  unfold Chip.stepTaken
  rw [Chip.dropStaged_hoist, Chip.updHoist_hoist_self, Chip.delivered_hoist]

/-- What the dropping of a staged trip leaves of the masses and the orders (R103). -/
theorem Chip.dropStaged_mass (fate : OrderFate) {staged : Trip} (isStaged : (p.hoist h).staged = some staged) (m : MassId) :
    (p.dropStaged h fate).mass m = if m = staged.mass then { p.mass m with state := .parked } else p.mass m := by
  have masses : (p.dropStaged h fate).masses = (p.massReleased staged.mass).masses := by
    rw [Chip.dropStaged_of_staged isStaged]
    simp only [Chip.endHeld_masses, Chip.giveUpDestination_masses, Chip.giveUpSource_masses]
    rfl
  have e : (p.dropStaged h fate).mass m = (p.massReleased staged.mass).mass m := by
    unfold Chip.mass
    rw [masses]
  rw [e, Chip.massReleased, Chip.request_mass, Chip.updMass_mass]
  split
  · rename_i same
    rw [same]
  · rfl

theorem Chip.dropStaged_mass_of_none (fate : OrderFate) (unstaged : (p.hoist h).staged = none) (m : MassId) :
    (p.dropStaged h fate).mass m = p.mass m := by
  simp [Chip.dropStaged, unstaged]

/-- The order of a staged trip that is dropped with its order returned (R121). -/
theorem Chip.dropStaged_returned {staged : Trip} (isStaged : (p.hoist h).staged = some staged) :
    (p.dropStaged h .returned).held h .staged = none ∧
    ∀ o, p.held h .staged = some o → (p.dropStaged h .returned).orders.queue = o :: p.orders.queue := by
  obtain ⟨q, def_q⟩ : ∃ q, q = (((p.updHoist h fun c => { c with staged := none }).massReleased staged.mass).giveUpSource h
      .staged staged.source).giveUpDestination h .staged staged.destination := ⟨_, rfl⟩
  have orders : q.orders = p.orders := by rw [def_q]; simp
  rw [Chip.dropStaged_of_staged isStaged, ← def_q]
  refine ⟨(q.endHeld_held h h .staged .returned .staged).trans (if_pos ⟨rfl, rfl⟩), fun o held => ?_⟩
  rw [q.endHeld_returned h .staged o (by rw [p.held_of_orders orders, held]), orders]

theorem Chip.endActive_held_staged_of_idle (moving : (p.hoist h).phase ≠ .faulted) (unstaged : (p.hoist h).staged = none)
    (slot : Slot) : (p.endActive h).held h slot = p.held h slot := by
  rw [p.endActive_of_idle h moving unstaged]
  rfl

/-- A release completed under STEP (R102): the staged trip is dropped and the hoist IDLE. -/
theorem Chip.releaseMade_of_step (releasing : (p.hoist h).phase = .release) (step : (p.hoist h).holdMode = .step)
    (otherMass : ∀ staged, (p.hoist h).staged = some staged → staged.mass ≠ t.mass) :
    p.releaseMade (p.completeRelease h t) h t := by
  have hoist : (p.stepTaken h t).hoist h = { p.hoist h with holdMode := .hold, staged := none } := Chip.stepTaken_hoist
  have ended : p.completeRelease h t = ((p.stepTaken h t).updHoist h HoistCtl.cleared).enterPhase h .idle :=
    (p.completeRelease_of_step h t step).trans
      (Chip.endActive_of_idle _ h (by rw [hoist]; simp [releasing]) (by rw [hoist]))
  have after : (p.completeRelease h t).hoist h =
      { (p.hoist h).cleared with holdMode := .hold, staged := none, phase := .idle, phaseReply := none } := by
    rw [ended]
    simp [Chip.enterPhase, hoist, HoistCtl.cleared]
  have mass : ∀ m, (p.completeRelease h t).mass m = (p.stepTaken h t).mass m := fun m => by rw [ended]; rfl
  have kept : ∀ k, ((p.delivered h t).bay k).holder = none → (p.completeRelease h t).bay k = (p.delivered h t).bay k :=
    fun k free => by
      rw [ended]
      exact Chip.dropStaged_bay_of_free _ h k .returned free
  obtain ⟨q, def_q⟩ : ∃ q, q = (p.delivered h t).updHoist h fun c => { c with holdMode := .hold } := ⟨_, rfl⟩
  have taken : p.stepTaken h t = q.dropStaged h .returned := by rw [def_q]; rfl
  have isStaged : (q.hoist h).staged = (p.hoist h).staged := by rw [def_q, Chip.updHoist_hoist_self, Chip.delivered_hoist]
  have massBefore : ∀ m, q.mass m = (p.delivered h t).mass m := fun m => by rw [def_q]; rfl
  have destination := p.delivered_bay_destination h t
  refine ⟨?_, ?_, fun ne holds vacant => ?_, by rw [after, if_pos step], fun _ => by rw [after]; rfl,
    fun noStep => absurd step noStep, fun _ => ⟨by rw [after], by rw [after]; rfl, by rw [after], fun staged st => ?_⟩⟩
  · rw [mass, taken]
    cases st : (p.hoist h).staged with
    | none => rw [q.dropStaged_mass_of_none .returned (isStaged.trans st), massBefore, p.delivered_mass h t, if_pos rfl]
    | some staged =>
      rw [q.dropStaged_mass .returned (isStaged.trans st), if_neg (Ne.symm (otherMass staged st)), massBefore,
        p.delivered_mass h t, if_pos rfl]
  · rw [kept _ (by rw [destination]), destination]
  · have source := p.delivered_bay_source h t ne holds vacant
    rw [kept _ (by rw [source]), source]
  · obtain ⟨unheld, returned⟩ := q.dropStaged_returned (isStaged.trans st)
    have held : q.held h .staged = p.held h .staged := by rw [def_q, Chip.updHoist_held, Chip.delivered_held]
    have queue : q.orders.queue = p.orders.queue := by
      rw [def_q]
      exact congrArg OrderQueue.queue (p.delivered_unchangedBut h t .orders (by decide))
    refine ⟨?_, ?_, fun o is_o => ?_⟩
    · rw [mass, taken, q.dropStaged_mass .returned (isStaged.trans st), if_pos rfl, massBefore, p.delivered_mass h t,
        if_neg (otherMass staged st)]
    · rw [ended, ← unheld, ← taken]
      rfl
    · rw [ended, ← queue, ← returned o (held.trans is_o), ← taken]
      rfl

/-- A release completed without STEP (R91, R102): the active trip ends and a staged one is promoted. -/
theorem Chip.releaseMade_of_not_step (releasing : (p.hoist h).phase = .release) (noStep : (p.hoist h).holdMode ≠ .step) :
    p.releaseMade (p.completeRelease h t) h t := by
  have hoist : (p.delivered h t).hoist h = p.hoist h := Chip.delivered_hoist
  have destination := p.delivered_bay_destination h t
  have kept : ∀ k, ((p.delivered h t).bay k).holder = none →
      ((p.delivered h t).endActive h).bay k = (p.delivered h t).bay k := fun k free =>
    Chip.endActive_bay_of_not _ h k (by simp [free])
  rw [p.completeRelease_of_not_step h t noStep]
  refine ⟨?_, ?_, fun ne holds vacant => ?_, ?_, fun unpromoted => ?_, fun _ => ⟨?_, fun staged st k place ne held => ?_⟩,
    fun step => absurd step noStep⟩
  · have masses := Chip.endActive_masses (p.delivered h t) h
    unfold Chip.mass
    rw [masses]
    exact (p.delivered_mass h t t.mass).trans (if_pos rfl)
  · rw [kept _ (by rw [destination]), destination]
  · have source := p.delivered_bay_source h t ne holds vacant
    rw [kept _ (by rw [source]), source]
  · rw [Chip.endActive_holdMode, hoist, if_neg noStep]
  · obtain ⟨_, latch⟩ := Chip.endActive_hoist_kept (p.delivered h t) h
    rw [hoist] at latch
    exact latch (.inl (unpromoted.resolve_left noStep))
  · exact Chip.delivered_sameTrips.activeEnded (Chip.activeEnded_endActive _ h)
  · have same := p.delivered_bay_staged h t k ne held
    rw [Chip.endActive_of_staged _ h (by rw [hoist]; simp [releasing]) staged (by rw [hoist, st]),
      Chip.promote_bay_of_held _ h k staged _ place (by rw [Chip.updHoist_bay, same, held]), Chip.updHoist_bay, same]

theorem Chip.releaseMade_completeRelease (releasing : (p.hoist h).phase = .release)
    (otherMass : ∀ staged, (p.hoist h).staged = some staged → staged.mass ≠ t.mass) :
    p.releaseMade (p.completeRelease h t) h t := by
  by_cases step : (p.hoist h).holdMode = .step
  · exact Chip.releaseMade_of_step releasing step otherMass
  · exact Chip.releaseMade_of_not_step releasing step

theorem Chip.releaseMade_finish {q : Chip} (before : Chip) (made : p.releaseMade q h t) :
    p.releaseMade (before.finish q) h t := by
  obtain ⟨mass, destination, source, holdMode, latch, unstepped, stepped⟩ := made
  have hoist := Chip.finish_hoist_eq before q h
  refine ⟨by rwa [Chip.finish_mass], by rwa [Chip.finish_bay], by rwa [Chip.finish_bay], by rw [hoist]; exact holdMode,
    by rw [hoist]; exact latch, fun noStep => ?_, fun step => ?_⟩
  · obtain ⟨ended, holds⟩ := unstepped noStep
    exact ⟨Chip.activeEnded_finish before ended, fun staged st k place ne held => by
      rw [Chip.finish_bay, holds staged st k place ne held]⟩
  · obtain ⟨idle, noTrip, unstaged, dropped⟩ := stepped step
    refine ⟨by rw [hoist]; exact idle, by rw [hoist]; exact noTrip, by rw [hoist]; exact unstaged, fun staged st => ?_⟩
    rw [Chip.finish_mass, Chip.finish_held, Chip.finish_orders]
    exact dropped staged st

end

/-! ### A reply taken (spec/08 R158, R161) -/

/-- The part in which hoist `h`'s link has taken a good reply. -/
def Chip.replyTaken (p : Chip) (h : HoistId) (r : DriveReply) : Chip :=
  (p.clearReply h).updLink h fun l => { l.answered with last := some r, segmentReply := true }

section
variable {p : Chip} {h : HoistId} {r : DriveReply}

/-- A good reply in a segment without one is handed on where the link is not DOWN (R158). -/
theorem Chip.completeReply_of_good {byte : Byte} (good : driveReplyOf ((p.link h).buffer ++ [byte]) = some r)
    (fresh : (p.link h).segmentReply = false) (notDown : (p.link h).state ≠ .down) :
    p.completeReply h byte = (p.replyTaken h r).handOn h r := by
  have cleared : ((p.clearReply h).link h) = { p.link h with buffer := [], gap := 0 } := Chip.updLink_link_self _ _ _
  have stillUp : ((p.replyTaken h r).link h).state ≠ .down := by
    unfold Chip.replyTaken
    rw [Chip.updLink_link_self, cleared]
    cases state : (p.link h).state <;> simp [LinkPort.answered, state] at notDown ⊢
    split <;> simp
  unfold Chip.completeReply
  rw [good]
  simp only [Chip.takeReply, cleared, fresh]
  exact if_neg stillUp

theorem Chip.replyTaken_otherLinksSame : p.otherLinksSame (p.replyTaken h r) h := fun k ne => by
  unfold Chip.replyTaken Chip.clearReply
  rw [Chip.updLink_link_of_ne _ _ _ _ ne, Chip.updLink_link_of_ne _ _ _ _ ne]

theorem Chip.replyTaken_unchangedBut : p.unchangedBut (p.replyTaken h r) [.links] := by
  intro x out
  cases x <;> simp at out <;> rfl

theorem Chip.TripFrame.handOn : Chip.TripFrame h p (p.handOn h r) := by
  have checked : Chip.TripFrame h p (p.driveChecks h r) := by
    unfold Chip.driveChecks
    split
    · exact .takeFault _ _
    · split
      · exact .takeFault _ _
      · exact .refl h p
  exact (checked.trans (.updHoist _)).trans .completionTest

/-- A reply without a fault code, taken in ENGAGE or RELEASE, is recorded and completes the phase or not (R97, R101, R161). -/
theorem Chip.handOn_of_good (good : r.code = 0) (phase : (p.hoist h).phase = .engage ∨ (p.hoist h).phase = .release) :
    p.handOn h r = (p.updHoist h fun c => { c with phaseReply := some r.load }).completionTest h := by
  have checks : p.driveChecks h r = p := by rcases phase with e | e <;> simp [Chip.driveChecks, good, e]
  unfold Chip.handOn
  rw [checks]

end

/-! ### The reply recorded touches neither the records nor what of the controller the completions are described by -/

section
variable {p y q : Chip} {h : HoistId} {t : Trip} {reply : Option Nat}
  (same : p.unchangedBut y [.links, .hoists]) (hoist : y.hoist h = { p.hoist h with phaseReply := reply })

include same hoist

theorem Chip.weighingMade_of_recorded {nominal measured : Nat} (made : y.weighingMade q h t nominal measured) :
    p.weighingMade q h t nominal measured := by
  have params : y.params = p.params := same .params (by decide)
  have masses : y.masses = p.masses := same .masses (by decide)
  have bays : y.bays = p.bays := same .bays (by decide)
  unfold Chip.weighingMade at *
  rwa [hoist, same.mass (by decide), same.bay (by decide), params, masses, bays] at made

theorem Chip.sameTrips_of_recorded : Chip.SameTrips h p y :=
  ⟨by rw [hoist], by rw [hoist], by rw [hoist], p.held_of_orders (same .orders (by decide)) h _,
    congrArg (Quad.get · h) (same .units (by decide)), same .params (by decide), fun b => by
      unfold Chip.elevationOf
      rw [same.bay (by decide)]⟩

theorem Chip.releaseMade_of_recorded (made : y.releaseMade q h t) : p.releaseMade q h t := by
  obtain ⟨mass, destination, source, holdMode, latch, unstepped, stepped⟩ := made
  have bay : ∀ k, y.bay k = p.bay k := same.bay (by decide)
  have orders : y.orders = p.orders := same .orders (by decide)
  have ended := (Chip.sameTrips_of_recorded same hoist).activeEnded (r := q)
  simp only [hoist, bay, same.mass (by decide : Part.masses ∉ [Part.links, .hoists]), Chip.holdsSource,
    p.held_of_orders orders, orders] at mass destination source holdMode latch unstepped stepped
  exact ⟨mass, destination, source, holdMode, latch, fun noStep => ⟨ended (unstepped noStep).1, (unstepped noStep).2⟩, stepped⟩

end

/-- Settles O55: the reply is taken and recorded, and completes the engage by its weighing or the release. -/
theorem repliesCompleteEngageAndRelease : Obligations.RepliesCompleteEngageAndRelease := by
  intro s h b tr r nominal kept six recent good code fresh notDown active known
  obtain ⟨x, def_x⟩ : ∃ x, x = s.chip.replyTaken h r := ⟨_, rfl⟩
  obtain ⟨q, def_q⟩ : ∃ q, q = x.handOn h r := ⟨_, rfl⟩
  have effect : s.chip.completeReply h b = q := by rw [def_q, def_x, Chip.completeReply_of_good good fresh notDown]
  have arises : (decide ((s.chip.link h).buffer.length = 6) && !(s.chip.link h).partialExpired) = true := by
    simp [LinkPort.partialExpired, six, recent]
  have frame : Chip.TripFrame h x q := def_q ▸ .handOn
  have taken : s.chip.unchangedBut x [.links] := def_x ▸ Chip.replyTaken_unchangedBut
  have change : s.chip.unchangedBut q [.masses, .bays, .hoists, .selector, .orders, .links] :=
    Chip.unchangedBut_mono (Chip.unchangedBut_append taken frame.unchangedBut) (by decide)
  have links : s.chip.otherLinksSame q h := fun k ne => by
    rw [← Chip.replyTaken_otherLinksSame (p := s.chip) (r := r) k ne, ← def_x]
    exact congrArg (Quad.get · k) frame.links
  have hoists : s.chip.otherHoistsSame q h := fun k ne => (frame.others k ne).trans (by rw [def_x]; rfl)
  have units : s.chip.otherUnitsSame q h := fun k _ => congrArg (Quad.get · k) (change .units (by decide))
  obtain ⟨y, def_y⟩ : ∃ y, y = x.updHoist h fun c => { c with phaseReply := some r.load } := ⟨_, rfl⟩
  have tested : (s.chip.hoist h).phase = .engage ∨ (s.chip.hoist h).phase = .release → q = y.completionTest h := fun e => by
    rw [def_q, def_y]
    exact Chip.handOn_of_good code (by rw [def_x]; exact e)
  have hoist : y.hoist h = { s.chip.hoist h with phaseReply := some r.load } := by
    rw [def_y, Chip.updHoist_hoist_self, def_x]
    rfl
  have same : s.chip.unchangedBut y [.links, .hoists] := by
    rw [def_y]
    exact Chip.unchangedBut_append taken (x.updHoist_unchangedBut h _)
  have hp : y.hp h = s.chip.hp h := congrArg (Quad.get · h) (same .hoistParams (by decide))
  refine ⟨_, s.event_of _ _ arises, rfl, ?_, ?_, ?_, fun engaged free closed enough => ?_, fun engaged short => ?_,
    fun releasing opened occupied light otherMass => ?_⟩ <;> simp only [effect]
  · exact Chip.unchangedBut_mono (Chip.unchangedBut_append change (Chip.finish_unchangedBut _ _)) (by decide)
  · exact fun k ne => (Chip.finish_link _ _ k).trans (links k ne)
  · exact kept.finish_otherHoistsSame hoists links units (Chip.interlock_of_sensors (change .sensors (by decide)))
  · rw [tested (.inl engaged)]
    refine Chip.weighingMade_finish _ (Chip.weighingMade_of_recorded same hoist ?_)
    have made := Chip.weighingMade_engageTest (p := y) (h := h) (t := tr) (load := r.load) (nominal := nominal)
      (by rw [hoist]; exact active) (by rw [hoist]; exact engaged) (by rw [hoist]; exact free) (by rw [hoist]; exact closed)
      (by rw [hoist]) (by rw [same.mass (by decide)]; exact known) (by rw [hp]; exact enough)
    rw [hp] at made
    rw [Chip.completionTest, hoist, engaged]
    exact made
  · have untouched : q = y := by
      rw [tested (.inl engaged), Chip.completionTest, hoist, engaged]
      exact Chip.engageTest_of_short (by rw [hoist]; exact active) (by rw [hoist]) (by rw [same.mass (by decide)]; exact known)
        (by rw [hp]; exact short)
    rw [untouched, Chip.finish_hoist_eq, Chip.finish_masses, hoist]
    exact ⟨engaged, rfl, active, same .masses (by decide)⟩
  · rw [tested (.inr releasing)]
    refine Chip.releaseMade_finish _ (Chip.releaseMade_of_recorded same hoist ?_)
    have complete : y.releaseComplete h tr = true := by
      simp [Chip.releaseComplete, hoist, releasing, opened, same.bay (b := tr.destination) (by decide), occupied, hp, light]
    rw [Chip.completionTest, hoist, releasing]
    simp only [Chip.releaseTest, hoist, active, complete, if_true]
    exact Chip.releaseMade_completeRelease (by rw [hoist]; exact releasing) (by rw [hoist]; exact otherMass)

end Sys2Proof.Machine
end

section
/-! SUPPORT. Faults and loads (spec/04 R70, spec/08 R165, R166): what the taking of a fault makes of a controller, and what it leaves of the bays,
of the markers expected and of the load. -/

namespace Sys2Proof.Machine

/-! ### The controller that takes a fault (R165, R166) -/

/-- The further causes of a fault record hold a cause. -/
def HoistCtl.hasFurther (c : HoistCtl) (cause : FaultCause) : Prop :=
  ∃ set, c.fault.further = some set ∧ set.getLsbD cause.code = true

/-- The controller after a fault: a further cause on a FAULTED hoist (R166), fault entry on another (R165). -/
def HoistCtl.faultTaken (c : HoistCtl) (cause : FaultCause) (detail : Option Nat) : HoistCtl :=
  if c.phase = .faulted then
    { c with fault := { c.fault with further := some (addCause (c.fault.further.getD 0) cause) } }
  else
    { c with
      phase := .faulted, staged := none, phaseReply := none, phaseTimer := none, dwellTimer := none, speedRef := 0
      active := c.active.map fun t => { t with resumePhase := none, haltCause := none }
      fault := { first := some cause, detail := detail, phaseAt := some c.workPhase, further := some 0,
                 count := satInc 255 c.fault.count } }

theorem Chip.takeFault_hoist (p : Chip) (h : HoistId) (cause : FaultCause) (detail : Option Nat) :
    (p.takeFault h cause detail).hoist h = (p.hoist h).faultTaken cause detail := by
  unfold Chip.takeFault HoistCtl.faultTaken
  by_cases faulted : (p.hoist h).phase = .faulted
  · simp [faulted]
  · simp [faulted, Chip.updActive, Chip.stopRef, Chip.enterPhase, Chip.dropStaged_hoist]

/-- What a FAULTED controller keeps until its fault is cleared: the phase, the first cause with its detail and phase, the count, an empty staged
slot, and every further cause. -/
structure HoistCtl.StaysFaulted (c c' : HoistCtl) : Prop where
  phase : c.phase = .faulted → c'.phase = .faulted
  first : c.phase = .faulted → c'.fault.first = c.fault.first
  detail : c.phase = .faulted → c'.fault.detail = c.fault.detail
  phaseAt : c.phase = .faulted → c'.fault.phaseAt = c.fault.phaseAt
  count : c.phase = .faulted → c'.fault.count = c.fault.count
  staged : c.phase = .faulted → c'.staged = c.staged
  further : c.phase = .faulted → ∀ cause, c.hasFurther cause → c'.hasFurther cause

theorem HoistCtl.StaysFaulted.refl (c : HoistCtl) : c.StaysFaulted c :=
  ⟨id, fun _ => rfl, fun _ => rfl, fun _ => rfl, fun _ => rfl, fun _ => rfl, fun _ _ => id⟩

theorem HoistCtl.StaysFaulted.trans {a b c : HoistCtl} (x : a.StaysFaulted b) (y : b.StaysFaulted c) : a.StaysFaulted c where
  phase e := y.phase (x.phase e)
  first e := (y.first (x.phase e)).trans (x.first e)
  detail e := (y.detail (x.phase e)).trans (x.detail e)
  phaseAt e := (y.phaseAt (x.phase e)).trans (x.phaseAt e)
  count e := (y.count (x.phase e)).trans (x.count e)
  staged e := (y.staged (x.phase e)).trans (x.staged e)
  further e cause has := y.further (x.phase e) cause (x.further e cause has)

/-- A change that touches neither the fault record nor the staged slot, and leaves the phase of a FAULTED hoist. -/
theorem HoistCtl.StaysFaulted.of_same {c c' : HoistCtl} (phase : c.phase = .faulted → c'.phase = .faulted)
    (fault : c'.fault = c.fault) (staged : c'.staged = c.staged) : c.StaysFaulted c' :=
  ⟨phase, fun _ => by rw [fault], fun _ => by rw [fault], fun _ => by rw [fault], fun _ => by rw [fault], fun _ => staged,
    fun _ cause has => by unfold HoistCtl.hasFurther; rwa [fault]⟩

theorem addCause_getLsbD (set : BitVec 9) (cause : FaultCause) (i : Nat) :
    (addCause set cause).getLsbD i = (set.getLsbD i || decide (i = cause.code)) := by
  by_cases low : i < 9
  · cases cause <;> interval_cases i <;> simp [addCause, FaultCause.code]
  · have high : i ≠ cause.code := by cases cause <;> simp [FaultCause.code] <;> omega
    simp [addCause, high, BitVec.getLsbD_of_ge _ _ (Nat.not_lt.mp low)]

section
variable (c : HoistCtl) (cause : FaultCause) (detail : Option Nat)

@[simp] theorem HoistCtl.faultTaken_phase : (c.faultTaken cause detail).phase = .faulted := by
  unfold HoistCtl.faultTaken
  split
  · assumption
  · rfl

theorem HoistCtl.faultTaken_stays : c.StaysFaulted (c.faultTaken cause detail) := by
  by_cases faulted : c.phase = .faulted
  · unfold HoistCtl.faultTaken
    rw [if_pos faulted]
    refine ⟨id, fun _ => rfl, fun _ => rfl, fun _ => rfl, fun _ => rfl, fun _ => rfl, fun _ other has => ?_⟩
    obtain ⟨set, further, bit⟩ := has
    exact ⟨_, rfl, by rw [addCause_getLsbD, further, Option.getD_some, bit, Bool.true_or]⟩
  · constructor <;> exact fun e => absurd e faulted

theorem HoistCtl.faultTaken_further (faulted : c.phase = .faulted) : (c.faultTaken cause detail).hasFurther cause := by
  unfold HoistCtl.faultTaken
  rw [if_pos faulted]
  exact ⟨_, rfl, by simp [addCause_getLsbD]⟩

theorem HoistCtl.faultTaken_entry (notFaulted : c.phase ≠ .faulted) : (c.faultTaken cause detail).staged = none ∧
    (c.faultTaken cause detail).fault = { first := some cause, detail := detail, phaseAt := some c.workPhase, further := some 0,
                                          count := satInc 255 c.fault.count } := by
  unfold HoistCtl.faultTaken
  rw [if_neg notFaulted]
  exact ⟨rfl, rfl⟩

/-- A fault leaves of the active trip all but the resume phase and the halt cause. -/
theorem HoistCtl.faultTaken_active : (c.faultTaken cause detail).active = c.active ∨
    (c.faultTaken cause detail).active = c.active.map fun t => { t with resumePhase := none, haltCause := none } := by
  unfold HoistCtl.faultTaken
  split
  · exact .inl rfl
  · exact .inr rfl

theorem HoistCtl.faultTaken_checks : (c.faultTaken cause detail).checkSpeed = c.checkSpeed ∧
    (c.faultTaken cause detail).overspeedRun = c.overspeedRun := by
  unfold HoistCtl.faultTaken
  split <;> exact ⟨rfl, rfl⟩

end

/-! ### The load (R70) -/

theorem Chip.phaseLoad_congr {p q : Chip} {h : HoistId} (last : (q.link h).last = (p.link h).last) (hp : q.hp h = p.hp h)
    (phase : Phase) (t : Trip) : q.phaseLoad h phase t = p.phaseLoad h phase t := by
  unfold Chip.phaseLoad Chip.driveLoad Chip.legLoad
  rw [last, hp]

/-- The load reads of a controller its phase, its active trip and the phase at its fault. -/
theorem Chip.loadM_congr {p q : Chip} {h : HoistId} (phase : (q.hoist h).phase = (p.hoist h).phase)
    (active : (q.hoist h).active = (p.hoist h).active) (phaseAt : (q.hoist h).fault.phaseAt = (p.hoist h).fault.phaseAt)
    (last : (q.link h).last = (p.link h).last) (hp : q.hp h = p.hp h) : q.loadM h = p.loadM h := by
  simp only [Chip.loadM, active, phase, phaseAt, hp, Chip.phaseLoad_congr last hp]

/-- The load as the phase a hoist works in gives it (R70), of a hoist that is HALTED, FAULTED or at work. -/
theorem Chip.loadM_of_active (p : Chip) (h : HoistId) {t : Trip} (active : (p.hoist h).active = some t)
    (notFaulted : (p.hoist h).phase ≠ .faulted) : p.loadM h = p.phaseLoad h (p.hoist h).workPhase t := by
  unfold Chip.loadM HoistCtl.workPhase
  simp only [active]
  cases phase : (p.hoist h).phase <;> simp_all
  cases t.resumePhase <;> rfl

/-- A fault keeps the load: the phase at the fault gives the load that the phase left gave. -/
theorem Chip.loadM_of_faultTaken {p q : Chip} {h : HoistId} {cause : FaultCause} {detail : Option Nat}
    (hoist : q.hoist h = (p.hoist h).faultTaken cause detail) (last : (q.link h).last = (p.link h).last)
    (hp : q.hp h = p.hp h) : q.loadM h = p.loadM h := by
  by_cases faulted : (p.hoist h).phase = .faulted
  · exact Chip.loadM_congr (by rw [hoist, HoistCtl.faultTaken, if_pos faulted]) (by rw [hoist, HoistCtl.faultTaken, if_pos faulted])
      (by rw [hoist, HoistCtl.faultTaken, if_pos faulted]) last hp
  · rw [HoistCtl.faultTaken, if_neg faulted] at hoist
    cases active : (p.hoist h).active with
    | none => simp [Chip.loadM, hoist, active, hp]
    | some t =>
      rw [p.loadM_of_active h active faulted]
      simp only [Chip.loadM, hoist, active, Option.map_some, Option.getD_some]
      exact Chip.phaseLoad_congr last hp _ _

/-! ### The bays through a fault -/

/-- Hoist `h`'s checks at its segment event leave of the bays the elevations and the access sets, and the sources held by its active trip. -/
structure Chip.KeepsSurvey (h : HoistId) (p q : Chip) : Prop where
  elevation : ∀ b, (q.bay b).elevation = (p.bay b).elevation
  access : ∀ b, (q.bay b).access = (p.bay b).access
  source : ∀ b, p.holdsSource h .active b = true → q.bay b = p.bay b

theorem Chip.KeepsSurvey.of_bays {h : HoistId} {p q : Chip} (bay : ∀ b, q.bay b = p.bay b) : Chip.KeepsSurvey h p q :=
  ⟨fun b => by rw [bay], fun b => by rw [bay], fun b _ => bay b⟩

theorem Chip.KeepsSurvey.trans {h : HoistId} {p q r : Chip} (x : Chip.KeepsSurvey h p q) (y : Chip.KeepsSurvey h q r) :
    Chip.KeepsSurvey h p r where
  elevation b := (y.elevation b).trans (x.elevation b)
  access b := (y.access b).trans (x.access b)
  source b held := by
    have same := x.source b held
    rw [y.source b (by rwa [Chip.holdsSource, same]), same]

/-- An update of one bay that keeps its survey, of a bay that the active trip does not hold as its source. -/
theorem Chip.KeepsSurvey.updBay {h : HoistId} {p : Chip} (b : BayId) (f : BayRecord → BayRecord)
    (elevation : (f (p.bay b)).elevation = (p.bay b).elevation) (access : (f (p.bay b)).access = (p.bay b).access)
    (notSource : p.holdsSource h .active b = false) : Chip.KeepsSurvey h p (p.updBay b f) where
  elevation k := by
    rw [Chip.updBay_bay]
    split
    · rename_i e
      rw [e, elevation]
    · rfl
  access k := by
    rw [Chip.updBay_bay]
    split
    · rename_i e
      rw [e, access]
    · rfl
  source k held := by
    refine p.updBay_bay_of_ne b k f ?_
    rintro rfl
    rw [held] at notSource
    exact absurd notSource (by simp)

theorem Chip.KeepsSurvey.dropStaged {h : HoistId} {p : Chip} (fate : OrderFate) : Chip.KeepsSurvey h p (p.dropStaged h fate) := by
  have source : ∀ (q : Chip) b, Chip.KeepsSurvey h q (q.giveUpSource h .staged b) := fun q b => by
    unfold Chip.giveUpSource
    split
    · rename_i held
      rw [Bool.and_eq_true, Chip.holdsSource_iff] at held
      exact .updBay b _ rfl rfl (by simp [Chip.holdsSource, held.1.2])
    · exact .of_bays fun _ => rfl
  have destination : ∀ (q : Chip) b, Chip.KeepsSurvey h q (q.giveUpDestination h .staged b) := fun q b => by
    unfold Chip.giveUpDestination
    split
    · rename_i held
      rw [Chip.holdsDestination_iff] at held
      have notSource : q.holdsSource h .active b = false := by simp [Chip.holdsSource, held.1]
      split
      · exact .updBay b _ rfl rfl notSource
      · unfold Chip.openBay
        exact (Chip.KeepsSurvey.updBay b _ (by rfl) (by rfl) notSource).trans (.of_bays fun k => Chip.request_bay _ k)
    · exact .of_bays fun _ => rfl
  unfold Chip.dropStaged
  split
  · exact .of_bays fun _ => rfl
  · refine trans ?_ (.of_bays fun b => Chip.endHeld_bay _ h b .staged fate)
    refine trans ?_ (destination _ _)
    refine trans ?_ (source _ _)
    exact .of_bays fun _ => rfl

theorem Chip.KeepsSurvey.takeFault {h : HoistId} {p : Chip} (cause : FaultCause) (detail : Option Nat) :
    Chip.KeepsSurvey h p (p.takeFault h cause detail) := by
  unfold Chip.takeFault
  simp only
  split
  · exact .of_bays fun _ => rfl
  · exact (Chip.KeepsSurvey.dropStaged .returned).trans (.of_bays fun _ => rfl)

section
variable {h : HoistId} {p q : Chip} (survey : Chip.KeepsSurvey h p q)
include survey

theorem Chip.KeepsSurvey.elevationOf (b : BayId) : q.elevationOf b = p.elevationOf b := by
  unfold Chip.elevationOf
  rw [survey.elevation]

theorem Chip.KeepsSurvey.reaches (k : HoistId) (b : BayId) : q.reaches k b = p.reaches k b := by
  unfold Chip.reaches
  rw [survey.access]

theorem Chip.KeepsSurvey.expectedMarkers (k : HoistId) : q.expectedMarkers k = p.expectedMarkers k := by
  unfold Chip.expectedMarkers Chip.marks
  simp only [survey.elevation, survey.reaches, survey.elevationOf]

theorem Chip.KeepsSurvey.markerBay (k : HoistId) (e : Nat) : q.markerBay k e = p.markerBay k e := by
  unfold Chip.markerBay Chip.marks
  simp only [survey.elevation, survey.reaches, survey.elevationOf]

end

end Sys2Proof.Machine
end

section
/-! SUPPORT. The segment event (spec/03 R50) step by step: the part after the closing of the segment, after its position, and after each of its
checks, with what each step leaves of the one before it. -/

namespace Sys2Proof.Machine

/-! ### What every step of a segment event leaves -/

/-- A step of hoist `h`'s segment event: what it may touch of the part, and that a fault stays. -/
structure Chip.SegmentStep (h : HoistId) (p q : Chip) : Prop where
  parts : p.unchangedBut q [.masses, .bays, .units, .hoists, .selector, .orders, .links]
  hoists : p.otherHoistsSame q h
  units : p.otherUnitsSame q h
  links : p.otherLinksSame q h
  survey : ∀ b, (q.bay b).elevation = (p.bay b).elevation ∧ (q.bay b).access = (p.bay b).access
  stays : (p.hoist h).StaysFaulted (q.hoist h)

namespace Chip.SegmentStep

variable {h : HoistId} {p q r : Chip}

theorem trans (x : SegmentStep h p q) (y : SegmentStep h q r) : SegmentStep h p r where
  parts := Chip.unchangedBut_trans x.parts y.parts
  hoists k ne := (y.hoists k ne).trans (x.hoists k ne)
  units k ne := (y.units k ne).trans (x.units k ne)
  links k ne := (y.links k ne).trans (x.links k ne)
  survey b := ⟨(y.survey b).1.trans (x.survey b).1, (y.survey b).2.trans (x.survey b).2⟩
  stays := x.stays.trans y.stays

theorem of_frame (frame : TripFrame h p q) (survey : KeepsSurvey h p q) (stays : (p.hoist h).StaysFaulted (q.hoist h)) :
    SegmentStep h p q where
  parts := Chip.unchangedBut_mono frame.unchangedBut (by decide)
  hoists := frame.others
  units k _ := congrArg (Quad.get · k) frame.units
  links k _ := congrArg (Quad.get · k) frame.links
  survey b := ⟨survey.elevation b, survey.access b⟩
  stays := stays

theorem refl (h : HoistId) (p : Chip) : SegmentStep h p p :=
  of_frame (.refl h p) (.of_bays fun _ => rfl) (.refl _)

theorem updHoist (f : HoistCtl → HoistCtl) (stays : (p.hoist h).StaysFaulted (f (p.hoist h))) :
    SegmentStep h p (p.updHoist h f) :=
  of_frame (.updHoist f) (.of_bays fun _ => rfl) (by rwa [Chip.updHoist_hoist_self])

theorem updLink (f : LinkPort → LinkPort) : SegmentStep h p (p.updLink h f) where
  parts := fun x out => by cases x <;> simp at out <;> rfl
  hoists _ _ := rfl
  units _ _ := rfl
  links k ne := p.updLink_link_of_ne h k f ne
  survey _ := ⟨rfl, rfl⟩
  stays := .refl _

theorem updUnit (f : PositionUnit → PositionUnit) : SegmentStep h p (p.updUnit h f) where
  parts := Chip.unchangedBut_mono (p.updUnit_unchangedBut h f) (by decide)
  hoists _ _ := rfl
  units k ne := p.updUnit_unit_of_ne h k f ne
  links _ _ := rfl
  survey _ := ⟨rfl, rfl⟩
  stays := .refl _

theorem takeFault (cause : FaultCause) (detail : Option Nat) : SegmentStep h p (p.takeFault h cause detail) :=
  of_frame (.takeFault _ _) (.takeFault _ _) (by rw [Chip.takeFault_hoist]; exact HoistCtl.faultTaken_stays _ _ _)

theorem takePositionFault (cause : FaultCause) (detail : Option Nat) :
    SegmentStep h p (p.takePositionFault h cause detail) := (updUnit _).trans (takeFault cause detail)

theorem hp (step : SegmentStep h p q) (k : HoistId) : q.hp k = p.hp k :=
  congrArg (Quad.get · k) (step.parts .hoistParams (by decide))

theorem params (step : SegmentStep h p q) : q.params = p.params := step.parts .params (by decide)

theorem power (step : SegmentStep h p q) : q.power = p.power := step.parts .power (by decide)

theorem elevationOf (step : SegmentStep h p q) (b : BayId) : q.elevationOf b = p.elevationOf b := by
  unfold Chip.elevationOf
  rw [(step.survey b).1]

end Chip.SegmentStep

theorem Chip.takeFault_unit (p : Chip) (h k : HoistId) (cause : FaultCause) (detail : Option Nat) :
    (p.takeFault h cause detail).unit k = p.unit k :=
  congrArg (Quad.get · k) (Chip.TripFrame.takeFault (p := p) (h := h) cause detail).units

theorem Chip.takeFault_link (p : Chip) (h k : HoistId) (cause : FaultCause) (detail : Option Nat) :
    (p.takeFault h cause detail).link k = p.link k :=
  congrArg (Quad.get · k) (Chip.TripFrame.takeFault (p := p) (h := h) cause detail).links

/-! ### The closing of the segment (R157, R159, R160) -/

/-- The link whose segment is closed, unless LINK_TIMEOUT has closed it (log 6). -/
def LinkPort.atSegment (l : LinkPort) (timeout : Nat) : LinkPort :=
  if l.closedAhead then { l with closedAhead := false } else l.closeSegment timeout

/-- The closing of a segment, with the message sent after it, as the statements describe it. -/
theorem LinkPort.segmentClosed_atSegment (l : LinkPort) (timeout : Nat) (message : Option RefMessage) :
    l.segmentClosed { l.atSegment timeout with sent := message } timeout := by
  unfold LinkPort.segmentClosed LinkPort.atSegment
  refine ⟨fun ahead => by simp [ahead], fun notAhead => ?_⟩
  simp only [notAhead, LinkPort.closeSegment, LinkPort.leaveDown, Bool.false_eq_true, if_false]
  refine ⟨fun down off => ?_, fun down on => ?_, fun notDown answered => ?_, fun proving missed => ?_,
    fun up missed few => ?_, fun up missed enough => ?_, fun lost missed => ?_⟩
  · cases l.segmentReply <;> simp [down, off, LinkPort.closedMissed, notAhead]
  · cases reply : l.segmentReply <;>
      simp [down, on, LinkPort.closedMissed, LinkPort.raiseMissed, satInc]
  · simp [notDown, answered, notAhead]
  · simp [proving, missed, LinkPort.closedMissed, LinkPort.raiseMissed, notAhead]
  · simp [up, missed, LinkPort.closedMissed, LinkPort.raiseMissed, notAhead, Nat.not_le.mpr few]
  · simp [up, missed, LinkPort.closedMissed, LinkPort.raiseMissed, notAhead, enough]
  · simp [lost, missed, LinkPort.closedMissed, LinkPort.raiseMissed, notAhead]

/-- An UP link is LOST by the closing of a missed segment at LINK_TIMEOUT. -/
theorem LinkPort.closeSegment_lost_iff (l : LinkPort) (timeout : Nat) (up : l.state = .up) :
    (l.closeSegment timeout).state = .lost ↔ l.segmentReply = false ∧ timeout ≤ satInc 255 l.missed := by
  cases reply : l.segmentReply
  · by_cases enough : timeout ≤ satInc 255 l.missed <;>
      simp [LinkPort.closeSegment, LinkPort.leaveDown, LinkPort.closedMissed, LinkPort.raiseMissed, up, reply, enough]
  · simp [LinkPort.closeSegment, LinkPort.leaveDown, up, reply]

theorem LinkPort.leaveDown_kept (l : LinkPort) : l.leaveDown.last = l.last ∧ l.leaveDown.sent = l.sent := by
  unfold LinkPort.leaveDown
  split <;> exact ⟨rfl, rfl⟩

theorem LinkPort.closedMissed_kept (l : LinkPort) (timeout : Nat) :
    (l.closedMissed timeout).last = l.last ∧ (l.closedMissed timeout).sent = l.sent := by
  unfold LinkPort.closedMissed LinkPort.raiseMissed
  split
  case h_3 => split <;> exact ⟨rfl, rfl⟩
  all_goals exact ⟨rfl, rfl⟩

/-- The closing of a segment touches neither the latest reply nor the latest message. -/
theorem LinkPort.atSegment_kept (l : LinkPort) (timeout : Nat) :
    (l.atSegment timeout).last = l.last ∧ (l.atSegment timeout).sent = l.sent := by
  obtain ⟨last, sent⟩ := l.leaveDown_kept
  obtain ⟨last', sent'⟩ := l.leaveDown.closedMissed_kept timeout
  unfold LinkPort.atSegment LinkPort.closeSegment
  split
  · exact ⟨rfl, rfl⟩
  · cases reply : l.leaveDown.segmentReply
    · simp [reply, last', sent', last, sent]
    · simp [reply, last, sent]

/-- The link fault of R160 comes with the closing of the segment. -/
def Chip.linkFaults (p : Chip) (h : HoistId) : Bool := p.timeoutReached h && decide ((p.hoist h).phase ≠ .idle)

theorem Chip.linkFaults_iff (p : Chip) (h : HoistId) :
    p.linkFaults h = true ↔ p.timeoutReached h = true ∧ (p.hoist h).phase ≠ .idle := by simp [Chip.linkFaults]

/-- The part whose segment's link state has been taken, before a fault. -/
def Chip.linkClosed (p : Chip) (h : HoistId) : Chip := p.updLink h fun l => l.atSegment p.params.linkTimeout

/-- The closing of a segment, with the fault of a link that it makes LOST. -/
theorem Chip.closeIfOpen_eq (p : Chip) (h : HoistId) : p.closeIfOpen h =
    if p.linkFaults h then (p.linkClosed h).takeFault h .link none else p.linkClosed h := by
  have record : ∀ f g : LinkPort → LinkPort, f (p.link h) = g (p.link h) → p.updLink h f = p.updLink h g := fun f g e => by
    simp only [Chip.updLink, e]
  unfold Chip.closeIfOpen
  by_cases ahead : (p.link h).closedAhead = true
  · have noFault : ¬p.linkFaults h = true := by simp [Chip.linkFaults, Chip.timeoutReached, ahead]
    rw [if_pos ahead, if_neg noFault]
    exact record _ _ (by simp [LinkPort.atSegment, ahead])
  · have closed : (p.updLink h fun l => l.closeSegment p.params.linkTimeout) = p.linkClosed h :=
      record _ _ (by simp [LinkPort.atSegment, ahead])
    rw [if_neg ahead]
    unfold Chip.closeSegment
    simp only [closed]
    refine if_congr ?_ rfl rfl
    rw [← closed, Chip.updLink_link_self, Chip.updLink_hoist, Chip.linkFaults_iff]
    unfold Chip.timeoutReached
    by_cases up : (p.link h).state = .up
    · rw [LinkPort.closeSegment_lost_iff _ _ up]
      simp [up, ahead, and_assoc]
    · simp [up]

/-- The controller whose segment event is taken (log 2). -/
def HoistCtl.segmentTaken (c : HoistCtl) : HoistCtl :=
  if c.segmentDue then { c with segmentDue := false } else { c with segmentAhead := true }

/-- The part after the closing of hoist `h`'s segment at its segment event. -/
def Chip.atClosed (p : Chip) (h : HoistId) : Chip := (p.markSegment h).closeIfOpen h

section
variable (p : Chip) (h : HoistId)

theorem Chip.markSegment_hoist : (p.markSegment h).hoist h = (p.hoist h).segmentTaken := p.updHoist_hoist_self h _

/-- Taking the event touches the two items of log 2 only. -/
theorem HoistCtl.segmentTaken_eq (c : HoistCtl) : c.segmentTaken =
    { c with segmentDue := c.segmentTaken.segmentDue, segmentAhead := c.segmentTaken.segmentAhead } := by
  unfold HoistCtl.segmentTaken
  split <;> rfl

theorem Chip.markSegment_linkFaults : (p.markSegment h).linkFaults h = p.linkFaults h := by
  have timeout : (p.markSegment h).timeoutReached h = p.timeoutReached h := rfl
  unfold Chip.linkFaults
  rw [timeout, p.markSegment_hoist, HoistCtl.segmentTaken_eq]

/-- The two ways the closing of the segment leaves the part. -/
theorem Chip.atClosed_cases :
    p.linkFaults h = true ∧ p.atClosed h = ((p.markSegment h).linkClosed h).takeFault h .link none ∨
    p.linkFaults h = false ∧ p.atClosed h = (p.markSegment h).linkClosed h := by
  unfold Chip.atClosed
  rw [Chip.closeIfOpen_eq, p.markSegment_linkFaults]
  cases p.linkFaults h
  · exact .inr ⟨rfl, rfl⟩
  · exact .inl ⟨rfl, rfl⟩

theorem Chip.linkClosed_step : Chip.SegmentStep h p ((p.markSegment h).linkClosed h) :=
  (Chip.SegmentStep.updHoist _ (.of_same (fun e => by split <;> exact e) (by split <;> rfl) (by split <;> rfl))).trans
    (Chip.SegmentStep.updLink _)

theorem Chip.atClosed_step : Chip.SegmentStep h p (p.atClosed h) := by
  obtain ⟨_, e⟩ | ⟨_, e⟩ := p.atClosed_cases h <;> rw [e]
  · exact (p.linkClosed_step h).trans (.takeFault _ _)
  · exact p.linkClosed_step h

theorem Chip.atClosed_link : (p.atClosed h).link h = (p.link h).atSegment p.params.linkTimeout := by
  have closed : ((p.markSegment h).linkClosed h).link h = (p.link h).atSegment p.params.linkTimeout :=
    Chip.updLink_link_self _ _ _
  obtain ⟨_, e⟩ | ⟨_, e⟩ := p.atClosed_cases h <;> rw [e]
  · rw [Chip.takeFault_link, closed]
  · exact closed

theorem Chip.atClosed_unit (k : HoistId) : (p.atClosed h).unit k = p.unit k := by
  obtain ⟨_, e⟩ | ⟨_, e⟩ := p.atClosed_cases h <;> rw [e]
  · rw [Chip.takeFault_unit]
    rfl
  · rfl

/-- The controller after the closing: with the LINK fault, or without one. -/
theorem Chip.atClosed_hoist : (p.atClosed h).hoist h =
    if p.linkFaults h then (p.hoist h).segmentTaken.faultTaken .link none else (p.hoist h).segmentTaken := by
  have marked : ((p.markSegment h).linkClosed h).hoist h = (p.hoist h).segmentTaken := p.markSegment_hoist h
  obtain ⟨faults, e⟩ | ⟨faults, e⟩ := p.atClosed_cases h <;> rw [e, faults]
  · rw [Chip.takeFault_hoist, marked]
    rfl
  · exact marked

theorem Chip.atClosed_survey : Chip.KeepsSurvey h p (p.atClosed h) := by
  have marked : Chip.KeepsSurvey h p ((p.markSegment h).linkClosed h) := .of_bays fun _ => rfl
  obtain ⟨_, e⟩ | ⟨_, e⟩ := p.atClosed_cases h <;> rw [e]
  · exact marked.trans (.takeFault _ _)
  · exact marked

/-- The closing of the segment keeps the load, also where it faults the hoist. -/
theorem Chip.atClosed_loadM : (p.atClosed h).loadM h = p.loadM h := by
  have step := p.atClosed_step h
  have last : ((p.atClosed h).link h).last = (p.link h).last := by
    rw [p.atClosed_link h]
    exact (LinkPort.atSegment_kept _ _).1
  have marked : ((p.markSegment h).linkClosed h).loadM h = p.loadM h := by
    have hoist : ((p.markSegment h).linkClosed h).hoist h = (p.hoist h).segmentTaken := p.markSegment_hoist h
    have link : ((p.markSegment h).linkClosed h).link h = (p.link h).atSegment p.params.linkTimeout :=
      Chip.updLink_link_self _ _ _
    refine Chip.loadM_congr ?_ ?_ ?_ (by rw [link]; exact (LinkPort.atSegment_kept _ _).1) rfl <;>
      rw [hoist, HoistCtl.segmentTaken_eq]
  obtain ⟨_, e⟩ | ⟨_, e⟩ := p.atClosed_cases h <;> rw [e]
  · rw [Chip.loadM_of_faultTaken (Chip.takeFault_hoist _ h _ _) (by rw [Chip.takeFault_link]) ((Chip.SegmentStep.takeFault _ _).hp h),
      marked]
  · exact marked

theorem Chip.atClosed_exactElevation (count : Int) : (p.atClosed h).exactElevation h count = p.exactElevation h count := by
  unfold Chip.exactElevation
  rw [p.atClosed_loadM, p.atClosed_unit, (p.atClosed_step h).hp]

theorem Chip.atClosed_elevationAt (count : Int) : (p.atClosed h).elevationAt h count = p.elevationAt h count := by
  unfold Chip.elevationAt
  rw [p.atClosed_exactElevation]

end

end Sys2Proof.Machine
end

section
/-! SUPPORT. The segment event after its closing (spec/04 R72, R80, R81; spec/08 R162; spec/02 R41): the position, the marker checks, the
overspeed check and the clear-height check, each in terms of the part as the event finds it. -/

namespace Sys2Proof.Machine

section
variable (p : Chip) (h : HoistId)

/-! ### The position (R72, R73) -/

/-- The part after the Position Unit has computed the position. -/
def Chip.atPosition (p : Chip) (h : HoistId) : Chip := (p.atClosed h).computePosition h

theorem Chip.atPosition_step : Chip.SegmentStep h p (p.atPosition h) := by
  unfold Chip.atPosition Chip.computePosition
  exact (p.atClosed_step h).trans (.updUnit _)

theorem Chip.atPosition_hoist : (p.atPosition h).hoist h = (p.atClosed h).hoist h := rfl

theorem Chip.atPosition_link : (p.atPosition h).link h = (p.atClosed h).link h := rfl

theorem Chip.atPosition_bay (b : BayId) : (p.atPosition h).bay b = (p.atClosed h).bay b := rfl

/-- The unit after its position, in the terms of the part as the event finds it. -/
theorem Chip.atPosition_unit : (p.atPosition h).unit h = { p.unit h with
    elevation := p.elevationAt h (p.unit h).count
    rangeCount := if (p.elevationAt h (p.unit h).count : Int) ≠ p.exactElevation h (p.unit h).count then
      satInc16 (p.unit h).rangeCount else (p.unit h).rangeCount
    speed := ((p.elevationAt h (p.unit h).count : Int) - p.elevationAt h (p.unit h).previousCount) * 20
    previousCount := (p.unit h).count, illegal := 0 } := by
  unfold Chip.atPosition Chip.computePosition
  simp only [Chip.updUnit_unit_self, p.atClosed_unit, p.atClosed_exactElevation, p.atClosed_elevationAt]
  rfl

/-! ### The marker checks (R80, R81) -/

/-- The pass over the expected markers that hoist `h`'s segment event makes. -/
def Chip.markerPass (p : Chip) (h : HoistId) : MarkerPass :=
  passMarkers p.params.slipLimit (p.elevationAt h (p.unit h).previousCount) (p.elevationAt h (p.unit h).count)
    (markerState (p.unit h).markers) (p.unit h).missRun (p.unit h).missedMarkers (p.expectedMarkers h)

/-- The part after the marker checks. -/
def Chip.atMarkers (p : Chip) (h : HoistId) : Chip := (p.markSegment h |>.closeIfOpen h).positionSegment h

/-- The part with what the pass over the markers has found, before a fault. -/
def Chip.markersPassed (p : Chip) (h : HoistId) : Chip := (p.atPosition h).updUnit h fun u =>
  { u with markers := (p.markerPass h).states, missRun := (p.markerPass h).run, missedMarkers := (p.markerPass h).missed }

/-- The detail of a POSITION fault at a marker: the bay that names it (R81). -/
def Chip.markerDetail (p : Chip) (h : HoistId) (zb : Nat) : Option Nat := ((p.markersPassed h).markerBay h zb).map fun b => b.val

theorem Chip.atMarkers_eq : p.atMarkers h =
    if (p.unit h).referenced then
      match (p.markerPass h).fault with
      | some zb => (p.markersPassed h).takePositionFault h .position (p.markerDetail h zb)
      | none => p.markersPassed h
    else p.atPosition h := by
  have expected : (p.atPosition h).expectedMarkers h = p.expectedMarkers h :=
    (Chip.expectedMarkers_congr rfl h).trans ((p.atClosed_survey h).expectedMarkers h)
  have params : (p.atPosition h).params = p.params := (p.atPosition_step h).params
  have zp : (p.atClosed h).elevationAt h ((p.atClosed h).unit h).previousCount = p.elevationAt h (p.unit h).previousCount := by
    rw [p.atClosed_unit, p.atClosed_elevationAt]
  show (p.atPosition h).checkMarkers h ((p.atClosed h).elevationAt h ((p.atClosed h).unit h).previousCount) = _
  rw [zp]
  unfold Chip.checkMarkers
  simp only [p.atPosition_unit, expected, params]
  rfl

/-- The three ways the marker checks leave the part: an unreferenced hoist, a pass without a fault, a pass that faults. -/
theorem Chip.atMarkers_cases :
    (p.unit h).referenced = false ∧ p.atMarkers h = p.atPosition h ∨
    (p.unit h).referenced = true ∧ (p.markerPass h).fault = none ∧ p.atMarkers h = p.markersPassed h ∨
    ∃ zb, (p.unit h).referenced = true ∧ (p.markerPass h).fault = some zb ∧
      p.atMarkers h = (p.markersPassed h).takePositionFault h .position (p.markerDetail h zb) := by
  rw [p.atMarkers_eq]
  cases (p.unit h).referenced
  · exact .inl ⟨rfl, rfl⟩
  · cases fault : (p.markerPass h).fault with
    | none => exact .inr (.inl ⟨rfl, rfl, rfl⟩)
    | some zb => exact .inr (.inr ⟨zb, rfl, rfl, rfl⟩)

theorem Chip.markersPassed_step : Chip.SegmentStep h p (p.markersPassed h) := (p.atPosition_step h).trans (.updUnit _)

theorem Chip.atMarkers_step : Chip.SegmentStep h p (p.atMarkers h) := by
  obtain ⟨_, e⟩ | ⟨_, _, e⟩ | ⟨zb, _, _, e⟩ := p.atMarkers_cases h <;> rw [e]
  · exact p.atPosition_step h
  · exact p.markersPassed_step h
  · exact (p.markersPassed_step h).trans (.takePositionFault _ _)

theorem Chip.markersPassed_survey : Chip.KeepsSurvey h p (p.markersPassed h) :=
  (p.atClosed_survey h).trans (.of_bays fun _ => rfl)

theorem Chip.atMarkers_survey : Chip.KeepsSurvey h p (p.atMarkers h) := by
  obtain ⟨_, e⟩ | ⟨_, _, e⟩ | ⟨zb, _, _, e⟩ := p.atMarkers_cases h <;> rw [e]
  · exact (p.atClosed_survey h).trans (.of_bays fun _ => rfl)
  · exact p.markersPassed_survey h
  · have unreferenced : Chip.KeepsSurvey h (p.markersPassed h) ((p.markersPassed h).unreference h) := .of_bays fun _ => rfl
    unfold Chip.takePositionFault
    exact ((p.markersPassed_survey h).trans unreferenced).trans (.takeFault _ _)

theorem Chip.takePositionFault_link (q : Chip) (k : HoistId) (cause : FaultCause) (detail : Option Nat) :
    (q.takePositionFault h cause detail).link k = q.link k := by
  unfold Chip.takePositionFault
  rw [Chip.takeFault_link]
  rfl

theorem Chip.takePositionFault_hoist (q : Chip) (cause : FaultCause) (detail : Option Nat) :
    (q.takePositionFault h cause detail).hoist h = (q.hoist h).faultTaken cause detail := by
  unfold Chip.takePositionFault
  rw [Chip.takeFault_hoist]
  rfl

theorem Chip.takePositionFault_unit (q : Chip) (cause : FaultCause) (detail : Option Nat) :
    (q.takePositionFault h cause detail).unit h =
      { q.unit h with referenced := false, markers := [], missRun := 0 } := by
  unfold Chip.takePositionFault
  rw [Chip.takeFault_unit]
  exact q.updUnit_unit_self h _

theorem Chip.atMarkers_link : (p.atMarkers h).link h = (p.atClosed h).link h := by
  obtain ⟨_, e⟩ | ⟨_, _, e⟩ | ⟨zb, _, _, e⟩ := p.atMarkers_cases h <;> rw [e]
  · rfl
  · rfl
  · rw [Chip.takePositionFault_link]
    rfl

/-- The controller after the marker checks, without or with a POSITION fault. -/
theorem Chip.atMarkers_hoist : (p.atMarkers h).hoist h = (p.atClosed h).hoist h ∨
    ∃ zb, (p.unit h).referenced = true ∧ (p.markerPass h).fault = some zb ∧
      (p.atMarkers h).hoist h = ((p.atClosed h).hoist h).faultTaken .position (p.markerDetail h zb) := by
  obtain ⟨_, e⟩ | ⟨_, _, e⟩ | ⟨zb, referenced, fault, e⟩ := p.atMarkers_cases h
  · exact .inl (by rw [e]; rfl)
  · exact .inl (by rw [e]; rfl)
  · exact .inr ⟨zb, referenced, fault, by rw [e, Chip.takePositionFault_hoist]; rfl⟩

/-- The marker checks touch of the unit the referenced flag, the markers, the run and the missed markers. -/
theorem Chip.atMarkers_unit : (p.atMarkers h).unit h = { (p.atPosition h).unit h with
    referenced := ((p.atMarkers h).unit h).referenced, markers := ((p.atMarkers h).unit h).markers
    missRun := ((p.atMarkers h).unit h).missRun, missedMarkers := ((p.atMarkers h).unit h).missedMarkers } := by
  obtain ⟨_, e⟩ | ⟨_, _, e⟩ | ⟨zb, _, _, e⟩ := p.atMarkers_cases h <;> rw [e]
  · rw [Chip.markersPassed, Chip.updUnit_unit_self]
  · rw [Chip.takePositionFault_unit, Chip.markersPassed, Chip.updUnit_unit_self]

theorem Chip.atMarkers_unit_unreferenced (unreferenced : (p.unit h).referenced = false) :
    (p.atMarkers h).unit h = (p.atPosition h).unit h := by
  obtain ⟨_, e⟩ | ⟨referenced, _⟩ | ⟨_, referenced, _⟩ := p.atMarkers_cases h
  · rw [e]
  all_goals exact absurd referenced (by simp [unreferenced])

theorem Chip.atMarkers_unit_clear (referenced : (p.unit h).referenced = true) (clear : (p.markerPass h).fault = none) :
    (p.atMarkers h).unit h = { (p.atPosition h).unit h with
      markers := (p.markerPass h).states, missRun := (p.markerPass h).run, missedMarkers := (p.markerPass h).missed } := by
  rw [p.atMarkers_eq, if_pos referenced, clear]
  exact Chip.updUnit_unit_self _ h _

theorem Chip.atMarkers_fault {zb : Nat} (referenced : (p.unit h).referenced = true) (fault : (p.markerPass h).fault = some zb) :
    (p.atMarkers h).unit h = { (p.atPosition h).unit h with
      referenced := false, markers := [], missRun := 0, missedMarkers := (p.markerPass h).missed } ∧
    (p.atMarkers h).hoist h = ((p.atClosed h).hoist h).faultTaken .position (p.markerDetail h zb) := by
  rw [p.atMarkers_eq, if_pos referenced, fault]
  simp only [Chip.takePositionFault_hoist, Chip.takePositionFault_unit]
  rw [Chip.markersPassed, Chip.updUnit_unit_self]
  exact ⟨rfl, rfl⟩

/-! ### The overspeed check (R162) -/

/-- The check speed of hoist `h`'s segment event. -/
def Chip.checkNow (p : Chip) (h : HoistId) : Nat :=
  max (p.sentMagnitude h) ((p.hoist h).checkSpeed - (p.hp h).aStep)

/-- The overspeed run that hoist `h`'s segment event makes. -/
def Chip.runNow (p : Chip) (h : HoistId) : Nat :=
  if p.checkNow h + (p.hp h).overspeedMargin < ((p.atPosition h).unit h).speed.natAbs then satInc 2 (p.hoist h).overspeedRun
  else 0

/-- The part after the overspeed check. -/
def Chip.atOverspeed (p : Chip) (h : HoistId) : Chip := (p.atMarkers h).overspeedCheck h

/-- The steps before the overspeed check leave what it reads of the controller. -/
theorem Chip.atMarkers_checks : ((p.atMarkers h).hoist h).checkSpeed = (p.hoist h).checkSpeed ∧
    ((p.atMarkers h).hoist h).overspeedRun = (p.hoist h).overspeedRun := by
  have closed : ((p.atClosed h).hoist h).checkSpeed = (p.hoist h).checkSpeed ∧
      ((p.atClosed h).hoist h).overspeedRun = (p.hoist h).overspeedRun := by
    rw [p.atClosed_hoist]
    split
    · obtain ⟨check, run⟩ := (p.hoist h).segmentTaken.faultTaken_checks .link none
      rw [check, run, HoistCtl.segmentTaken_eq]
      exact ⟨rfl, rfl⟩
    · rw [HoistCtl.segmentTaken_eq]
      exact ⟨rfl, rfl⟩
  obtain e | ⟨_, _, _, e⟩ := p.atMarkers_hoist h <;> rw [e]
  · exact closed
  · obtain ⟨check, run⟩ := ((p.atClosed h).hoist h).faultTaken_checks .position (p.markerDetail h ‹_›)
    exact ⟨check.trans closed.1, run.trans closed.2⟩

/-- The part with the check speed and the run of the overspeed check, before a fault. -/
def Chip.speedChecked (p : Chip) (h : HoistId) : Chip := (p.atMarkers h).updHoist h fun c =>
  { c with checkSpeed := p.checkNow h, overspeedRun := p.runNow h }

theorem Chip.atOverspeed_eq : p.atOverspeed h =
    if (p.hoist h).overspeedRun = 1 ∧ p.runNow h = 2 then (p.speedChecked h).takeFault h .overspeed none
    else p.speedChecked h := by
  obtain ⟨check, run⟩ := p.atMarkers_checks h
  have sent : (p.atMarkers h).sentMagnitude h = p.sentMagnitude h := by
    unfold Chip.sentMagnitude
    rw [p.atMarkers_link, p.atClosed_link, (LinkPort.atSegment_kept _ _).2]
  have speed : ((p.atMarkers h).unit h).speed = ((p.atPosition h).unit h).speed := by rw [p.atMarkers_unit]
  unfold Chip.atOverspeed Chip.overspeedCheck
  simp only [check, run, sent, speed, (p.atMarkers_step h).hp]
  rfl

theorem Chip.speedChecked_step : Chip.SegmentStep h (p.atMarkers h) (p.speedChecked h) :=
  .updHoist _ (.of_same id rfl rfl)

theorem Chip.atOverspeed_step : Chip.SegmentStep h (p.atMarkers h) (p.atOverspeed h) := by
  rw [p.atOverspeed_eq]
  split
  · exact (p.speedChecked_step h).trans (.takeFault _ _)
  · exact p.speedChecked_step h

theorem Chip.atOverspeed_unit : (p.atOverspeed h).unit h = (p.atMarkers h).unit h := by
  rw [p.atOverspeed_eq]
  split
  · rw [Chip.takeFault_unit]
    rfl
  · rfl

theorem Chip.atOverspeed_link : (p.atOverspeed h).link h = (p.atMarkers h).link h := by
  rw [p.atOverspeed_eq]
  split
  · rw [Chip.takeFault_link]
    rfl
  · rfl

theorem Chip.atOverspeed_survey : Chip.KeepsSurvey h p (p.atOverspeed h) := by
  have checked : Chip.KeepsSurvey h p (p.speedChecked h) := (p.atMarkers_survey h).trans (.of_bays fun _ => rfl)
  rw [p.atOverspeed_eq]
  split
  · exact checked.trans (.takeFault _ _)
  · exact checked

theorem Chip.speedChecked_hoist : (p.speedChecked h).hoist h =
    { (p.atMarkers h).hoist h with checkSpeed := p.checkNow h, overspeedRun := p.runNow h } := Chip.updHoist_hoist_self _ h _

theorem Chip.atOverspeed_checks : ((p.atOverspeed h).hoist h).checkSpeed = p.checkNow h ∧
    ((p.atOverspeed h).hoist h).overspeedRun = p.runNow h := by
  rw [p.atOverspeed_eq]
  split
  · obtain ⟨check, run⟩ := ((p.speedChecked h).hoist h).faultTaken_checks .overspeed none
    rw [Chip.takeFault_hoist, check, run, p.speedChecked_hoist]
    exact ⟨rfl, rfl⟩
  · rw [p.speedChecked_hoist]
    exact ⟨rfl, rfl⟩

/-- The second event in a row above the check speed faults the hoist. -/
theorem Chip.atOverspeed_hoist_of_fault (first : (p.hoist h).overspeedRun = 1) (second : p.runNow h = 2) :
    (p.atOverspeed h).hoist h = ((p.speedChecked h).hoist h).faultTaken .overspeed none := by
  rw [p.atOverspeed_eq, if_pos ⟨first, second⟩, Chip.takeFault_hoist]

/-! ### The active trip through the checks -/

/-- A fault leaves the leg and the source of the active trip. -/
theorem HoistCtl.faultTaken_trip (c : HoistCtl) (cause : FaultCause) (detail : Option Nat) {t : Trip} (active : c.active = some t) :
    ∃ t', (c.faultTaken cause detail).active = some t' ∧ t'.leg = t.leg ∧ t'.source = t.source := by
  obtain e | e := c.faultTaken_active cause detail <;> rw [e, active]
  · exact ⟨t, rfl, rfl, rfl⟩
  · exact ⟨_, rfl, rfl, rfl⟩

theorem Chip.atOverspeed_trip {t : Trip} (active : (p.hoist h).active = some t) :
    ∃ t', ((p.atOverspeed h).hoist h).active = some t' ∧ t'.leg = t.leg ∧ t'.source = t.source := by
  have closed : ∃ t', ((p.atClosed h).hoist h).active = some t' ∧ t'.leg = t.leg ∧ t'.source = t.source := by
    have taken : (p.hoist h).segmentTaken.active = some t := by rw [HoistCtl.segmentTaken_eq]; exact active
    rw [p.atClosed_hoist]
    split
    · exact HoistCtl.faultTaken_trip _ _ _ taken
    · exact ⟨t, taken, rfl, rfl⟩
  have passed : ∃ t', ((p.atMarkers h).hoist h).active = some t' ∧ t'.leg = t.leg ∧ t'.source = t.source := by
    obtain e | ⟨_, _, _, e⟩ := p.atMarkers_hoist h <;> rw [e]
    · exact closed
    · obtain ⟨t1, active1, leg1, source1⟩ := closed
      obtain ⟨t2, active2, leg2, source2⟩ := HoistCtl.faultTaken_trip _ .position (p.markerDetail h ‹_›) active1
      exact ⟨t2, active2, leg2.trans leg1, source2.trans source1⟩
  obtain ⟨t1, active1, leg1, source1⟩ := passed
  have checked : ((p.speedChecked h).hoist h).active = some t1 := by rw [p.speedChecked_hoist]; exact active1
  rw [p.atOverspeed_eq]
  split
  · rw [Chip.takeFault_hoist]
    obtain ⟨t2, active2, leg2, source2⟩ := HoistCtl.faultTaken_trip _ .overspeed none checked
    exact ⟨t2, active2, leg2.trans leg1, source2.trans source1⟩
  · exact ⟨t1, checked, leg1, source1⟩

/-! ### The clear-height check (R41) -/

/-- The part after the clear-height check. -/
def Chip.atHeight (p : Chip) (h : HoistId) : Chip := (p.atOverspeed h).clearHeightCheck h

theorem Chip.clearHeightCheck_unchangedBut (q : Chip) : q.unchangedBut (q.clearHeightCheck h) [.bays] := by
  unfold Chip.clearHeightCheck
  split
  · exact q.unchangedBut_refl _
  · split
    · exact q.barBay_unchangedBut _ _
    · exact q.unchangedBut_refl _

theorem Chip.atHeight_hoist : (p.atHeight h).hoist h = (p.atOverspeed h).hoist h :=
  congrArg (Quad.get · h) (Chip.clearHeightCheck_unchangedBut h _ .hoists (by decide))

theorem Chip.atHeight_unit : (p.atHeight h).unit h = (p.atOverspeed h).unit h :=
  congrArg (Quad.get · h) (Chip.clearHeightCheck_unchangedBut h _ .units (by decide))

theorem Chip.atHeight_link : (p.atHeight h).link h = (p.atOverspeed h).link h :=
  congrArg (Quad.get · h) (Chip.clearHeightCheck_unchangedBut h _ .links (by decide))

theorem Chip.SegmentStep.clearHeightCheck (q : Chip) : Chip.SegmentStep h q (q.clearHeightCheck h) := by
  have hoist : (q.clearHeightCheck h).hoist h = q.hoist h :=
    congrArg (Quad.get · h) (Chip.clearHeightCheck_unchangedBut h q .hoists (by decide))
  refine ⟨Chip.unchangedBut_mono (Chip.clearHeightCheck_unchangedBut h q) (by decide),
    fun k _ => congrArg (Quad.get · k) (Chip.clearHeightCheck_unchangedBut h q .hoists (by decide)),
    fun k _ => congrArg (Quad.get · k) (Chip.clearHeightCheck_unchangedBut h q .units (by decide)),
    fun k _ => congrArg (Quad.get · k) (Chip.clearHeightCheck_unchangedBut h q .links (by decide)), fun b => ?_,
    by rw [hoist]; exact .refl _⟩
  unfold Chip.clearHeightCheck
  split
  · exact ⟨rfl, rfl⟩
  · rename_i t _
    split
    · by_cases e : b = t.source
      · rw [e, Chip.barBay_bay_self]
        exact ⟨rfl, rfl⟩
      · rw [Chip.barBay_bay_of_ne _ _ _ _ e]
        exact ⟨rfl, rfl⟩
    · exact ⟨rfl, rfl⟩

theorem Chip.atHeight_step : Chip.SegmentStep h (p.atOverspeed h) (p.atHeight h) := .clearHeightCheck h _

/-- A source still held and left by its mass is barred beyond CLEAR_HEIGHT, and is else kept (R41). -/
theorem Chip.atHeight_source {t : Trip} (active : (p.hoist h).active = some t) (loaded : t.leg = .loaded)
    (held : p.holdsSource h .active t.source = true) (vacant : (p.bay t.source).occupant = none) :
    (p.atHeight h).bay t.source =
      if p.params.clearHeight < apart (p.elevationAt h (p.unit h).count) (p.elevationOf t.source) then
        { p.bay t.source with state := .barred, occupant := none, cause := some .foreign, holder := none }
      else p.bay t.source := by
  obtain ⟨t', active', leg, source⟩ := p.atOverspeed_trip h active
  have survey := p.atOverspeed_survey h
  have step := (p.atMarkers_step h).trans (p.atOverspeed_step h)
  have bay := survey.source t.source held
  have held' : (p.atOverspeed h).holdsSource h .active t.source = true := by rwa [Chip.holdsSource, bay]
  have z : ((p.atOverspeed h).unit h).elevation = p.elevationAt h (p.unit h).count := by
    rw [p.atOverspeed_unit, p.atMarkers_unit, p.atPosition_unit]
  unfold Chip.atHeight Chip.clearHeightCheck
  simp only [active', leg, loaded, source, held', bay, vacant, step.params, survey.elevationOf, z, true_and]
  split
  · rw [Chip.barBay_bay_self, bay]
  · exact bay

end

end Sys2Proof.Machine
end

section
/-! SUPPORT. The end of the segment event: the phase tests (spec/05 R94 to R96), the reference and the message that carries it (spec/07 R145 to
R152, spec/08 R157), and what the end of the event leaves of them. -/

namespace Sys2Proof.Machine

/-! ### The phase tests -/

/-- A step of the phase tests: it touches of the part the controller of hoist `h`, and of that neither the fault record, nor the staged slot,
nor the overspeed items. -/
structure Chip.PhaseStep (h : HoistId) (p q : Chip) : Prop where
  parts : p.unchangedBut q [.hoists]
  fault : (q.hoist h).fault = (p.hoist h).fault
  staged : (q.hoist h).staged = (p.hoist h).staged
  checkSpeed : (q.hoist h).checkSpeed = (p.hoist h).checkSpeed
  overspeedRun : (q.hoist h).overspeedRun = (p.hoist h).overspeedRun

namespace Chip.PhaseStep

variable {h : HoistId} {p q r : Chip}

theorem refl (h : HoistId) (p : Chip) : PhaseStep h p p := ⟨p.unchangedBut_refl _, rfl, rfl, rfl, rfl⟩

theorem trans (x : PhaseStep h p q) (y : PhaseStep h q r) : PhaseStep h p r where
  parts := Chip.unchangedBut_trans x.parts y.parts
  fault := y.fault.trans x.fault
  staged := y.staged.trans x.staged
  checkSpeed := y.checkSpeed.trans x.checkSpeed
  overspeedRun := y.overspeedRun.trans x.overspeedRun

theorem updHoist (f : HoistCtl → HoistCtl) (fault : (f (p.hoist h)).fault = (p.hoist h).fault)
    (staged : (f (p.hoist h)).staged = (p.hoist h).staged) (checkSpeed : (f (p.hoist h)).checkSpeed = (p.hoist h).checkSpeed)
    (overspeedRun : (f (p.hoist h)).overspeedRun = (p.hoist h).overspeedRun) : PhaseStep h p (p.updHoist h f) where
  parts := fun x out => by cases x <;> simp at out <;> rfl
  fault := by rw [Chip.updHoist_hoist_self, fault]
  staged := by rw [Chip.updHoist_hoist_self, staged]
  checkSpeed := by rw [Chip.updHoist_hoist_self, checkSpeed]
  overspeedRun := by rw [Chip.updHoist_hoist_self, overspeedRun]

theorem enterPhase (phase : Phase) : PhaseStep h p (p.enterPhase h phase) := updHoist _ rfl rfl rfl rfl

theorem enterEngage : PhaseStep h p (p.enterEngage h) :=
  ((enterPhase _).trans (updHoist _ rfl rfl rfl rfl)).trans (updHoist _ rfl rfl rfl rfl)

theorem enterRelease : PhaseStep h p (p.enterRelease h) :=
  ((enterPhase _).trans (updHoist _ rfl rfl rfl rfl)).trans (updHoist _ rfl rfl rfl rfl)

theorem approachTest (t : Trip) : PhaseStep h p (p.approachTest h t) := by
  unfold Chip.approachTest
  split
  · split
    · exact enterEngage
    · exact enterRelease
  · exact refl _ _

theorem travelTest (previous : Int) (t : Trip) : PhaseStep h p (p.travelTest h previous t) := by
  unfold Chip.travelTest
  split
  · exact ((enterPhase _).trans (updHoist _ rfl rfl rfl rfl)).trans (approachTest t)
  · split
    · exact (enterPhase _).trans (updHoist _ rfl rfl rfl rfl)
    · exact refl _ _

theorem phaseTest (previous : Int) : PhaseStep h p (p.phaseTest h previous) := by
  unfold Chip.phaseTest
  split
  · exact refl _ _
  · split
    · exact travelTest _ _
    · exact approachTest _
    · split
      · exact enterPhase _
      · exact refl _ _
    · exact refl _ _

end Chip.PhaseStep

/-- A FAULTED hoist makes no phase test. -/
theorem Chip.phaseTest_of_faulted (p : Chip) (h : HoistId) (previous : Int) (faulted : (p.hoist h).phase = .faulted) :
    p.phaseTest h previous = p := by
  unfold Chip.phaseTest
  rw [faulted]
  split <;> rfl

theorem Chip.SegmentStep.phaseTest {h : HoistId} {p : Chip} (previous : Int) : SegmentStep h p (p.phaseTest h previous) :=
  have step : PhaseStep h p (p.phaseTest h previous) := .phaseTest previous
  .of_frame (.phaseTest previous) (.of_bays fun b => congrArg (·.get b) (step.parts .bays (by decide)))
    (.of_same (fun faulted => by rw [p.phaseTest_of_faulted h previous faulted, faulted]) step.fault step.staged)

/-! ### The reference (R145 to R152) -/

/-- The ramp ends within any bound on the target that the step down from the reference before keeps to (R146, R150). -/
theorem ramp_natAbs_le {step limit : Nat} (capped : Bool) {r t : Int} (target : t.natAbs ≤ limit) (slowed : r.natAbs - step ≤ limit) :
    (ramp step capped r t).natAbs ≤ limit := by
  have signed : ∀ (x : Int) (n : Nat), (x.sign * (n : Int)).natAbs ≤ n := fun x n => by
    rw [Int.natAbs_mul, Int.natAbs_natCast]
    calc x.sign.natAbs * n ≤ 1 * n := Nat.mul_le_mul_right n (by rcases Int.sign_trichotomy x with e | e | e <;> simp [e])
      _ = n := Nat.one_mul n
  unfold ramp
  split
  · exact (signed _ _).trans slowed
  · split
    · exact (signed _ _).trans ((Nat.min_le_right _ _).trans target)
    · split
      · split
        · exact target
        · exact (signed _ _).trans (Nat.max_le.mpr ⟨slowed, target⟩)
      · exact target

section
variable (p : Chip) (h : HoistId) (previous : Int) (phase : Phase)

theorem Chip.targetSign_mul_natAbs_le (t : Trip) (n : Nat) : (p.targetSign h t * (n : Int)).natAbs ≤ n := by
  unfold Chip.targetSign
  generalize ((p.elevationOf t.target : Int) - (p.unit h).elevation) = x
  rcases Int.sign_trichotomy x with e | e | e <;> simp [e]

/-- The reference is within v_lim as the event moves it (R146). -/
theorem Chip.referenceFor_natAbs_le : (p.referenceFor h previous phase).natAbs ≤ p.movedLimit h previous := by
  have slowed : previous.natAbs - (p.hp h).aStep ≤ p.movedLimit h previous := Nat.le_max_right _ _
  have target : ∀ (t : Trip) (n : Nat),
      (p.targetSign h t * (min n (p.movedLimit h previous) : Nat)).natAbs ≤ p.movedLimit h previous := fun t n =>
    (p.targetSign_mul_natAbs_le h t _).trans (Nat.min_le_right _ _)
  unfold Chip.referenceFor
  simp only
  split
  · exact Nat.zero_le _
  · split
    · exact Nat.zero_le _
    · split
      · exact ramp_natAbs_le _ (target _ _) slowed
      · exact ramp_natAbs_le _ (target _ _) slowed
      · exact Nat.zero_le _

/-- The reference is 0 while the brake is SET (R152). -/
theorem Chip.referenceFor_of_set (set : p.brakeIn h phase = .set) : p.referenceFor h previous phase = 0 := by
  unfold Chip.referenceFor
  simp only
  split
  · rfl
  · rw [if_pos set]

end

/-! ### The message (R157) -/

section
variable (p : Chip) (h : HoistId) (previous : Int)

theorem Chip.SegmentStep.sendReference : SegmentStep h p (p.sendReference h previous) := by
  unfold Chip.sendReference
  exact (SegmentStep.updHoist _ (.of_same id rfl rfl)).trans (.updLink _)

/-- The reference that the message of a segment event carries. -/
def Chip.sentReference (p : Chip) (h : HoistId) (previous : Int) : Int := p.referenceFor h previous (p.hoist h).phase

theorem Chip.sendReference_hoist : (p.sendReference h previous).hoist h = { p.hoist h with
    vLim := p.movedLimit h previous, speedRef := p.sentReference h previous, brake := p.brakeLaw h
    shareRead := p.power.share.get h, served := p.servedFor h (p.sentReference h previous) } := by
  simp only [Chip.sendReference, Chip.updLink_hoist, Chip.updHoist_hoist_self]
  rfl

theorem Chip.sendReference_link : (p.sendReference h previous).link h = { p.link h with
    sent := some { hoist := h, speed := p.sentReference h previous, brake := p.brakeLaw h
                   latch := (p.hoist h).latchCommand } } := Chip.updLink_link_self _ h _

/-- The message does not move the brake law. -/
theorem Chip.sendReference_brakeLaw : (p.sendReference h previous).brakeLaw h = p.brakeLaw h := by
  have interlock : (p.sendReference h previous).interlock = p.interlock := rfl
  unfold Chip.brakeLaw Chip.brakeIn
  rw [Chip.sendReference_hoist, Chip.sendReference_link, interlock]
  rfl

/-- The end of the event leaves the reference and the brake command that the message carries. -/
theorem Chip.finish_sendReference_hoist (before : Chip) : (before.finish (p.sendReference h previous)).hoist h = { p.hoist h with
    able := (p.sendReference h previous).ableLaw h, vLim := p.movedLimit h previous
    speedRef := p.sentReference h previous, brake := p.brakeLaw h
    shareRead := p.power.share.get h, served := p.servedFor h (p.sentReference h previous) } := by
  have reference : (if p.brakeLaw h = .set then 0 else p.sentReference h previous) = p.sentReference h previous := by
    split
    · rename_i set
      exact (p.referenceFor_of_set h previous _ set).symm
    · rfl
  rw [Chip.finish_hoist_eq, Chip.sendReference_brakeLaw, Chip.sendReference_hoist]
  simp only [reference]

end

/-! ### The end of the segment event -/

section
variable (p : Chip) (h : HoistId)

/-- The part after the phase tests. -/
def Chip.atPhase (p : Chip) (h : HoistId) : Chip := (p.atHeight h).phaseTest h (p.hoist h).speedRef

/-- The part after the segment event and the end of it. -/
def Chip.afterSegment (p : Chip) (h : HoistId) : Chip := p.finish (p.segment h)

theorem Chip.segment_eq : p.segment h = (p.atPhase h).sendReference h (p.hoist h).speedRef := rfl

theorem Chip.atPhase_step : Chip.SegmentStep h (p.atOverspeed h) (p.atPhase h) :=
  (p.atHeight_step h).trans (.phaseTest _)

theorem Chip.atPhase_from : Chip.SegmentStep h p (p.atPhase h) :=
  ((p.atMarkers_step h).trans (p.atOverspeed_step h)).trans (p.atPhase_step h)

theorem Chip.segment_step : Chip.SegmentStep h p (p.segment h) := (p.atPhase_from h).trans (.sendReference _ h _)

theorem Chip.atPhase_checks : Chip.PhaseStep h (p.atHeight h) (p.atPhase h) := .phaseTest _

theorem Chip.atPhase_link : (p.atPhase h).link h = (p.link h).atSegment p.params.linkTimeout := by
  have tested : (p.atPhase h).link h = (p.atHeight h).link h := congrArg (Quad.get · h) ((p.atPhase_checks h).parts .links (by decide))
  rw [tested, p.atHeight_link, p.atOverspeed_link, p.atMarkers_link, p.atClosed_link]

theorem Chip.afterSegment_hoist : (p.afterSegment h).hoist h = { (p.atPhase h).hoist h with
    able := (p.segment h).ableLaw h, vLim := (p.atPhase h).movedLimit h (p.hoist h).speedRef
    speedRef := (p.atPhase h).sentReference h (p.hoist h).speedRef, brake := (p.atPhase h).brakeLaw h
    shareRead := (p.atPhase h).power.share.get h
    served := (p.atPhase h).servedFor h ((p.atPhase h).sentReference h (p.hoist h).speedRef) } :=
  Chip.finish_sendReference_hoist _ h _ p

theorem Chip.afterSegment_unit : (p.afterSegment h).unit h = (p.atMarkers h).unit h := by
  have tested : (p.atPhase h).unit h = (p.atHeight h).unit h := congrArg (Quad.get · h) ((p.atPhase_checks h).parts .units (by decide))
  have sent : (p.segment h).unit h = (p.atPhase h).unit h := rfl
  rw [Chip.afterSegment, Chip.finish_unit, sent, tested, p.atHeight_unit, p.atOverspeed_unit]

theorem Chip.afterSegment_link : (p.afterSegment h).link h = { (p.link h).atSegment p.params.linkTimeout with
    sent := some { hoist := h, speed := ((p.afterSegment h).hoist h).speedRef, brake := ((p.afterSegment h).hoist h).brake
                   latch := ((p.afterSegment h).hoist h).latchCommand } } := by
  rw [p.afterSegment_hoist, Chip.afterSegment, Chip.finish_link, p.segment_eq, Chip.sendReference_link, p.atPhase_link]

theorem Chip.afterSegment_bay (b : BayId) : (p.afterSegment h).bay b = (p.atHeight h).bay b := by
  have tested : (p.atPhase h).bay b = (p.atHeight h).bay b := congrArg (·.get b) ((p.atPhase_checks h).parts .bays (by decide))
  have sent : (p.segment h).bay b = (p.atPhase h).bay b := rfl
  rw [Chip.afterSegment, Chip.finish_bay, sent, tested]

/-- A fault taken by the checks stays to the end of the event. -/
theorem Chip.afterSegment_stays : ((p.atOverspeed h).hoist h).StaysFaulted ((p.afterSegment h).hoist h) :=
  (p.atPhase_step h).stays.trans (by rw [p.afterSegment_hoist]; exact .of_same id rfl rfl)

theorem Chip.afterSegment_checks : ((p.afterSegment h).hoist h).checkSpeed = p.checkNow h ∧
    ((p.afterSegment h).hoist h).overspeedRun = p.runNow h := by
  obtain ⟨check, run⟩ := p.atOverspeed_checks h
  have step := p.atPhase_checks h
  rw [p.afterSegment_hoist]
  exact ⟨by rw [← check, ← p.atHeight_hoist, ← step.checkSpeed], by rw [← run, ← p.atHeight_hoist, ← step.overspeedRun]⟩

end

end Sys2Proof.Machine
end

section
/-! SUPPORT. What a segment event leaves, clause by clause, as the statement of it says: the expected markers, the pass over them, the faults, and
the controller, the unit and the link after the event. -/

namespace Sys2Proof.Machine

/-! ### Expected markers (R76) -/

theorem mem_insertRising (e x : Nat) (l : List Nat) : x ∈ insertRising e l ↔ x = e ∨ x ∈ l := by
  induction l with
  | nil => simp [insertRising]
  | cons y ys ih =>
    unfold insertRising
    split
    · simp
    · split
      · rename_i same
        simp [same]
      · rw [List.mem_cons, ih, List.mem_cons]
        tauto

theorem insertRising_pairwise (e : Nat) (l : List Nat) (rising : l.Pairwise (· < ·)) : (insertRising e l).Pairwise (· < ·) := by
  induction l with
  | nil => simp [insertRising]
  | cons y ys ih =>
    obtain ⟨head, tail⟩ := List.pairwise_cons.mp rising
    unfold insertRising
    split
    · rename_i below
      exact List.pairwise_cons.mpr ⟨fun x mem => by
        obtain rfl | later := List.mem_cons.mp mem
        · exact below
        · exact below.trans (head x later), rising⟩
    · split
      · exact rising
      · refine List.pairwise_cons.mpr ⟨fun x mem => ?_, ih tail⟩
        obtain rfl | later := (mem_insertRising _ _ _).mp mem
        · omega
        · exact head x later

theorem foldl_insertRising (f : BayId → Nat) (bays : List BayId) (l : List Nat) (rising : l.Pairwise (· < ·)) :
    (bays.foldl (fun l b => insertRising (f b) l) l).Pairwise (· < ·) ∧
    ∀ e, e ∈ bays.foldl (fun l b => insertRising (f b) l) l ↔ e ∈ l ∨ ∃ b ∈ bays, f b = e := by
  induction bays generalizing l with
  | nil => exact ⟨rising, fun e => by simp⟩
  | cons b bs ih =>
    obtain ⟨pairwise, mem⟩ := ih (insertRising (f b) l) (insertRising_pairwise _ _ rising)
    refine ⟨pairwise, fun e => ?_⟩
    rw [List.foldl_cons, mem, mem_insertRising, List.exists_mem_cons_iff, eq_comm (a := e)]
    tauto

section
variable (p : Chip) (h : HoistId)

theorem Chip.expectedMarkers_pairwise : (p.expectedMarkers h).Pairwise (· < ·) :=
  (foldl_insertRising _ _ _ List.Pairwise.nil).1

/-- A bay with an expected marker at `e`. -/
theorem Chip.marks_at_iff (b : BayId) (e : Nat) :
    (p.marks h b = true ∧ p.elevationOf b = e) ↔ (p.bay b).elevation = some e ∧ p.reaches h b = true := by
  unfold Chip.marks Chip.elevationOf
  cases (p.bay b).elevation <;> simp [and_comm]

theorem Chip.mem_expectedMarkers (e : Nat) :
    e ∈ p.expectedMarkers h ↔ ∃ b, (p.bay b).elevation = some e ∧ p.reaches h b = true := by
  have mem := (foldl_insertRising p.elevationOf (bayList.filter (p.marks h)) [] List.Pairwise.nil).2 e
  refine mem.trans ?_
  simp only [List.not_mem_nil, false_or, List.mem_filter, bayList, List.mem_finRange, true_and, p.marks_at_iff]

/-- The bay that names a marker is the one `markerBay` finds. -/
theorem Chip.markerBay_of_namesMarker {e : Nat} {b : BayId} (names : p.namesMarker h e b) : p.markerBay h e = some b := by
  obtain ⟨elevation, reaches, lowest⟩ := names
  have at_iff : ∀ k, (p.marks h k && decide (p.elevationOf k = e)) = true ↔ (p.bay k).elevation = some e ∧ p.reaches h k = true :=
    fun k => by rw [Bool.and_eq_true, decide_eq_true_iff, p.marks_at_iff]
  refine bayList_find?_eq_some ((at_iff b).mpr ⟨elevation, reaches⟩) fun k below => ?_
  rw [Bool.eq_false_iff, Ne, at_iff]
  exact fun ⟨elevation', reaches'⟩ => absurd (lowest k elevation' reaches') (not_le.mpr below)

theorem Chip.markerDetail_of_namesMarker {e : Nat} {b : BayId} (names : p.namesMarker h e b) : p.markerDetail h e = some b.val := by
  unfold Chip.markerDetail
  rw [(p.markersPassed_survey h).markerBay h e, p.markerBay_of_namesMarker h names]
  rfl

end

/-! ### The pass over the expected markers (R80, R81) -/

theorem markerList_eq_filter (state : Nat → MarkerState) (expected : List Nat) :
    (expected.map fun e => (e, state e)).filter (fun x => decide (x.2 ≠ .idle)) = markerList state expected := by
  induction expected with
  | nil => rfl
  | cons e es ih => by_cases idle : state e = .idle <;> simpa [markerList, idle] using ih

section
variable {slip zp z : Nat} {states after : Nat → MarkerState} {missed : Nat → Bool} {expected : List Nat}
  (rule : ∀ e ∈ expected, markerRule slip zp z e (states e) (after e) (missed e))
include rule

theorem missedOf_of_rule : missedOf slip zp z states expected = expected.filter missed :=
  List.filter_congr fun e mem => by rw [checkMarker_of_markerRule _ _ _ _ _ _ _ (rule e mem)]

/-- The states after a pass without a fault. -/
theorem markerState_of_rule (e : Nat) :
    markerState ((expected.map fun e => (e, (checkMarker slip zp z e (states e)).1)).filter fun x => decide (x.2 ≠ .idle)) e =
      if e ∈ expected then after e else .idle := by
  rw [markerList_eq_filter fun e => (checkMarker slip zp z e (states e)).1, markerState_markerList]
  refine ite_congr rfl (fun mem => ?_) fun _ => rfl
  rw [checkMarker_of_markerRule _ _ _ _ _ _ _ (rule e mem)]

end

/-! ### The faults of a segment event -/

section
variable {c c' : HoistCtl} {cause : FaultCause} {detail : Option Nat} (stays : (c.faultTaken cause detail).StaysFaulted c')
include stays

theorem HoistCtl.StaysFaulted.faulted : c'.phase = .faulted := stays.phase (c.faultTaken_phase cause detail)

/-- A fault that enters FAULTED, as the record shows it while it stays (R165). -/
theorem HoistCtl.StaysFaulted.entered (notFaulted : c.phase ≠ .faulted) : c'.staged = none ∧ c'.fault.first = some cause ∧
    c'.fault.detail = detail ∧ c'.fault.phaseAt = some c.workPhase ∧ c'.fault.count = satInc 255 c.fault.count := by
  have taken := c.faultTaken_phase cause detail
  obtain ⟨staged, fault⟩ := c.faultTaken_entry cause detail notFaulted
  rw [stays.staged taken, stays.first taken, stays.detail taken, stays.phaseAt taken, stays.count taken, staged, fault]
  exact ⟨rfl, rfl, rfl, rfl, rfl⟩

/-- A further cause on a FAULTED hoist, as the record shows it while it stays (R166). -/
theorem HoistCtl.StaysFaulted.joined (faulted : c.phase = .faulted) : c'.hasFurther cause :=
  stays.further (c.faultTaken_phase cause detail) cause (c.faultTaken_further cause detail faulted)

end

theorem HoistCtl.segmentTaken_phase (c : HoistCtl) : c.segmentTaken.phase = c.phase := by rw [HoistCtl.segmentTaken_eq]

theorem HoistCtl.segmentTaken_fault (c : HoistCtl) : c.segmentTaken.fault = c.fault := by rw [HoistCtl.segmentTaken_eq]

theorem HoistCtl.segmentTaken_workPhase (c : HoistCtl) : c.segmentTaken.workPhase = c.workPhase := by
  rw [HoistCtl.segmentTaken_eq]
  rfl

section
variable (p : Chip) (h : HoistId)

theorem Chip.atMarkers_stays : ((p.atMarkers h).hoist h).StaysFaulted ((p.afterSegment h).hoist h) :=
  (p.atOverspeed_step h).stays.trans (p.afterSegment_stays h)

theorem Chip.atClosed_stays : ((p.atClosed h).hoist h).StaysFaulted ((p.afterSegment h).hoist h) := by
  refine .trans ?_ (p.atMarkers_stays h)
  obtain e | ⟨_, _, _, e⟩ := p.atMarkers_hoist h <;> rw [e]
  · exact .refl _
  · exact HoistCtl.faultTaken_stays _ _ _

/-- What the event finds of a FAULTED hoist stays. -/
theorem Chip.segment_stays : (p.hoist h).StaysFaulted ((p.afterSegment h).hoist h) :=
  (p.atClosed_step h).stays.trans (p.atClosed_stays h)

/-- The link fault of R160. -/
theorem Chip.afterSegment_linkFault (faults : p.linkFaults h = true) : ((p.afterSegment h).hoist h).phase = .faulted ∧
    ((p.hoist h).phase ≠ .faulted → ((p.afterSegment h).hoist h).staged = none ∧
      ((p.afterSegment h).hoist h).fault.first = some .link ∧ ((p.afterSegment h).hoist h).fault.detail = none ∧
      ((p.afterSegment h).hoist h).fault.phaseAt = some (p.hoist h).workPhase ∧
      ((p.afterSegment h).hoist h).fault.count = satInc 255 (p.hoist h).fault.count) ∧
    ((p.hoist h).phase = .faulted → ((p.afterSegment h).hoist h).fault.first = (p.hoist h).fault.first ∧
      ((p.afterSegment h).hoist h).hasFurther .link) := by
  have stays := p.atClosed_stays h
  rw [p.atClosed_hoist, if_pos faults] at stays
  refine ⟨stays.faulted, fun notFaulted => ?_, fun faulted => ⟨(p.segment_stays h).first faulted, stays.joined ?_⟩⟩
  · have entered := stays.entered (by rwa [HoistCtl.segmentTaken_phase])
    rwa [HoistCtl.segmentTaken_workPhase, HoistCtl.segmentTaken_fault] at entered
  · rwa [HoistCtl.segmentTaken_phase]

/-- The closing leaves a hoist without a fault where it finds it without one and the link gives none. -/
theorem Chip.atClosed_notFaulted (notFaulted : (p.hoist h).phase ≠ .faulted) (noLink : p.linkFaults h = false) :
    ((p.atClosed h).hoist h).phase ≠ .faulted := by
  rw [p.atClosed_hoist, noLink]
  rwa [← HoistCtl.segmentTaken_phase] at notFaulted

theorem Chip.atClosed_faulted (fault : (p.hoist h).phase = .faulted ∨ p.linkFaults h = true) :
    ((p.atClosed h).hoist h).phase = .faulted := by
  obtain faulted | faults := fault
  · exact (p.atClosed_step h).stays.phase faulted
  · rw [p.atClosed_hoist, if_pos faults, HoistCtl.faultTaken_phase]

/-- The POSITION fault at a marker (R81). -/
theorem Chip.afterSegment_positionFault {zb : Nat} (referenced : (p.unit h).referenced = true)
    (fault : (p.markerPass h).fault = some zb) : ((p.afterSegment h).hoist h).phase = .faulted ∧
    ((p.hoist h).phase ≠ .faulted → p.linkFaults h = false → ((p.afterSegment h).hoist h).fault.first = some .position ∧
      ((p.afterSegment h).hoist h).fault.detail = p.markerDetail h zb) ∧
    ((p.hoist h).phase = .faulted ∨ p.linkFaults h = true → ((p.afterSegment h).hoist h).hasFurther .position) := by
  have stays := p.atMarkers_stays h
  rw [(p.atMarkers_fault h referenced fault).2] at stays
  refine ⟨stays.faulted, fun notFaulted noLink => ?_, fun before => stays.joined (p.atClosed_faulted h before)⟩
  obtain ⟨_, first, detail, _⟩ := stays.entered (p.atClosed_notFaulted h notFaulted noLink)
  exact ⟨first, detail⟩

theorem Chip.afterSegment_fault : ((p.afterSegment h).hoist h).fault = ((p.atOverspeed h).hoist h).fault := by
  rw [p.afterSegment_hoist, ← p.atHeight_hoist, ← (p.atPhase_checks h).fault]

/-- The OVERSPEED fault (R162). -/
theorem Chip.afterSegment_overspeedFault (first : (p.hoist h).overspeedRun = 1) (second : p.runNow h = 2) :
    ((p.afterSegment h).hoist h).phase = .faulted ∧
    (((p.afterSegment h).hoist h).fault.first = some .overspeed ∨ ((p.afterSegment h).hoist h).hasFurther .overspeed) ∧
    ((p.hoist h).phase ≠ .faulted → p.linkFaults h = false → (p.unit h).referenced = false →
      ((p.afterSegment h).hoist h).fault = { first := some .overspeed, detail := none, phaseAt := some (p.hoist h).workPhase
                                             further := some 0, count := satInc 255 (p.hoist h).fault.count }) := by
  have taken := p.atOverspeed_hoist_of_fault h first second
  have stays := p.afterSegment_stays h
  rw [taken] at stays
  refine ⟨stays.faulted, ?_, fun notFaulted noLink unreferenced => ?_⟩
  · by_cases faulted : ((p.speedChecked h).hoist h).phase = .faulted
    · exact .inr (stays.joined faulted)
    · exact .inl (stays.entered faulted).2.1
  · have clear : (p.speedChecked h).hoist h =
        { (p.hoist h).segmentTaken with checkSpeed := p.checkNow h, overspeedRun := p.runNow h } := by
      obtain e | ⟨_, referenced, _⟩ := p.atMarkers_hoist h
      · rw [p.speedChecked_hoist, e, p.atClosed_hoist, noLink]
        rfl
      · exact absurd referenced (by simp [unreferenced])
    rw [p.afterSegment_fault, taken, clear]
    refine (HoistCtl.faultTaken_entry _ _ _ (by rwa [← HoistCtl.segmentTaken_phase] at notFaulted)).2.trans ?_
    rw [← (p.hoist h).segmentTaken_workPhase, ← (p.hoist h).segmentTaken_fault]
    rfl

end

end Sys2Proof.Machine
end

section
/-! SUPPORT. The obligation on SEGMENT_EVENT (spec/03 R50). -/

namespace Sys2Proof.Machine

section
variable (p : Chip) (h : HoistId)

/-! ### The parts -/

theorem Chip.afterSegment_unchangedBut : p.unchangedBut (p.afterSegment h)
    [.masses, .bays, .units, .hoists, .selector, .orders, .power, .links, .port] :=
  Chip.unchangedBut_trans (Chip.unchangedBut_mono (p.segment_step h).parts (by decide))
    (Chip.unchangedBut_mono (Chip.finish_unchangedBut p (p.segment h)) (by decide))

theorem Chip.afterSegment_otherUnits : p.otherUnitsSame (p.afterSegment h) h := fun k ne =>
  (Chip.finish_unit p _ k).trans ((p.segment_step h).units k ne)

theorem Chip.afterSegment_otherLinks : p.otherLinksSame (p.afterSegment h) h := fun k ne =>
  (Chip.finish_link p _ k).trans ((p.segment_step h).links k ne)

theorem Chip.Kept.afterSegment_otherHoists {p : Chip} (kept : p.Kept) : p.otherHoistsSame (p.afterSegment h) h :=
  have step := p.segment_step h
  kept.finish_otherHoistsSame step.hoists step.links step.units (Chip.interlock_of_sensors (step.parts .sensors (by decide)))

/-! ### The link (R157, R160) -/

/-- A hoist whose link is not UP after the event stands with its brake SET. -/
theorem Chip.afterSegment_notUp (notUp : ((p.afterSegment h).link h).state ≠ .up) : ((p.afterSegment h).hoist h).able = false ∧
    ((p.afterSegment h).hoist h).brake = .set ∧ ((p.afterSegment h).hoist h).speedRef = 0 := by
  have brake : ((p.afterSegment h).hoist h).brake = .set := by
    refine (Chip.finish_brake p (p.segment h) h).trans ?_
    exact if_neg fun released => notUp released.2.1
  refine ⟨(Chip.finish_able p (p.segment h) h).trans ?_, brake, Chip.finish_stopped p (p.segment h) h brake⟩
  exact decide_eq_false fun able => notUp able.1

theorem Chip.afterSegment_lost (lost : ((p.afterSegment h).link h).state = .lost) :
    (p.afterSegment h).port.attention.linkLost = true := by
  have listed : ∀ k : HoistId, k ∈ hoistList := by decide
  rw [Chip.afterSegment, Chip.finish_attention]
  exact List.any_eq_true.mpr ⟨h, listed h, decide_eq_true lost⟩

/-! ### The position (R72, R73) -/

/-- The clamp moves an elevation outside the range of R72, and no other. -/
theorem clampElevation_ne_iff (x : Int) : (clampElevation x : Int) ≠ x ↔ x < 0 ∨ 1048575 < x := by
  unfold clampElevation
  omega

/-- The unit after the event: its position, and what the marker checks leave. -/
theorem Chip.afterSegment_unit_eq : (p.afterSegment h).unit h = { p.unit h with
    previousCount := (p.unit h).count, illegal := 0, elevation := p.elevationAt h (p.unit h).count
    speed := ((p.elevationAt h (p.unit h).count : Int) - p.elevationAt h (p.unit h).previousCount) * 20
    rangeCount := if (p.elevationAt h (p.unit h).count : Int) ≠ p.exactElevation h (p.unit h).count then
      satInc16 (p.unit h).rangeCount else (p.unit h).rangeCount
    referenced := ((p.afterSegment h).unit h).referenced, markers := ((p.afterSegment h).unit h).markers
    missRun := ((p.afterSegment h).unit h).missRun, missedMarkers := ((p.afterSegment h).unit h).missedMarkers } := by
  rw [p.afterSegment_unit]
  conv_lhs => rw [p.atMarkers_unit, p.atPosition_unit]

/-- What a unit shows of the position that hoist `h`'s segment event computes. -/
structure Chip.ShowsPosition (p : Chip) (h : HoistId) (u : PositionUnit) : Prop where
  previousCount : u.previousCount = (p.unit h).count
  illegal : u.illegal = 0
  elevation : u.elevation = p.elevationAt h (p.unit h).count
  speed : u.speed = ((p.elevationAt h (p.unit h).count : Int) - p.elevationAt h (p.unit h).previousCount) * 20
  rangeCount : u.rangeCount = if p.exactElevation h (p.unit h).count < 0 ∨ 1048575 < p.exactElevation h (p.unit h).count then
    satInc16 (p.unit h).rangeCount else (p.unit h).rangeCount
  rest : u = { p.unit h with
    previousCount := u.previousCount, illegal := 0, elevation := u.elevation, speed := u.speed, rangeCount := u.rangeCount
    referenced := u.referenced, markers := u.markers, missRun := u.missRun, missedMarkers := u.missedMarkers }

theorem Chip.afterSegment_showsPosition : p.ShowsPosition h ((p.afterSegment h).unit h) := by
  have eq := p.afterSegment_unit_eq h
  generalize (p.afterSegment h).unit h = u at eq
  constructor
  case rangeCount =>
    rw [eq]
    exact if_congr (clampElevation_ne_iff _) rfl rfl
  all_goals rw [eq]

/-! ### The reference (R145 to R152) and the served power (R148) -/

theorem Chip.atPhase_movedLimit (previous : Int) : (p.atPhase h).movedLimit h previous = p.movedLimit h previous := by
  unfold Chip.movedLimit
  rw [(p.atPhase_from h).hp]

theorem Chip.afterSegment_limited :
    ((p.afterSegment h).hoist h).vLim = max (p.hp h).gearLimit ((p.hoist h).speedRef.natAbs - (p.hp h).aStep) ∧
    ((p.afterSegment h).hoist h).speedRef.natAbs ≤ ((p.afterSegment h).hoist h).vLim := by
  rw [p.afterSegment_hoist]
  exact ⟨p.atPhase_movedLimit h _, Chip.referenceFor_natAbs_le _ h _ _⟩

/-- The load that the served power is computed with is that of the part after the event. -/
theorem Chip.afterSegment_loadM : (p.afterSegment h).loadM h = (p.atPhase h).loadM h := by
  have last : ((p.afterSegment h).link h).last = ((p.atPhase h).link h).last := by rw [p.afterSegment_link, p.atPhase_link]
  refine Chip.loadM_congr ?_ ?_ ?_ last ((Chip.finish_hp p _ h).trans rfl) <;> rw [p.afterSegment_hoist]

theorem Chip.afterSegment_served : ((p.afterSegment h).hoist h).shareRead = p.power.share.get h ∧
    ((p.afterSegment h).hoist h).served = if p.power.eligible.get h = true then
      (p.afterSegment h).loadM h * p.params.gravity * ((p.afterSegment h).hoist h).speedRef.natAbs / 1000000000 else 0 := by
  have step := p.atPhase_from h
  rw [p.afterSegment_loadM, p.afterSegment_hoist, ← step.power, ← step.params]
  exact ⟨rfl, rfl⟩

/-! ### The checks (R162, R41) -/

theorem Chip.sentMagnitude_eq : p.sentMagnitude h = (p.link h).sent.elim 0 fun m => m.speed.natAbs := by
  unfold Chip.sentMagnitude
  cases (p.link h).sent <;> rfl

theorem Chip.runNow_eq : p.runNow h =
    if p.checkNow h + (p.hp h).overspeedMargin < ((p.afterSegment h).unit h).speed.natAbs then satInc 2 (p.hoist h).overspeedRun
    else 0 := by
  rw [(p.afterSegment_showsPosition h).speed, Chip.runNow, p.atPosition_unit]

theorem Chip.afterSegment_source {t : Trip} (active : (p.hoist h).active = some t) (loaded : t.leg = .loaded)
    (held : p.holdsSource h .active t.source = true) (vacant : (p.bay t.source).occupant = none) :
    (p.afterSegment h).bay t.source =
      if p.params.clearHeight < apart ((p.afterSegment h).unit h).elevation (p.elevationOf t.source) then
        { p.bay t.source with state := .barred, occupant := none, cause := some .foreign, holder := none }
      else p.bay t.source := by
  rw [p.afterSegment_bay, (p.afterSegment_showsPosition h).elevation]
  exact p.atHeight_source h active loaded held vacant

/-! ### The markers (R80, R81) -/

theorem Chip.afterSegment_unreferenced (unreferenced : (p.unit h).referenced = false) :
    ((p.afterSegment h).unit h).referenced = false ∧ ((p.afterSegment h).unit h).markers = (p.unit h).markers ∧
    ((p.afterSegment h).unit h).missRun = (p.unit h).missRun ∧
    ((p.afterSegment h).unit h).missedMarkers = (p.unit h).missedMarkers := by
  rw [p.afterSegment_unit, p.atMarkers_unit_unreferenced h unreferenced, p.atPosition_unit]
  exact ⟨unreferenced, rfl, rfl, rfl⟩

section
variable {p h}
variable {after : Nat → MarkerState} {missed : Nat → Bool} (referenced : (p.unit h).referenced = true)
  (room : (p.unit h).missedMarkers ≤ 65535)
  (rule : ∀ e ∈ p.expectedMarkers h, markerRule p.params.slipLimit (p.elevationAt h (p.unit h).previousCount)
    ((p.afterSegment h).unit h).elevation e (markerState (p.unit h).markers e) (after e) (missed e))
include referenced room rule

theorem Chip.afterSegment_markersClear (few : ((p.expectedMarkers h).filter missed)[1 - (p.unit h).missRun]? = none) :
    ((p.afterSegment h).unit h).referenced = true ∧
    (∀ e, markerState ((p.afterSegment h).unit h).markers e = if e ∈ p.expectedMarkers h then after e else .idle) ∧
    ((p.afterSegment h).unit h).missRun = (p.unit h).missRun + ((p.expectedMarkers h).filter missed).length ∧
    ((p.afterSegment h).unit h).missedMarkers =
      min 65535 ((p.unit h).missedMarkers + ((p.expectedMarkers h).filter missed).length) := by
  rw [(p.afterSegment_showsPosition h).elevation] at rule
  have misses := missedOf_of_rule rule
  have pass := passMarkers_clear _ _ _ (markerState (p.unit h).markers) (p.unit h).missRun _ (p.expectedMarkers h) room
    (by rw [misses]; exact List.getElem?_eq_none_iff.mp few)
  rw [misses] at pass
  rw [p.afterSegment_unit, p.atMarkers_unit_clear h referenced (by rw [Chip.markerPass, pass]), Chip.markerPass, pass,
    p.atPosition_unit]
  exact ⟨referenced, markerState_of_rule rule, rfl, rfl⟩

theorem Chip.afterSegment_markersFault {e : Nat} (second : ((p.expectedMarkers h).filter missed)[1 - (p.unit h).missRun]? = some e) :
    (p.markerPass h).fault = some e ∧ ((p.afterSegment h).unit h).referenced = false ∧
    ((p.afterSegment h).unit h).markers = [] ∧ ((p.afterSegment h).unit h).missRun = 0 ∧
    ((p.afterSegment h).unit h).missedMarkers = min 65535 ((p.unit h).missedMarkers + (1 - (p.unit h).missRun) + 1) := by
  rw [(p.afterSegment_showsPosition h).elevation] at rule
  have pass := passMarkers_fault _ _ _ (markerState (p.unit h).markers) (p.unit h).missRun _ (p.expectedMarkers h) e room
    (by rw [missedOf_of_rule rule]; exact second)
  have fault : (p.markerPass h).fault = some e := by rw [Chip.markerPass, pass]
  refine ⟨fault, ?_⟩
  rw [p.afterSegment_unit, (p.atMarkers_fault h referenced fault).1, Chip.markerPass, pass]
  exact ⟨rfl, rfl, rfl, rfl⟩

end

theorem Chip.linkFaults_eq_false (none : p.timeoutReached h = false ∨ (p.hoist h).phase = .idle) : p.linkFaults h = false := by
  rw [Bool.eq_false_iff, Ne, p.linkFaults_iff]
  rintro ⟨reached, busy⟩
  obtain noTimeout | idle := none
  · exact absurd reached (by simp [noTimeout])
  · exact busy idle

end

/-- Settles O50: SEGMENT_EVENT goes through the parts after the closing, the position, the marker checks, the overspeed check, the clear-height
check, the phase tests and the message, and each clause is a lemma about one of them. -/
theorem segmentEventCompletes : Obligations.SegmentEventCompletes := by
  intro s h kept arises
  have position := s.chip.afterSegment_showsPosition h
  have link := s.chip.afterSegment_link h
  have checks := s.chip.afterSegment_checks h
  refine ⟨_, s.event_of _ _ arises, rfl, s.chip.afterSegment_unchangedBut h, s.chip.afterSegment_otherUnits h,
    s.chip.afterSegment_otherLinks h, kept.afterSegment_otherHoists h, ?closed, s.chip.afterSegment_notUp h,
    s.chip.afterSegment_lost h, ?linkFault, ?sent, position.previousCount, position.illegal, position.elevation, position.speed,
    ?range, position.rest, (s.chip.afterSegment_limited h).1, (s.chip.afterSegment_limited h).2,
    (s.chip.afterSegment_served h).1, (s.chip.afterSegment_served h).2, ?check, ?overspeed,
    fun tr active loaded held vacant => s.chip.afterSegment_source h active loaded held vacant,
    s.chip.expectedMarkers_pairwise h, s.chip.mem_expectedMarkers h, s.chip.afterSegment_unreferenced h, ?markers⟩
  case closed =>
    show (s.chip.link h).segmentClosed ((s.chip.afterSegment h).link h) _
    rw [link]
    exact LinkPort.segmentClosed_atSegment _ _ _
  case linkFault => exact fun reached busy => s.chip.afterSegment_linkFault h ((s.chip.linkFaults_iff h).mpr ⟨reached, busy⟩)
  case sent =>
    show ((s.chip.afterSegment h).link h).sent = _
    rw [link]
    rfl
  case range =>
    rintro rope exact rfl rfl
    exact position.rangeCount
  case check =>
    rintro check rfl
    rw [← s.chip.sentMagnitude_eq h]
    exact ⟨checks.1, checks.2.trans (s.chip.runNow_eq h)⟩
  case overspeed =>
    intro first second
    obtain ⟨phase, record, exact⟩ := s.chip.afterSegment_overspeedFault h first (checks.2.symm.trans second)
    exact ⟨phase, record, fun notFaulted noTimeout => exact notFaulted (s.chip.linkFaults_eq_false h (.inl noTimeout))⟩
  case markers =>
    rintro after missed misses referenced room rule rfl
    refine ⟨s.chip.afterSegment_markersClear referenced room rule, fun e second => ?_⟩
    obtain ⟨fault, unreferenced, markers, run, count⟩ := Chip.afterSegment_markersFault referenced room rule second
    obtain ⟨phase, entered, joined⟩ := s.chip.afterSegment_positionFault h referenced fault
    refine ⟨unreferenced, markers, run, count, phase, fun notFaulted none => ?_, (s.chip.segment_stays h).first, fun before => ?_⟩
    · obtain ⟨first, detail⟩ := entered notFaulted (s.chip.linkFaults_eq_false h none)
      exact ⟨first, fun b names => detail.trans (s.chip.markerDetail_of_namesMarker h names)⟩
    · exact joined (before.imp_right (s.chip.linkFaults_iff h).mpr)

end Sys2Proof.Machine
end

section
/-! SUPPORT. What the end of an event leaves of the selector, the allocator and the port where no hoist becomes able, no phase or trip changes, and
no condition of the attention set moves (spec/05 R89, spec/06 R126, spec/07 R141, spec/10 R190). -/

namespace Sys2Proof.Machine

section
variable {before p q : Chip}

/-- The conditions of the attention set read the tables, the unserved power with its threshold, the phases and the link states (R190). -/
theorem Chip.conditions_congr (masses : q.masses = p.masses) (bays : q.bays = p.bays)
    (unserved : q.power.unserved = p.power.unserved) (threshold : q.params.unservedThresh = p.params.unservedThresh)
    (phase : ∀ h, (q.hoist h).phase = (p.hoist h).phase) (link : ∀ h, (q.link h).state = (p.link h).state) :
    q.conditions = p.conditions := by
  unfold Chip.conditions
  simp only [masses, bays, unserved, threshold, phase, link]

/-- Able reads of a link its state and whether it is enabled, of a unit the referenced flag, and of a controller five items (R89). -/
theorem Chip.ableLaw_congr {h : HoistId} (state : (q.link h).state = (p.link h).state)
    (enabled : (q.link h).enabled = (p.link h).enabled) (referenced : (q.unit h).referenced = (p.unit h).referenced)
    (holdMode : (q.hoist h).holdMode = (p.hoist h).holdMode) (phase : (q.hoist h).phase = (p.hoist h).phase)
    (seen : (q.hoist h).interlockSeen = (p.hoist h).interlockSeen) (staged : (q.hoist h).staged = (p.hoist h).staged) :
    q.ableLaw h = p.ableLaw h := by
  unfold Chip.ableLaw
  simp only [state, enabled, referenced, holdMode, phase, seen, staged]

/-- The brake command reads a hoist's phase, leg and accepted latch level, its link's state and the interlock (R93). -/
theorem Chip.brakeLaw_congr {h : HoistId} (state : (q.link h).state = (p.link h).state) (interlock : q.interlock = p.interlock)
    (phase : (q.hoist h).phase = (p.hoist h).phase) (active : (q.hoist h).active = (p.hoist h).active)
    (level : (q.hoist h).latchLevel = (p.hoist h).latchLevel) : q.brakeLaw h = p.brakeLaw h := by
  unfold Chip.brakeLaw Chip.brakeIn HoistCtl.loaded
  simp only [state, interlock, phase, active, level]

/-- While the accepted interlock level is open every brake command is SET (R93). -/
theorem Chip.brakeLaw_of_opened (opened : p.interlock = .opened) (h : HoistId) : p.brakeLaw h = .set := by
  simp [Chip.brakeLaw, Chip.brakeIn, opened]

/-- No hoist becomes able: the selector is left (R126). -/
theorem Chip.finish_selector (able : ∀ h, p.ableLaw h = true → (p.hoist h).able = true) :
    (before.finish p).selector = p.selector := by
  have noneJoins : ∀ h, (p.ableLaw h && !(p.hoist h).able) = false := fun h => by
    cases law : p.ableLaw h
    · rfl
    · simp [able h law]
  have request : (before.finish p).selector.request = p.selector.request := by
    show (Chip.settle before p).selector.request = _
    unfold Chip.settle
    simp [Chip.keep_request, Chip.keep_ableLaw, Chip.keep_hoist, noneJoins]
  have kept : (before.finish p).selector = { p.selector with request := (before.finish p).selector.request } := rfl
  rw [kept, request]

/-- One hoist alone may become able: it raises a selection request where it does (R89, R126). -/
theorem Chip.finish_request_of_one {h : HoistId} (others : ∀ k, k ≠ h → p.ableLaw k = (p.hoist k).able) :
    (before.finish p).selector.request = (p.selector.request || (p.ableLaw h && !(p.hoist h).able)) := by
  have noneElse : ∀ k, k ≠ h → (p.ableLaw k && !(p.hoist k).able) = false := fun k ne => by
    rw [others k ne, Bool.and_not_self]
  show (Chip.settle before p).selector.request = _
  unfold Chip.settle
  match h with
  | 0 => simp [Chip.keep_request, Chip.keep_ableLaw, Chip.keep_hoist, noneElse]
  | 1 => simp [Chip.keep_request, Chip.keep_ableLaw, Chip.keep_hoist, noneElse]
  | 2 => simp [Chip.keep_request, Chip.keep_ableLaw, Chip.keep_hoist, noneElse]
  | 3 => simp [Chip.keep_request, Chip.keep_ableLaw, Chip.keep_hoist, noneElse]

/-- What the Power Allocator is told of a hoist has changed only where the change has been handed over: nothing more is handed (R141). -/
theorem Chip.finish_power (told : ∀ h, (before.hoist h).powerView ≠ (p.hoist h).powerView → p.power.handed.get h = true) :
    (before.finish p).power = p.power := by
  have handed : (before.finish p).power.handed = p.power.handed := Quad.ext_get _ _ fun h => by
    rw [Chip.finish_handed]
    by_cases same : (before.hoist h).powerView = (p.hoist h).powerView
    · simp [same]
    · simp [told h same]
  have kept : (before.finish p).power = { p.power with handed := (before.finish p).power.handed } := rfl
  rw [kept, handed]

/-- The conditions are those reported before: the port is left (R190). -/
theorem Chip.finish_port_same (reported : p.port.attention = p.conditions) : (before.finish p).port = p.port := by
  rw [Chip.finish_port, reported, Attention.rises_self, Bool.or_false, ← reported]

/-- The end of an event in a part whose items are true to its records, and whose changes have been handed over, changes nothing. -/
theorem Chip.finish_of_kept (kept : p.Kept)
    (told : ∀ h, (before.hoist h).powerView ≠ (p.hoist h).powerView → p.power.handed.get h = true) : before.finish p = p := by
  have controllers : (before.finish p).hoists = p.hoists :=
    Chip.hoists_ext fun h => (Chip.finish_hoist before p h).trans (kept.keptHoist h)
  rw [Chip.finish_moved before p, controllers, Chip.finish_selector fun h law => (kept.able h).trans law,
    Chip.finish_power told, Chip.finish_port_same kept.attention]

/-- The parts that the end of an event touches: the controllers, and the selector, the allocator and the port where they are not known to stay. -/
theorem Chip.finish_moves {parts : List Part} (hoists : .hoists ∈ parts)
    (selector : .selector ∉ parts → (before.finish p).selector = p.selector)
    (power : .power ∉ parts → (before.finish p).power = p.power)
    (port : .port ∉ parts → (before.finish p).port = p.port) : p.unchangedBut (before.finish p) parts := by
  intro x out
  by_cases moved : x ∈ [Part.hoists, .selector, .power, .port]
  · rcases List.mem_cons.mp moved with rfl | moved
    · exact absurd hoists out
    rcases List.mem_cons.mp moved with rfl | moved
    · exact selector out
    rcases List.mem_cons.mp moved with rfl | moved
    · exact power out
    · obtain rfl := List.mem_singleton.mp moved
      exact port out
  · exact Chip.finish_unchangedBut before p x moved

/-- The parts that an event touches by its change and its end. -/
theorem Chip.finish_touches {parts : List Part} (change : before.unchangedBut p parts) (hoists : .hoists ∈ parts)
    (selector : .selector ∉ parts → (before.finish p).selector = p.selector)
    (power : .power ∉ parts → (before.finish p).power = p.power)
    (port : .port ∉ parts → (before.finish p).port = p.port) : before.unchangedBut (before.finish p) parts :=
  Chip.unchangedBut_trans change (Chip.finish_moves hoists selector power port)

end

end Sys2Proof.Machine
end


section
/-! SUPPORT. The interlock (spec/03 R57, R61; spec/05 R107): its acceptance closed, its taking by each hoist, and its halt. -/

namespace Sys2Proof.Machine

section
variable {p : Chip} {h : HoistId}

/-! ### The acceptance of closed (R57) -/

/-- The part with the interlock accepted closed (R57). -/
def Chip.interlockClosed (p : Chip) : Chip := p.withSensors { p.sensors with qualifier := .closed, closing := 0 }

/-- The acceptance of closed changes the bank and, by the brake law, the controllers. -/
theorem Chip.Kept.interlockClosed_unchangedBut (kept : p.Kept) :
    p.unchangedBut (p.finish p.interlockClosed) [.sensors, .hoists] := by
  have change : p.unchangedBut p.interlockClosed [.sensors, .hoists] := by
    intro x out
    cases x <;> simp at out <;> rfl
  refine Chip.finish_touches change (by simp) (fun _ => ?_) (fun _ => ?_) fun _ => ?_
  · exact Chip.finish_selector fun h law => (kept.able h).trans law
  · exact Chip.finish_power fun _ differs => absurd rfl differs
  · exact Chip.finish_port_same kept.attention

/-! ### The taking of it by a hoist (R61) -/

theorem Chip.seeInterlock_hoist (level : Interlock) :
    (p.seeInterlock h level).hoist h = { p.hoist h with interlockSeen := level } := p.updHoist_hoist_self h _

theorem Chip.TripFrame.seeInterlock (level : Interlock) : Chip.TripFrame h p (p.seeInterlock h level) := .updHoist _

/-- What a hoist has seen of the interlock is no item of the brake law (log 8). -/
theorem Chip.seeInterlock_brakeLaw (level : Interlock) : (p.seeInterlock h level).brakeLaw h = p.brakeLaw h :=
  Chip.brakeLaw_congr rfl rfl (by rw [Chip.seeInterlock_hoist]) (by rw [Chip.seeInterlock_hoist])
    (by rw [Chip.seeInterlock_hoist])

/-- An event on hoist `h` alone leaves the able item of every other hoist as its law has it. -/
theorem Chip.Kept.ableLaw_of_frame {q : Chip} (kept : p.Kept) (frame : Chip.TripFrame h p q) {k : HoistId} (ne : k ≠ h) :
    q.ableLaw k = (q.hoist k).able := by
  have hoist := frame.others k ne
  have link : q.link k = p.link k := congrArg (Quad.get · k) frame.links
  have unit : q.unit k = p.unit k := congrArg (Quad.get · k) frame.units
  rw [hoist, kept.able k]
  exact Chip.ableLaw_congr (by rw [link]) (by rw [link]) (by rw [unit]) (by rw [hoist]) (by rw [hoist]) (by rw [hoist])
    (by rw [hoist])

/-- An event on hoist `h` alone leaves the other controllers as they were, through its end as well. -/
theorem Chip.Kept.finish_others_of_frame {q : Chip} (kept : p.Kept) (frame : Chip.TripFrame h p q) :
    p.otherHoistsSame (p.finish q) h :=
  kept.finish_otherHoistsSame frame.others (fun k _ => congrArg (Quad.get · k) frame.links)
    (fun k _ => congrArg (Quad.get · k) frame.units) (Chip.interlock_of_sensors frame.sensors)

/-- A hoist takes the acceptance of closed by its interlock item, and its able item by the law (R61, R89). -/
theorem Chip.Kept.finish_seeClosed_hoist (kept : p.Kept) :
    (p.finish (p.seeInterlock h .closed)).hoist h =
      { p.hoist h with interlockSeen := .closed, able := (p.seeInterlock h .closed).ableLaw h } := by
  have same := kept.keptHoist h
  rw [Chip.finish_hoist, Chip.keptHoist, Chip.seeInterlock_brakeLaw, Chip.seeInterlock_hoist]
  unfold Chip.keptHoist at same
  rw [HoistCtl.mk.injEq] at same
  simp_all

theorem Chip.Kept.seeClosed_unchangedBut (kept : p.Kept) :
    p.unchangedBut (p.finish (p.seeInterlock h .closed)) [.hoists, .selector] := by
  have phase : ∀ k, ((p.seeInterlock h .closed).hoist k).powerView = (p.hoist k).powerView := fun k => by
    by_cases same : k = h
    · rw [same, Chip.seeInterlock_hoist]
      rfl
    · rw [(Chip.TripFrame.seeInterlock .closed).others k same]
  have change : p.unchangedBut (p.seeInterlock h .closed) [.hoists, .selector] :=
    Chip.unchangedBut_mono (p.updHoist_unchangedBut h _) (by simp)
  refine Chip.finish_touches change (by simp) (by simp) (fun _ => ?_) fun _ => ?_
  · exact Chip.finish_power fun k differs => absurd (phase k).symm differs
  · have conditions : (p.seeInterlock h .closed).conditions = p.conditions :=
      Chip.conditions_congr rfl rfl rfl rfl (fun k => congrArg Prod.fst (phase k)) fun _ => rfl
    exact Chip.finish_port_same (kept.attention.trans conditions.symm)

/-! ### The halt (R107) -/

theorem Phase.halts_iff (x : Phase) :
    x.halts = true ↔ x = .travel ∨ x = .approach ∨ x = .dwell ∨ x = .engage ∨ x = .release := by cases x <;> simp [Phase.halts]

theorem Chip.TripFrame.interlockHalt : Chip.TripFrame h p (p.interlockHalt h) := by
  unfold Chip.interlockHalt
  simp only
  split
  · exact (Chip.TripFrame.seeInterlock _).trans (.haltHoist _ _)
  · exact .seeInterlock _

/-- A working hoist is HALTED with cause INTERLOCK, its phase the resume phase (R107). -/
theorem Chip.interlockHalt_hoist_of_halts (halts : (p.hoist h).phase.halts = true) : (p.interlockHalt h).hoist h =
    { p.hoist h with
      interlockSeen := .opened, phase := .halted, phaseReply := none, phaseTimer := none, dwellTimer := none, speedRef := 0
      active := (p.hoist h).active.map fun t =>
        { t with resumePhase := some (p.hoist h).phase, haltCause := some .interlock } } := by
  simp [Chip.interlockHalt, halts, Chip.haltHoist, Chip.updActive, Chip.stopRef, Chip.enterPhase, Chip.seeInterlock]

/-- A hoist that is IDLE, HALTED or FAULTED takes the acceptance of open by its interlock item alone. -/
theorem Chip.interlockHalt_of_not_halts (rests : (p.hoist h).phase.halts = false) :
    p.interlockHalt h = p.seeInterlock h .opened := by simp [Chip.interlockHalt, rests]

/-- What the halt leaves of the controller whether the hoist was at work or not. -/
theorem Chip.interlockHalt_hoist_kept : ((p.interlockHalt h).hoist h).interlockSeen = .opened ∧
    ((p.interlockHalt h).hoist h).latchCommand = (p.hoist h).latchCommand ∧
    ((p.interlockHalt h).hoist h).withdrawal = (p.hoist h).withdrawal ∧
    ((p.interlockHalt h).hoist h).staged = (p.hoist h).staged := by
  cases halts : (p.hoist h).phase.halts with
  | true => simp [Chip.interlockHalt_hoist_of_halts halts]
  | false => simp [Chip.interlockHalt_of_not_halts halts, Chip.seeInterlock_hoist]

/-- A hoist that has seen the interlock open is not able (R89). -/
theorem Chip.ableLaw_of_seenOpened (seen : (p.hoist h).interlockSeen = .opened) : p.ableLaw h = false := by
  simp [Chip.ableLaw, seen]

theorem Chip.Kept.interlockHalt_unchangedBut (kept : p.Kept) :
    p.unchangedBut (p.finish (p.interlockHalt h)) [.hoists, .power, .port] := by
  have frame : Chip.TripFrame h p (p.interlockHalt h) := .interlockHalt
  have change : p.unchangedBut (p.interlockHalt h) [.hoists] := by
    unfold Chip.interlockHalt
    simp only
    split
    · exact Chip.unchangedBut_trans (p.updHoist_unchangedBut h _) (Chip.unchangedBut_trans (Chip.updHoist_unchangedBut _ h _)
        (Chip.unchangedBut_trans (Chip.updHoist_unchangedBut _ h _) (Chip.updHoist_unchangedBut _ h _)))
    · exact p.updHoist_unchangedBut h _
  refine Chip.finish_touches (Chip.unchangedBut_mono change (by simp)) (by simp) (fun _ => ?_) (by simp) (by simp)
  refine Chip.finish_selector fun k law => ?_
  by_cases same : k = h
  · rw [same, Chip.ableLaw_of_seenOpened Chip.interlockHalt_hoist_kept.1] at law
    exact absurd law (by simp)
  · rwa [← kept.ableLaw_of_frame frame same]

end

/-- Settles O58: the acceptance of closed, its taking, and the halt, each an event whose end the laws of able and the brake follow. -/
theorem interlockEventsComplete : Obligations.InterlockEventsComplete := by
  intro s h kept
  refine ⟨fun qualifying full => ?accepted, fun closed unseen => ?taken, fun opened unseen => ?halt⟩
  case accepted =>
    refine ⟨_, s.event_of _ s.chip.interlockClosed (by simp [SensorBank.closingComplete, qualifying, full]), rfl,
      kept.interlockClosed_unchangedBut, by rw [Chip.finish_interlock]; rfl, by rw [Chip.finish_sensors]; rfl, fun k => ?_⟩
    rw [Chip.finish_hoist]
    exact ⟨rfl, (kept.able k).symm⟩
  case taken =>
    refine ⟨_, s.event_of _ (s.chip.seeInterlock h .closed) (by simp [closed, unseen]), rfl, kept.seeClosed_unchangedBut,
      kept.finish_others_of_frame (.seeInterlock _), ?_, ?_⟩
    · rw [Chip.finish_ableLaw]
      exact kept.finish_seeClosed_hoist
    · have request := Chip.finish_request_of_one (before := s.chip) fun k ne =>
        kept.ableLaw_of_frame (.seeInterlock (h := h) .closed) ne
      rw [Chip.seeInterlock_hoist] at request
      rw [request, kept.finish_seeClosed_hoist]
      rfl
  case halt =>
    obtain ⟨seen, latch, withdrawal, staged⟩ := Chip.interlockHalt_hoist_kept (p := s.chip) (h := h)
    refine ⟨_, s.event_of _ (s.chip.interlockHalt h) (by simp [opened, unseen]), rfl, kept.interlockHalt_unchangedBut,
      kept.finish_others_of_frame .interlockHalt, ?_⟩
    rw [Chip.finish_hoist_eq]
    refine ⟨seen, Chip.ableLaw_of_seenOpened seen, latch, withdrawal, staged, fun rests => ?_, fun tr active working => ?_⟩
    · have notHalts : (s.chip.hoist h).phase.halts = false := by rcases rests with e | e | e <;> rw [e] <;> rfl
      rw [Chip.interlockHalt_of_not_halts notHalts, Chip.seeInterlock_hoist]
      exact ⟨rfl, rfl⟩
    · have hoist := Chip.interlockHalt_hoist_of_halts ((Phase.halts_iff _).mpr working)
      have braked : (s.chip.interlockHalt h).brakeLaw h = .set := by simp [Chip.brakeLaw, Chip.brakeIn, hoist]
      have present : (s.chip.interlockHalt h).conditions.haltedHoist = true := by
        simp only [Chip.conditions, List.any_eq_true, decide_eq_true_eq]
        exact ⟨h, List.mem_finRange h, by rw [hoist]⟩
      rw [Chip.finish_port, braked, hoist, active]
      exact ⟨rfl, rfl, rfl, rfl, rfl, rfl, present⟩

end Sys2Proof.Machine
end

section
/-! SUPPORT. The millisecond mark (spec/03 R49 to R57): the filter groups, the interlock's samples, the timers, the segment events and the gap
counts (spec/08 R197, spec/10 R182). -/

namespace Sys2Proof.Machine

/-! ### The filter groups (R52 to R56) -/

/-- The check time of a code has passed at the next mark: with code 0 always, with codes 1 to 7 after 16 marks and twice as many for each
further code (R53, R54). -/
theorem checkTime_le_succ_iff (code n : Nat) : checkTime code ≤ n + 1 ↔ code = 0 ∨ 16 * 2 ^ (code - 1) ≤ n + 1 := by
  unfold checkTime
  by_cases zero : code = 0 <;> simp [zero]

section
variable (code : Nat) (g : FilterGroup)

theorem FilterGroup.instantOnNextMark_iff :
    g.instantOnNextMark code ↔ g.fresh = true ∨ checkTime code ≤ g.since + 1 := by
  unfold FilterGroup.instantOnNextMark
  rw [checkTime_le_succ_iff]

/-- A mark is counted by a group as R52 to R56 have it. -/
theorem FilterGroup.markCounted_atMark : g.markCounted (g.atMark code) code := by
  refine ⟨fun ahead => by simp [FilterGroup.atMark, ahead], fun notAhead => ?_⟩
  rw [g.instantOnNextMark_iff]
  by_cases falls : g.fresh = true ∨ checkTime code ≤ g.since + 1 <;> simp [FilterGroup.atMark, notAhead, falls]

end

/-! ### The counts of one hoist and one port (R50, R51, R182, R197) -/

theorem LinkPort.atMark_eq (l : LinkPort) : l.atMark = { l with gap := if l.buffer = [] then l.gap else l.gap + 1 } := by
  unfold LinkPort.atMark
  by_cases empty : l.buffer = []
  · rw [if_pos (List.isEmpty_iff.mpr empty), if_pos empty]
  · rw [if_neg (mt List.isEmpty_iff.mp empty), if_neg empty]

theorem PlantPort.atMark_eq (q : PlantPort) : q.atMark = { q with gap := if q.buffer = [] then q.gap else q.gap + 1 } := by
  unfold PlantPort.atMark
  by_cases empty : q.buffer = []
  · rw [if_pos (List.isEmpty_iff.mpr empty), if_pos empty]
  · rw [if_neg (mt List.isEmpty_iff.mp empty), if_neg empty]

/-- A hoist's controller at mark `n`: its segment event, and the second mark that every 1,000th is (R50, R51). -/
def HoistCtl.atMark (c : HoistCtl) (h : HoistId) (n : Nat) : HoistCtl :=
  if n % 1000 = 0 then (c.segmentAt h n).secondMark else c.segmentAt h n

section
variable (c : HoistCtl) (h : HoistId) (n : Nat)

/-- A mark touches of a controller the two timers and the account of its segment events. -/
theorem HoistCtl.atMark_eq : c.atMark h n = { c with
    phaseTimer := if n % 1000 = 0 then countSecond c.phaseTimer else c.phaseTimer
    dwellTimer := if n % 1000 = 0 then countSecond c.dwellTimer else c.dwellTimer
    segmentDue := (c.segmentAt h n).segmentDue, segmentAhead := (c.segmentAt h n).segmentAhead } := by
  have segment : c.segmentAt h n = { c with
      segmentDue := (c.segmentAt h n).segmentDue, segmentAhead := (c.segmentAt h n).segmentAhead } := by
    unfold HoistCtl.segmentAt
    split
    · split <;> rfl
    · rfl
  unfold HoistCtl.atMark HoistCtl.secondMark
  split <;> rw [segment]

/-- The segment event falls on the marks of R50, for a controller that has none due and has taken none ahead. -/
theorem HoistCtl.segmentAt_due (notAhead : c.segmentAhead = false) (notDue : c.segmentDue = false) :
    (c.segmentAt h n).segmentDue = true ↔ 0 < n ∧ n % 50 = 12 * h.val := by
  unfold HoistCtl.segmentAt segmentMark
  by_cases falls : 0 < n ∧ n % 50 = 12 * h.val <;> simp [falls, notAhead, notDue]

end

/-! ### The interlock's samples (R57) -/

/-- A sample of the interlock moves the qualifier and its count, and nothing else of the bank. -/
theorem SensorBank.sampleInterlock_eq (b : SensorBank) (line : Interlock) : b.sampleInterlock line = { b with
    qualifier := (b.sampleInterlock line).qualifier, closing := (b.sampleInterlock line).closing } := by
  unfold SensorBank.sampleInterlock
  cases b.qualifier <;> cases line <;> rfl

/-! ### The mark -/

section
variable {p : Chip} {h : HoistId} (line : Interlock)

theorem Chip.millisecondMark_hoist :
    (p.millisecondMark line).hoist h = (p.hoist h).atMark h (p.sensors.mark + 1) := Quad.get_tab _ h

theorem Chip.millisecondMark_link : (p.millisecondMark line).link h = (p.link h).atMark := Quad.get_tab _ h

theorem Chip.millisecondMark_sensors : (p.millisecondMark line).sensors = { p.sensors with
    mark := p.sensors.mark + 1
    bayGroup := p.sensors.bayGroup.atMark p.params.bayFilter
    latchGroup := p.sensors.latchGroup.atMark p.params.latchFilter
    qualifier := (p.sensors.sampleInterlock line).qualifier, closing := (p.sensors.sampleInterlock line).closing } := by
  unfold Chip.millisecondMark
  rw [SensorBank.sampleInterlock_eq]

theorem Chip.millisecondMark_ableLaw : (p.millisecondMark line).ableLaw h = p.ableLaw h := by
  have link := Chip.millisecondMark_link (p := p) (h := h) line
  have hoist := Chip.millisecondMark_hoist (p := p) (h := h) line
  rw [LinkPort.atMark_eq] at link
  rw [HoistCtl.atMark_eq] at hoist
  exact Chip.ableLaw_congr (by rw [link]) (by rw [link]) rfl (by rw [hoist]) (by rw [hoist]) (by rw [hoist]) (by rw [hoist])

/-- A mark that leaves the interlock level leaves the brake law. -/
theorem Chip.millisecondMark_brakeLaw (same : (p.millisecondMark line).interlock = p.interlock) :
    (p.millisecondMark line).brakeLaw h = p.brakeLaw h := by
  have link := Chip.millisecondMark_link (p := p) (h := h) line
  have hoist := Chip.millisecondMark_hoist (p := p) (h := h) line
  rw [LinkPort.atMark_eq] at link
  rw [HoistCtl.atMark_eq] at hoist
  exact Chip.brakeLaw_congr (by rw [link]) same (by rw [hoist]) (by rw [hoist]) (by rw [hoist])

theorem Chip.millisecondMark_conditions : (p.millisecondMark line).conditions = p.conditions := by
  refine Chip.conditions_congr rfl rfl rfl rfl (fun k => ?_) fun k => ?_
  · rw [Chip.millisecondMark_hoist, HoistCtl.atMark_eq]
  · rw [Chip.millisecondMark_link, LinkPort.atMark_eq]

/-- The port of a part whose attention set is true to the conditions, after a mark (R182). -/
theorem Chip.Kept.finish_millisecondMark_port (kept : p.Kept) :
    (p.finish (p.millisecondMark line)).port = p.port.atMark := by
  refine (Chip.finish_port_same ?_).trans rfl
  rw [Chip.millisecondMark_conditions, ← kept.attention]
  show p.port.atMark.attention = _
  rw [PlantPort.atMark_eq]

theorem Chip.Kept.millisecondMark_unchangedBut (kept : p.Kept) :
    p.unchangedBut (p.finish (p.millisecondMark line)) [.sensors, .hoists, .links, .port] := by
  have change : p.unchangedBut (p.millisecondMark line) [.sensors, .hoists, .links, .port] := by
    intro x out
    cases x <;> simp at out <;> rfl
  refine Chip.finish_touches change (by simp) (fun _ => ?_) (fun _ => ?_) (by simp)
  · refine Chip.finish_selector fun h law => ?_
    rw [Chip.millisecondMark_hoist, HoistCtl.atMark_eq]
    exact (kept.able h).trans ((Chip.millisecondMark_ableLaw line).symm.trans law)
  · refine Chip.finish_power fun h differs => absurd ?_ differs
    rw [Chip.millisecondMark_hoist, HoistCtl.atMark_eq]
    rfl

/-- A controller after a mark: the timers and the segment events as R50 and R51 have them, the brake and the reference as R93 has them. -/
theorem Chip.Kept.finish_millisecondMark_hoist (kept : p.Kept) :
    (p.finish (p.millisecondMark line)).hoist h = { (p.hoist h).atMark h (p.sensors.mark + 1) with
      brake := (p.millisecondMark line).brakeLaw h
      speedRef := if (p.millisecondMark line).brakeLaw h = .set then 0 else (p.hoist h).speedRef } := by
  rw [Chip.finish_hoist_eq, Chip.millisecondMark_ableLaw, Chip.millisecondMark_hoist, ← kept.able h, HoistCtl.atMark_eq]

end

/-- Settles O49: the interlock's samples by the table of R57, the filter groups, and the counts of each hoist, link and port at a mark. -/
theorem millisecondMarkCompletes : Obligations.MillisecondMarkCompletes := by
  intro s line kept settled
  have sensors : (s.chip.finish (s.chip.millisecondMark line)).sensors = _ :=
    (Chip.finish_sensors _ _).trans (Chip.millisecondMark_sensors line)
  have hoist : ∀ h, (s.chip.finish (s.chip.millisecondMark line)).hoist h = _ :=
    fun h => kept.finish_millisecondMark_hoist line
  refine ⟨_, s.event_of _ _ settled, rfl, kept.millisecondMark_unchangedBut line, ?_⟩
  simp only [sensors, hoist, HoistCtl.atMark_eq]
  refine ⟨trivial, trivial, trivial, ?_, ?_, ?_, ?_, ?_, ?_, FilterGroup.markCounted_atMark _ _,
    FilterGroup.markCounted_atMark _ _, ?link, ?port, fun _ => rfl, fun _ => rfl, fun _ => trivial, ?kept, ?opened, ?segment⟩
  case link =>
    intro h
    rw [Chip.finish_link, Chip.millisecondMark_link, LinkPort.atMark_eq]
  case port => rw [kept.finish_millisecondMark_port, PlantPort.atMark_eq]
  case kept =>
    intro same h
    rw [Chip.finish_interlock] at same
    rw [Chip.millisecondMark_brakeLaw line same, ← kept.brake h]
    refine ⟨rfl, ?_⟩
    split
    · rename_i braked
      exact (kept.stopped h braked).symm
    · rfl
  case opened =>
    intro opened h
    rw [Chip.finish_interlock] at opened
    simp [Chip.brakeLaw_of_opened opened h]
  case segment =>
    intro h notAhead notDue
    rw [HoistCtl.segmentAt_due _ _ _ notAhead notDue]
    simp
  all_goals
    intro qualifier sampled
    simp [SensorBank.sampleInterlock, qualifier, sampled]

end Sys2Proof.Machine
end

section
/-! SUPPORT. SET_PARAM (spec/10 R187): the reply, the plant parameters with the restart of a filter group (spec/03 R56) and the clamping of the
setpoint (spec/07 R140), and the hoist parameters with the ratio (spec/04 R68), the loss of reference (R69) and the division of shares (spec/07
R143). -/

namespace Sys2Proof.Machine

/-! ### The reply (R187, R194, section 11.5) -/

theorem resultBytes_eq (l : List Byte) (room : l.length ≤ 24) : resultBytes l = l ++ List.replicate (24 - l.length) 0 := by
  rw [resultBytes, List.take_append, List.take_of_length_le room, List.take_replicate, Nat.min_eq_left (Nat.sub_le ..)]

theorem Chip.signedField_length (p : Chip) (n : Nat) (x : Int) : (p.signedField n x).length = n := by
  unfold Chip.signedField
  split
  · exact bigEndianSigned_length n x
  · exact bigEndian_length n _

/-- A signed number that a field of a result carries is read back from it. -/
theorem Chip.signedAt_signedField (p : Chip) {n i : Nat} (x : Int) (positive : 0 < n) (l r : List Byte) (place : l.length = i) :
    signedAt ⟨l ++ (p.signedField n x ++ r)⟩ i n x := by
  intro low high
  have bytes : p.signedField n x = bigEndianSigned n x := if_pos ⟨low, high⟩
  have fits : (x % (2 ^ (8 * n) : Int)).toNat < 256 ^ n := by
    have top : (256 : Int) ^ n = 2 ^ (8 * n) := by rw [pow_mul]; rfl
    have below : x % (2 ^ (8 * n) : Int) < 2 ^ (8 * n) := Int.emod_lt_of_pos _ (by positivity)
    have nonneg : 0 ≤ x % (2 ^ (8 * n) : Int) := Int.emod_nonneg _ (by positivity)
    zify
    omega
  have number : (⟨l ++ (p.signedField n x ++ r)⟩ : Frame).number i n = (x % (2 ^ (8 * n) : Int)).toNat := by
    rw [← place, show l.length = l.length + 0 from rfl, Frame.number_append_right,
      Frame.number_append_left _ _ _ _ (by rw [bytes, bigEndianSigned_length, Nat.zero_add]), bytes]
    exact Frame.number_bigEndian n _ fits
  rw [number]
  exact signedOf_toNat n x positive low high

/-- A SET_PARAM result carries the identifier, the hoist and the value taken. -/
theorem Chip.paramTaken_laidOut (p : Chip) {identifier hoist : Nat} (value : Nat) (identifierFits : identifier < 256)
    (hoistFits : hoist < 256) :
    (replyAt (resultBytes (p.paramTaken identifier hoist value))).byte 6 = identifier ∧
    (replyAt (resultBytes (p.paramTaken identifier hoist value))).byte 7 = hoist ∧
    signedAt (replyAt (resultBytes (p.paramTaken identifier hoist value))) 8 4 value := by
  have field : (p.signedField 4 value).length = 4 := p.signedField_length 4 value
  have bytes : replyAt (resultBytes (p.paramTaken identifier hoist value)) =
      ⟨(List.replicate 6 0 ++ (byteField identifier ++ byteField hoist)) ++
        (p.signedField 4 value ++ List.replicate 18 0)⟩ := by
    have length : (p.paramTaken identifier hoist value).length = 6 := by
      rw [Chip.paramTaken, List.length_append, field]
      rfl
    rw [resultBytes_eq _ (by omega), length]
    simp [replyAt, Chip.paramTaken]
  rw [bytes]
  refine ⟨?_, ?_, p.signedAt_signedField value (by decide) _ _ (by simp [byteField])⟩
  · rw [Frame.byte_append_left _ _ _ (by simp [byteField])]
    simp [Frame.byte, byteField, Nat.mod_eq_of_lt identifierFits]
  · rw [Frame.byte_append_left _ _ _ (by simp [byteField])]
    simp [Frame.byte, byteField, Nat.mod_eq_of_lt hoistFits]

/-! ### The identifiers (section 11.5) -/

theorem plantParamOf_fits {n : Nat} {x : PlantParam} (known : plantParamOf n = some x) : n < 256 := by
  unfold plantParamOf at known
  split at known <;> first | decide | exact absurd known (by simp)

/-- A hoist parameter's identifier is one byte, and no plant parameter's. -/
theorem hoistParamOf_fits {n : Nat} {x : HoistParam} (known : hoistParamOf n = some x) : n < 256 ∧ plantParamOf n = none := by
  unfold hoistParamOf at known
  split at known <;> first | exact ⟨by decide, rfl⟩ | exact absurd known (by simp)

/-! ### What the owner makes of a value (R187) -/

section
variable {p : Chip} {identifier v : Nat} {value : Int}

theorem setParam_of_plant (hoist : Nat) {x : PlantParam} (known : plantParamOf identifier = some x)
    (taken : x.treatment.apply (p.plantRange x) value = some v) : setParam identifier hoist value p =
      (p.setPlant x v, answerTaken (decide ((v : Int) ≠ value)) (p.paramTaken identifier 0 v)) := by
  simp [setParam, known, taken]

theorem setParam_of_hoist {x : HoistParam} {h : HoistId} (known : hoistParamOf identifier = some x)
    (taken : x.treatment.apply ((p.hp h).range x) value = some v) (free : x = .gear ∨ (p.hoist h).phase = .idle) :
    setParam identifier h.val value p = (p.setHoistParam h x v,
      answerTaken (decide ((((p.hp h).set x v).get x : Int) ≠ value) || (p.hp h).movesNum x v)
        (p.paramTaken identifier h.val (((p.hp h).set x v).get x))) := by
  have unlocked : ¬(x ≠ .gear ∧ (p.hoist h).phase ≠ .idle) := fun both => free.elim both.1 both.2
  simp [setParam, (hoistParamOf_fits known).2, known, hoistOf_val, taken, unlocked]

theorem answerTaken_status (adjusted : Bool) (fields : List Byte) :
    (answerTaken adjusted fields).status = if adjusted then .adjusted else .done := by rfl

end

/-- A command that is carried out, with a change that leaves the port: the part after the end of the event, and the reply. -/
theorem State.Hands.command_carriedOut {s : State} {i : Instr} (hands : s.Hands i) {p : Chip} {a : Answer}
    (carriedOut : a.status.isRefusal = false) (port : p.port = s.chip.port) :
    s.command i (p, a) = .next { s with chip := (s.chip.finish p).reply a } ∧
      s.chip.repliedWith ((s.chip.finish p).reply a) a := by
  obtain ⟨f, inHand⟩ := hands.frame
  exact ⟨s.command_of_done i _ hands.handed carriedOut, Chip.repliedWith_finish_reply inHand port a⟩

end Sys2Proof.Machine
end


section
/-! SUPPORT. What SET_PARAM does to a plant parameter (spec/10 R187): the value, the restart of a filter group (spec/03 R56), and the clamping of
the setpoint (spec/07 R140). -/

namespace Sys2Proof.Machine

section
variable (q : PlantParams) (x : PlantParam) (v : Nat)

theorem PlantParams.get_set : (q.set x v).get x = v := by cases x <;> rfl

theorem PlantParams.set_get : q.set x (q.get x) = q := by cases x <;> rfl

end

/-! ### The setpoint (R138 to R142) -/

/-- What the setting of the setpoint leaves is as the statements describe it. -/
theorem Chip.setpointTaken_setSetpoint (p : Chip) (x : Int) : p.setpointTaken (p.setSetpoint x) x := by
  by_cases same : modeOf x = p.power.mode
  · have stays : p.setSetpoint x = ({ p with power := { p.power with setpoint := x } } : Chip).allocate := by
      simp [Chip.setSetpoint, same]
    rw [stays]
    exact ⟨rfl, same.symm, rfl, rfl, rfl, rfl, fun _ => ⟨rfl, rfl, rfl⟩, fun differs => absurd rfl differs⟩
  · have moves : p.setSetpoint x =
        (({ p with power := { p.power with setpoint := x } } : Chip).handModeChange (modeOf x)).allocate := by
      simp [Chip.setSetpoint, same]
    rw [moves]
    exact ⟨rfl, rfl, rfl, rfl, rfl, rfl, fun stays => absurd stays same,
      fun _ => ⟨fun h => ⟨Quad.get_tab _ h, Quad.get_tab _ h⟩, rfl⟩⟩

theorem Chip.setSetpoint_unchangedBut (p : Chip) (x : Int) : p.unchangedBut (p.setSetpoint x) [.power, .selector] := by
  unfold Chip.setSetpoint
  simp only
  split <;> intro part out <;> cases part <;> simp at out <;> rfl

/-! ### The parameter and its side effects -/

section
variable {p : Chip} {x : PlantParam} {v : Nat}

theorem Chip.setPlant_of_same (same : v = p.params.get x) : p.setPlant x v = p := if_pos same

theorem Chip.setPlant_of_change (change : v ≠ p.params.get x) :
    p.setPlant x v = ({ p with params := p.params.set x v } : Chip).afterPlantChange x := if_neg change

theorem Chip.afterPlantChange_unchangedBut : p.unchangedBut (p.afterPlantChange x) [.sensors, .power, .selector] := by
  unfold Chip.afterPlantChange
  split
  · intro part out
    cases part <;> simp at out <;> rfl
  · intro part out
    cases part <;> simp at out <;> rfl
  · simp only
    split
    · exact p.unchangedBut_refl _
    · exact Chip.unchangedBut_mono (p.setSetpoint_unchangedBut _) (by simp)
  · exact p.unchangedBut_refl _

theorem Chip.setPlant_params : (p.setPlant x v).params = p.params.set x v := by
  by_cases same : v = p.params.get x
  · rw [Chip.setPlant_of_same same, same, PlantParams.set_get]
  · rw [Chip.setPlant_of_change same]
    exact Chip.afterPlantChange_unchangedBut .params (by decide)

theorem Chip.setPlant_unchangedBut : p.unchangedBut (p.setPlant x v) [.params, .sensors, .selector, .power] := by
  by_cases same : v = p.params.get x
  · rw [Chip.setPlant_of_same same]
    exact p.unchangedBut_refl _
  · have value : p.unchangedBut { p with params := p.params.set x v } [.params, .sensors, .selector, .power] := by
      intro part out
      cases part <;> simp at out <;> rfl
    rw [Chip.setPlant_of_change same]
    exact Chip.unchangedBut_trans value (Chip.unchangedBut_mono Chip.afterPlantChange_unchangedBut (by simp))

theorem Chip.setSetpoint_sensors (x : Int) : (p.setSetpoint x).sensors = p.sensors :=
  p.setSetpoint_unchangedBut x .sensors (by decide)

/-- Only the filter codes bear on the bank (R56). -/
theorem Chip.afterPlantChange_sensors (unfiltered : x ≠ .bayFilter ∧ x ≠ .latchFilter) :
    (p.afterPlantChange x).sensors = p.sensors := by
  unfold Chip.afterPlantChange
  split
  · exact absurd rfl unfiltered.1
  · exact absurd rfl unfiltered.2
  · simp only
    split
    · rfl
    · exact Chip.setSetpoint_sensors _
  · rfl

/-- Only P_PLANT_MAX bears on the Power Allocator and the Trip Selector (R140). -/
theorem Chip.afterPlantChange_power (other : x ≠ .pPlantMax) :
    (p.afterPlantChange x).power = p.power ∧ (p.afterPlantChange x).selector = p.selector := by
  unfold Chip.afterPlantChange
  split
  · exact ⟨rfl, rfl⟩
  · exact ⟨rfl, rfl⟩
  · exact absurd rfl other
  · exact ⟨rfl, rfl⟩

/-- No side effect touches the interlock. -/
theorem Chip.setPlant_interlock : (p.setPlant x v).interlock = p.interlock := by
  by_cases same : v = p.params.get x
  · rw [Chip.setPlant_of_same same]
  rw [Chip.setPlant_of_change same]
  by_cases unfiltered : x ≠ .bayFilter ∧ x ≠ .latchFilter
  · exact Chip.interlock_of_sensors (Chip.afterPlantChange_sensors unfiltered)
  · rcases (by tauto : x = .bayFilter ∨ x = .latchFilter) with rfl | rfl <;> rfl

/-- Only a changed filter code touches the bank (R56). -/
theorem Chip.setPlant_sensors (unfiltered : x ≠ .bayFilter ∧ x ≠ .latchFilter ∨ v = p.params.get x) :
    (p.setPlant x v).sensors = p.sensors := by
  by_cases same : v = p.params.get x
  · rw [Chip.setPlant_of_same same]
  · rw [Chip.setPlant_of_change same]
    exact Chip.afterPlantChange_sensors (unfiltered.resolve_right same)

theorem Chip.setPlant_power (other : x ≠ .pPlantMax) :
    (p.setPlant x v).power = p.power ∧ (p.setPlant x v).selector = p.selector := by
  by_cases same : v = p.params.get x
  · rw [Chip.setPlant_of_same same]
    exact ⟨rfl, rfl⟩
  · rw [Chip.setPlant_of_change same]
    exact Chip.afterPlantChange_power other

theorem Chip.setPlant_bayFilter (change : v ≠ p.params.bayFilter) :
    (p.setPlant .bayFilter v).sensors = p.restartBayGroup.sensors := by
  rw [Chip.setPlant_of_change (x := .bayFilter) change]
  rfl

theorem Chip.setPlant_latchFilter (change : v ≠ p.params.latchFilter) :
    (p.setPlant .latchFilter v).sensors = p.restartLatchGroup.sensors := by
  rw [Chip.setPlant_of_change (x := .latchFilter) change]
  rfl

/-- A P_PLANT_MAX that is as it was, or within which the setpoint is, leaves the allocator and the selector (R140). -/
theorem Chip.setPlant_pPlantMax_idle (idle : v = p.params.pPlantMax ∨ clampTo v p.power.setpoint = p.power.setpoint) :
    (p.setPlant .pPlantMax v).power = p.power ∧ (p.setPlant .pPlantMax v).selector = p.selector := by
  by_cases same : v = p.params.pPlantMax
  · rw [Chip.setPlant_of_same (x := .pPlantMax) same]
    exact ⟨rfl, rfl⟩
  · have within : clampTo v p.power.setpoint = p.power.setpoint := idle.resolve_left same
    rw [Chip.setPlant_of_change (x := .pPlantMax) same]
    simp only [Chip.afterPlantChange, PlantParams.set, within, if_true]
    exact ⟨trivial, trivial⟩

/-- A changed P_PLANT_MAX that the setpoint exceeds clamps it (R140). -/
theorem Chip.setPlant_pPlantMax_clamps (change : v ≠ p.params.pPlantMax)
    (beyond : clampTo v p.power.setpoint ≠ p.power.setpoint) :
    p.setpointTaken (p.setPlant .pPlantMax v) (clampTo v p.power.setpoint) := by
  have clamped : p.setPlant .pPlantMax v =
      ({ p with params := { p.params with pPlantMax := v } } : Chip).setSetpoint (clampTo v p.power.setpoint) := by
    rw [Chip.setPlant_of_change (x := .pPlantMax) change]
    exact if_neg beyond
  rw [clamped]
  exact Chip.setpointTaken_setSetpoint ({ p with params := { p.params with pPlantMax := v } } : Chip) _

/-- The description of a setpoint taken reads the allocator, the selector and the controllers. -/
theorem Chip.setpointTaken_congr {q r : Chip} {taken : Int} (power : r.power = q.power) (selector : r.selector = q.selector)
    (hoists : r.hoists = q.hoists) (set : p.setpointTaken q taken) : p.setpointTaken r taken := by
  have eligible : ∀ h, r.eligibleLaw h = q.eligibleLaw h := fun h => by
    unfold Chip.eligibleLaw Chip.hoist
    rw [hoists, power]
  unfold Chip.setpointTaken at *
  simpa only [power, selector, eligible] using set

end

/-- SET_PARAM of a plant parameter that takes a value: beyond the parameter and its side effects nothing moves but the port, which answers. -/
theorem State.Hands.setParam_plant {s : State} {identifier hoist v : Nat} {value : Int} {x : PlantParam} {a : Answer}
    (hands : s.Hands (.setParam identifier hoist value)) (known : plantParamOf identifier = some x)
    (treated : x.treatment.apply (s.chip.plantRange x) value = some v)
    (answer : a = answerTaken (decide ((v : Int) ≠ value)) (s.chip.paramTaken identifier 0 v)) :
    ∃ t, exec (.setParam identifier hoist value) s = .next t ∧ t.pending = s.pending ∧
      (s.chip.setPlant x v).unchangedBut t.chip [.port] ∧ s.chip.repliedWith t.chip a := by
  have change : s.chip.unchangedBut (s.chip.setPlant x v) [.params, .sensors, .selector, .power] :=
    Chip.setPlant_unchangedBut
  have units : (s.chip.setPlant x v).units = s.chip.units := change .units (by decide)
  have quiet : (s.chip.setPlant x v).unchangedBut (s.chip.finish (s.chip.setPlant x v)) [.port] :=
    hands.kept.finish_port_only (change .hoists (by decide)) (change .links (by decide))
      (fun h => by unfold Chip.unit; rw [units]) Chip.setPlant_interlock
  obtain ⟨next, replied⟩ := hands.command_carriedOut (p := s.chip.setPlant x v) (a := a)
    (by rw [answer, answerTaken_isRefusal]) (change .port (by decide))
  refine ⟨{ s with chip := (s.chip.finish (s.chip.setPlant x v)).reply a }, ?_, rfl, Chip.unchangedBut_trans quiet (Chip.reply_unchangedBut _ a), replied⟩
  show s.command _ (setParam identifier hoist value s.chip) = _
  rw [setParam_of_plant hoist known treated, ← answer]
  exact next

end Sys2Proof.Machine
end


section
/-! SUPPORT. What SET_PARAM does to a hoist parameter (spec/10 R187): the values (spec/04 R68, spec/07 R153), the loss of reference (R69), and the
division of the shares (spec/07 R143). -/

namespace Sys2Proof.Machine

/-! ### The values (R68, R153) -/

section
variable (q : HoistParams) (x y : HoistParam) (v : Nat)

theorem HoistParams.get_set (notNum : x ≠ .num) : (q.set x v).get x = v := by
  cases x <;> first | rfl | exact absurd rfl notNum

/-- A value set moves beside it NUM by the ratio, and V_REPOSITION and V_TRANSFER by V_RATED, only (R68, R153). -/
theorem HoistParams.get_set_of_ne (ne : y ≠ x) (notNum : y ≠ .num)
    (notLowered : ¬(x = .vRated ∧ (y = .vReposition ∨ y = .vTransfer))) : (q.set x v).get y = q.get y := by
  cases x <;> cases y <;> simp_all [HoistParams.set, HoistParams.get]

theorem HoistParams.set_num (notNum : x ≠ .num) (notDen : x ≠ .den) : (q.set x v).num = q.num := by
  cases x <;> first | rfl | exact absurd rfl notNum | exact absurd rfl notDen

/-- NUM after a SET_PARAM of NUM or DEN is brought within the ratio's bounds (R68). -/
theorem HoistParams.set_ratio (either : x = .num ∨ x = .den) :
    (q.set x v).num = adjustNum (if x = .num then v else q.num) (q.set x v).den := by
  rcases either with rfl | rfl <;> rfl

/-- The answer is DONE where the value stands as it was given and, of DEN, has not moved NUM (R68, R187). -/
theorem HoistParams.answerTaken_status (value : Int) (fields : List Byte) :
    (answerTaken (decide (((q.set x v).get x : Int) ≠ value) || q.movesNum x v) fields).status =
      if ((q.set x v).get x : Int) = value ∧ (x = .den → (q.set x v).num = q.num) then .done else .adjusted := by
  have adjusted : (decide (((q.set x v).get x : Int) ≠ value) || q.movesNum x v) =
      !decide (((q.set x v).get x : Int) = value ∧ (x = .den → (q.set x v).num = q.num)) := by
    rw [Bool.eq_iff_iff]
    by_cases den : x = .den
    · subst den
      simp [HoistParams.movesNum]
    · simp [HoistParams.movesNum, den]
  rw [Machine.answerTaken_status, adjusted]
  by_cases done : ((q.set x v).get x : Int) = value ∧ (x = .den → (q.set x v).num = q.num)
  · rw [if_pos done, decide_eq_true done]
    rfl
  · rw [if_neg done, decide_eq_false done]
    rfl

end

/-- The bounds of the ratio, 1/1,024 to 16 (R68). -/
theorem adjustNum_cases (n den : Nat) :
    (16 * den < n → adjustNum n den = 16 * den) ∧
    (n ≤ 16 * den → 1024 * n < den → den ≤ 1024 * adjustNum n den ∧ 1024 * adjustNum n den < den + 1024) ∧
    (n ≤ 16 * den → den ≤ 1024 * n → adjustNum n den = n) := by
  unfold adjustNum leastNum
  refine ⟨fun above => if_pos above, fun within below => ?_, fun within enough => ?_⟩
  · rw [if_neg (by omega), if_pos below]
    omega
  · rw [if_neg (by omega), if_neg (by omega)]

/-! ### The parameter and its side effects -/

section
variable {p : Chip} {h : HoistId} {x : HoistParam} {v : Nat}

/-- The part with the values of hoist `h` set, before their side effects. -/
def Chip.withHoistParams (p : Chip) (h : HoistId) (q : HoistParams) : Chip := { p with hoistParams := p.hoistParams.set h q }

/-- The part after the values of hoist `h` and the loss of reference that a change of scale works (R69). -/
def Chip.rescale (p : Chip) (h : HoistId) (q : HoistParams) : Chip :=
  if (p.hp h).rescaled q then (p.withHoistParams h q).unreference h else p.withHoistParams h q

theorem Chip.setHoistParam_eq : p.setHoistParam h x v =
    if (p.hp h).pRated = ((p.hp h).set x v).pRated then p.rescale h ((p.hp h).set x v)
    else (p.rescale h ((p.hp h).set x v)).allocate := rfl

theorem Chip.rescale_unchangedBut (q : HoistParams) : p.unchangedBut (p.rescale h q) [.hoistParams, .units] := by
  unfold Chip.rescale
  split <;> intro part out <;> cases part <;> simp at out <;> rfl

theorem Chip.allocate_unchangedBut : p.unchangedBut p.allocate [.power] := by
  intro part out
  cases part <;> simp at out <;> rfl

theorem Chip.setHoistParam_rescale : (p.rescale h ((p.hp h).set x v)).unchangedBut (p.setHoistParam h x v) [.power] := by
  rw [Chip.setHoistParam_eq]
  split
  · exact Chip.unchangedBut_refl _ _
  · exact Chip.allocate_unchangedBut

theorem Chip.rescale_hoistParams (q : HoistParams) : (p.rescale h q).hoistParams = p.hoistParams.set h q := by
  unfold Chip.rescale
  split <;> rfl

theorem Chip.setHoistParam_hp (k : HoistId) :
    (p.setHoistParam h x v).hp k = if k = h then (p.hp h).set x v else p.hp k := by
  have table : (p.setHoistParam h x v).hoistParams = p.hoistParams.set h ((p.hp h).set x v) :=
    (Chip.setHoistParam_rescale .hoistParams (by decide)).trans (Chip.rescale_hoistParams _)
  show (p.setHoistParam h x v).hoistParams.get k = _
  rw [table, Quad.get_set]
  rfl

theorem Chip.setHoistParam_unit (k : HoistId) : (p.setHoistParam h x v).unit k =
    if k = h ∧ (p.hp h).rescaled ((p.hp h).set x v) = true then
      { p.unit h with referenced := false, markers := [], missRun := 0 } else p.unit k := by
  have units : (p.setHoistParam h x v).units = (p.rescale h ((p.hp h).set x v)).units :=
    Chip.setHoistParam_rescale .units (by decide)
  show (p.setHoistParam h x v).units.get k = _
  rw [units]
  unfold Chip.rescale
  cases rescaled : (p.hp h).rescaled ((p.hp h).set x v)
  · rw [if_neg (by simp), if_neg (by simp)]
    rfl
  · simp only [if_true, and_true]
    exact Quad.get_set p.units h k _

theorem HoistParams.rescaled_iff (q r : HoistParams) :
    q.rescaled r = true ↔ r.num ≠ q.num ∨ r.den ≠ q.den ∨ r.zHead ≠ q.zHead := by
  unfold HoistParams.rescaled
  rw [decide_eq_true_iff]
  tauto

theorem Chip.setHoistParam_power_same (same : ((p.hp h).set x v).pRated = (p.hp h).pRated) :
    (p.setHoistParam h x v).power = p.power := by
  rw [Chip.setHoistParam_eq, if_pos same.symm]
  exact Chip.rescale_unchangedBut _ .power (by decide)

/-- A changed P_RATED divides the shares anew with the eligible set as it stands (R143). -/
theorem Chip.setHoistParam_power (change : ((p.hp h).set x v).pRated ≠ (p.hp h).pRated) :
    (p.setHoistParam h x v).power = { p.power with
      share := sharesOf p.power.setpoint.natAbs p.power.eligible (Quad.tab fun k => ((p.setHoistParam h x v).hp k).pRated)
      total := sumQuad (p.setHoistParam h x v).power.share
      unserved := p.power.setpoint.natAbs - (p.setHoistParam h x v).power.total } := by
  have power : (p.rescale h ((p.hp h).set x v)).power = p.power := Chip.rescale_unchangedBut _ .power (by decide)
  rw [Chip.setHoistParam_eq, if_neg (Ne.symm change), ← power]
  rfl

theorem Chip.setHoistParam_unchangedBut : p.unchangedBut (p.setHoistParam h x v) [.hoistParams, .units, .power] :=
  Chip.unchangedBut_append (first := [.hoistParams, .units]) (Chip.rescale_unchangedBut _) Chip.setHoistParam_rescale

end

/-! ### The end of the command -/

section
variable {p : Chip} {h : HoistId} {x : HoistParam} {v : Nat} (kept : p.Kept)
include kept

/-- The controllers after a SET_PARAM of a hoist parameter: hoist `h` is not able where its scale has changed, and nothing else (R69, R89). -/
theorem Chip.Kept.finish_setHoistParam_hoist (k : HoistId) : (p.finish (p.setHoistParam h x v)).hoist k =
    if k = h ∧ (p.hp h).rescaled ((p.hp h).set x v) = true then { p.hoist h with able := false } else p.hoist k := by
  obtain ⟨q, def_q⟩ : ∃ q, q = p.setHoistParam h x v := ⟨_, rfl⟩
  have frame : p.unchangedBut q [.hoistParams, .units, .power] := def_q ▸ Chip.setHoistParam_unchangedBut
  have hoist : q.hoist k = p.hoist k := congrArg (Quad.get · k) (frame .hoists (by decide))
  have link : q.link k = p.link k := congrArg (Quad.get · k) (frame .links (by decide))
  have interlock : q.interlock = p.interlock := Chip.interlock_of_sensors (frame .sensors (by decide))
  have unit : q.unit k = _ := def_q ▸ Chip.setHoistParam_unit k
  rw [← def_q, Chip.finish_hoist]
  by_cases rescaled : k = h ∧ (p.hp h).rescaled ((p.hp h).set x v) = true
  · rw [if_pos rescaled] at unit ⊢
    have notAble : q.ableLaw k = false := by simp [Chip.ableLaw, unit]
    have brake : q.brakeLaw k = p.brakeLaw k :=
      Chip.brakeLaw_congr (by rw [link]) interlock (by rw [hoist]) (by rw [hoist]) (by rw [hoist])
    rw [← rescaled.1, ← kept.keptHoist k, Chip.keptHoist, notAble, brake, hoist]
    rfl
  · rw [if_neg rescaled] at unit ⊢
    rw [Chip.keptHoist_congr hoist link (by rw [unit]) interlock, kept.keptHoist]

theorem Chip.Kept.finish_setHoistParam_unchangedBut :
    (p.setHoistParam h x v).unchangedBut (p.finish (p.setHoistParam h x v)) [.hoists, .port] := by
  obtain ⟨q, def_q⟩ : ∃ q, q = p.setHoistParam h x v := ⟨_, rfl⟩
  have frame : p.unchangedBut q [.hoistParams, .units, .power] := def_q ▸ Chip.setHoistParam_unchangedBut
  have hoist : ∀ k, q.hoist k = p.hoist k := fun k => congrArg (Quad.get · k) (frame .hoists (by decide))
  have link : ∀ k, q.link k = p.link k := fun k => congrArg (Quad.get · k) (frame .links (by decide))
  have referenced : ∀ k, (q.unit k).referenced = true → (p.unit k).referenced = true := fun k => by
    have unit : q.unit k = _ := def_q ▸ Chip.setHoistParam_unit k
    rw [unit]
    split
    · exact fun no => absurd no (by simp)
    · exact id
  rw [← def_q]
  refine Chip.finish_moves (by simp) (fun _ => ?_) (fun _ => ?_) (by simp)
  · refine Chip.finish_selector fun k law => ?_
    rw [hoist, kept.able]
    simp only [Chip.ableLaw, hoist, link, decide_eq_true_eq] at law ⊢
    obtain ⟨up, enabled, isReferenced, rest⟩ := law
    exact ⟨up, enabled, referenced k isReferenced, rest⟩
  · exact Chip.finish_power fun k differs => absurd (by rw [hoist]) differs

end

/-- SET_PARAM of a hoist parameter that takes a value: the parameter with its side effects, able, and the port's answer. -/
theorem State.Hands.setParam_hoist {s : State} {identifier v : Nat} {value : Int} {x : HoistParam} {h : HoistId} {a : Answer}
    (hands : s.Hands (.setParam identifier h.val value)) (known : hoistParamOf identifier = some x)
    (treated : x.treatment.apply ((s.chip.hp h).range x) value = some v)
    (free : x = .gear ∨ (s.chip.hoist h).phase = .idle)
    (answer : a = answerTaken (decide ((((s.chip.hp h).set x v).get x : Int) ≠ value) || (s.chip.hp h).movesNum x v)
      (s.chip.paramTaken identifier h.val (((s.chip.hp h).set x v).get x))) :
    ∃ t, exec (.setParam identifier h.val value) s = .next t ∧ t.pending = s.pending ∧
      (s.chip.setHoistParam h x v).unchangedBut t.chip [.hoists, .port] ∧
      (∀ k, t.chip.hoist k = if k = h ∧ (s.chip.hp h).rescaled ((s.chip.hp h).set x v) = true then
        { s.chip.hoist h with able := false } else s.chip.hoist k) ∧ s.chip.repliedWith t.chip a := by
  obtain ⟨next, replied⟩ := hands.command_carriedOut (p := s.chip.setHoistParam h x v) (a := a)
    (by rw [answer, answerTaken_isRefusal]) (Chip.setHoistParam_unchangedBut .port (by decide))
  refine ⟨{ s with chip := (s.chip.finish (s.chip.setHoistParam h x v)).reply a }, ?_, rfl,
    Chip.unchangedBut_trans hands.kept.finish_setHoistParam_unchangedBut
      (Chip.unchangedBut_mono (Chip.reply_unchangedBut _ a) (by simp)), fun k => ?_, replied⟩
  · show s.command _ (setParam identifier h.val value s.chip) = _
    rw [setParam_of_hoist known treated free, ← answer]
    exact next
  · exact (Chip.reply_hoist _ a k).trans (hands.kept.finish_setHoistParam_hoist k)

/-! ### The command -/

/-- Settles O43: the plant parameters, then the hoist parameters, each clause from the lemma about the value or the side effect it names. -/
theorem setParamCompletes : Obligations.SetParamCompletes := by
  intro s identifier hoist v value hands
  refine ⟨fun x known treated => ?plant, fun x h known is_h treated free => ?hoist⟩
  case plant =>
    obtain ⟨a, answer⟩ : ∃ a, a = answerTaken (decide ((v : Int) ≠ value)) (s.chip.paramTaken identifier 0 v) := ⟨_, rfl⟩
    obtain ⟨t, next, pending, after, replied⟩ := hands.setParam_plant known treated answer
    obtain ⟨shownIdentifier, shownHoist, shownValue⟩ :=
      s.chip.paramTaken_laidOut (hoist := 0) v (plantParamOf_fits known) (by decide)
    have params : t.chip.params = s.chip.params.set x v := (after .params (by decide)).trans Chip.setPlant_params
    have sensors : t.chip.sensors = (s.chip.setPlant x v).sensors := after .sensors (by decide)
    have power : t.chip.power = (s.chip.setPlant x v).power := after .power (by decide)
    have selector : t.chip.selector = (s.chip.setPlant x v).selector := after .selector (by decide)
    refine ⟨t, a, next, pending, Chip.unchangedBut_mono (Chip.unchangedBut_append Chip.setPlant_unchangedBut after) (by simp),
      params, fun _ => by rw [params, PlantParams.get_set], replied, ?status, by rw [answer]; exact shownIdentifier,
      by rw [answer]; exact shownHoist, by rw [answer]; exact shownValue,
      fun unfiltered => sensors.trans (Chip.setPlant_sensors unfiltered), ?bay, ?latch,
      fun other => by rw [power, selector]; exact Chip.setPlant_power other, ?limit⟩
    case status =>
      rw [answer, answerTaken_status]
      by_cases same : (v : Int) = value <;> simp [same]
    case bay =>
      rintro rfl change
      rw [sensors, Chip.setPlant_bayFilter change]
      refine ⟨fun b => ?_, rfl⟩
      simp [Chip.restartBayGroup, LineFilter.forget]
    case latch =>
      rintro rfl change
      rw [sensors, Chip.setPlant_latchFilter change]
      exact ⟨fun h => Quad.get_tab _ h, rfl⟩
    case limit =>
      rintro rfl taken rfl
      exact ⟨fun idle => by rw [power, selector]; exact Chip.setPlant_pPlantMax_idle idle, fun change beyond =>
        Chip.setpointTaken_congr power selector (after .hoists (by decide)) (Chip.setPlant_pPlantMax_clamps change beyond)⟩
  case hoist =>
    subst is_h
    obtain ⟨a, answer⟩ : ∃ a, a = answerTaken
        (decide ((((s.chip.hp h).set x v).get x : Int) ≠ value) || (s.chip.hp h).movesNum x v)
        (s.chip.paramTaken identifier h.val (((s.chip.hp h).set x v).get x)) := ⟨_, rfl⟩
    obtain ⟨t, next, pending, after, hoists, replied⟩ := hands.setParam_hoist known treated free answer
    obtain ⟨shownIdentifier, shownHoist, shownValue⟩ :=
      s.chip.paramTaken_laidOut (hoist := h.val) (((s.chip.hp h).set x v).get x) (hoistParamOf_fits known).1 (by omega)
    have hp : ∀ k, t.chip.hp k = if k = h then (s.chip.hp h).set x v else s.chip.hp k := fun k =>
      (congrArg (Quad.get · k) (after .hoistParams (by decide))).trans (Chip.setHoistParam_hp k)
    have unit : ∀ k, t.chip.unit k = _ := fun k =>
      (congrArg (Quad.get · k) (after .units (by decide))).trans (Chip.setHoistParam_unit k)
    have power : t.chip.power = (s.chip.setHoistParam h x v).power := after .power (by decide)
    have own : t.chip.hp h = (s.chip.hp h).set x v := (hp h).trans (if_pos rfl)
    refine ⟨t, a, next, pending, Chip.unchangedBut_mono (Chip.unchangedBut_append Chip.setHoistParam_unchangedBut after)
      (by simp), fun k ne => (hp k).trans (if_neg ne), fun k ne => (unit k).trans (if_neg fun both => ne both.1),
      fun k ne => (hoists k).trans (if_neg fun both => ne both.1), replied, ?_⟩
    rw [own, answer]
    refine ⟨HoistParams.answerTaken_status _ _ _ _ _, shownIdentifier, shownHoist, shownValue, HoistParams.get_set _ _ _,
      fun y ne notNum notLowered => HoistParams.get_set_of_ne _ _ _ _ ne notNum notLowered, ?lowered,
      HoistParams.set_num _ _ _, ?ratio, fun same => ?unscaled, fun differs => ?scaled,
      fun same => power.trans (Chip.setHoistParam_power_same same), fun change => ?rated⟩
    case lowered =>
      rintro rfl
      exact ⟨rfl, rfl⟩
    case ratio =>
      rintro either n den rfl rfl
      rw [HoistParams.set_ratio _ _ _ either]
      exact adjustNum_cases _ _
    case unscaled =>
      have kept : ¬(s.chip.hp h).rescaled ((s.chip.hp h).set x v) = true := by
        rw [HoistParams.rescaled_iff]
        tauto
      exact ⟨Quad.ext_get _ _ fun k => (unit k).trans (if_neg fun both => kept both.2),
        Quad.ext_get _ _ fun k => (hoists k).trans (if_neg fun both => kept both.2)⟩
    case scaled =>
      have rescaled := (HoistParams.rescaled_iff _ _).mpr differs
      exact ⟨(unit h).trans (if_pos ⟨rfl, rescaled⟩), (hoists h).trans (if_pos ⟨rfl, rescaled⟩)⟩
    case rated =>
      have table : (s.chip.setHoistParam h x v).hp = t.chip.hp := funext fun k => ((hp k).trans (Chip.setHoistParam_hp k).symm).symm
      rw [power, ← table]
      exact Chip.setHoistParam_power change

end Sys2Proof.Machine
end


section
/-! SUPPORT. The sample instant of a filter group (spec/03 R53 to R56) line by line: what one sample reads and writes, and that the lines do not
bear on each other. -/

namespace Sys2Proof.Machine

/-! ### When an instant comes about (R53, R54, R56) -/

theorem FilterGroup.instantOpen_iff (code : Nat) (g : FilterGroup) :
    g.instantOpen code = true ↔ g.due = true ∨ g.ahead = false ∧ g.instantOnNextMark code := by
  rw [g.instantOnNextMark_iff]
  simp [FilterGroup.instantOpen]

/-! ### One line (R53 to R55) -/

theorem Sampled.cases (x : Sampled) : x = .nothing ∨ x = .initial ∨ x = .change := by cases x <;> simp

section
variable {α : Type} [DecidableEq α]

/-- A line with its group's code and the level its owner holds. -/
structure LineReading (α : Type) where
  code : Nat
  line : LineFilter α
  field : Option α

/-- The same after a sample: the owner's level follows an acceptance. -/
def LineReading.sampled (level : α) (r : LineReading α) : LineReading α :=
  { r with
    line := r.line.sampled r.code level
    field := if r.line.judge r.code level = .nothing then r.field else some level }

variable (r : LineReading α) (level : α)

/-- The first sample of a line is its accepted level (R55). -/
theorem LineReading.sampled_of_first (first : r.line.accepted = none) :
    (r.sampled level).line.accepted = some level ∧ (r.sampled level).field = some level := by
  have judged : r.line.judge r.code level = .initial := by simp [LineFilter.judge, first]
  simp [LineReading.sampled, LineFilter.sampled, judged]

/-- A level that differs from the accepted one is accepted with code 0 or where the sample before agrees (R53, R54). -/
theorem LineReading.sampled_of_change {a : α} (accepted : r.line.accepted = some a) (differs : level ≠ a)
    (checked : r.code = 0 ∨ r.line.previous = some level) :
    (r.sampled level).line.accepted = some level ∧ (r.sampled level).field = some level := by
  have judged := LineFilter.judge_of_change r.code accepted differs checked
  simp [LineReading.sampled, LineFilter.sampled, judged]

/-- Otherwise the accepted level and the owner's stay. -/
theorem LineReading.sampled_of_nothing {a : α} (accepted : r.line.accepted = some a)
    (unaccepted : level = a ∨ r.code ≠ 0 ∧ r.line.previous ≠ some level) :
    (r.sampled level).line.accepted = some a ∧ (r.sampled level).field = r.field := by
  have judged : r.line.judge r.code level = .nothing := by
    rcases unaccepted with rfl | ⟨coded, differs⟩
    · simp [LineFilter.judge, accepted]
    · simp [LineFilter.judge, accepted, coded, differs]
  simp [LineReading.sampled, LineFilter.sampled, judged, accepted]

end

/-- A fold whose every step changes one record, by that record alone, changes the records of its list, each by its own step. -/
theorem foldl_of_independent {ι σ α : Type} [DecidableEq ι] (read : σ → ι → α) (change : ι → α → α) {f : σ → ι → σ}
    (each : ∀ s i k, read (f s i) k = if k = i then change i (read s i) else read s k) (l : List ι) (distinct : l.Nodup)
    (s : σ) (k : ι) : read (l.foldl f s) k = if k ∈ l then change k (read s k) else read s k := by
  induction l generalizing s with
  | nil => simp
  | cons i rest ih =>
    obtain ⟨apart, distinct⟩ := List.nodup_cons.mp distinct
    rw [List.foldl_cons, ih distinct, each]
    by_cases own : k = i
    · subst own
      simp [apart]
    · simp [own]

theorem Chip.foldl_unchangedBut {ι : Type} {f : Chip → ι → Chip} {parts : List Part}
    (each : ∀ (q : Chip) i, q.unchangedBut (f q i) parts) {l : List ι} {p : Chip} : p.unchangedBut (l.foldl f p) parts := by
  induction l generalizing p with
  | nil => exact p.unchangedBut_refl _
  | cons i _ ih => exact Chip.unchangedBut_trans (each p i) ih

/-! ### Group BAY -/

section
variable (p : Chip) (levels : BitVec 64) (b k : BayId)

/-- What of a bay and its line a sample instant reads and writes. -/
def Chip.bayReading : LineReading Occupancy := ⟨p.params.bayFilter, p.sensors.bayLines[b], (p.bay b).sensor⟩

/-- A reconciliation leaves the level that every bay holds: an operation on the bays keeps it true to any bank (R27). -/
theorem Chip.reconcile_sensor (level : Occupancy) : ((p.reconcile b level).bay k).sensor = (p.bay k).sensor := by
  obtain ⟨bank, def_bank⟩ : ∃ x, x = { p.sensors with bayLines := Vector.ofFn fun j : BayId => ⟨(p.bay j).sensor, none⟩ } :=
    ⟨_, rfl⟩
  have line : ∀ j : BayId, (bank.bayLines[j]).accepted = (p.bay j).sensor := fun j => by rw [def_bank]; simp
  have agrees := (Chip.KeepsBays.reconcile (p := p.withSensors bank) b level).sensors fun j => (line j).symm
  rw [Chip.withSensors_reconcile] at agrees
  exact (agrees k).trans (line k)

theorem Chip.acceptBay_sensor (level : Occupancy) (initial : Bool) :
    ((p.acceptBay b level initial).bay k).sensor = if k = b then some level else (p.bay k).sensor := by
  have recorded : ((p.updBay b fun r => { r with sensor := some level }).bay k).sensor =
      if k = b then some level else (p.bay k).sensor := by
    rw [Chip.updBay_bay]
    split <;> rfl
  cases initial
  · exact (Chip.reconcile_sensor _ b k level).trans recorded
  · exact recorded

theorem Chip.reconcile_unchangedBut (level : Occupancy) :
    p.unchangedBut (p.reconcile b level) [.masses, .bays, .hoists, .selector, .orders] := by
  have lost : ∀ m, p.unchangedBut ((p.barBay b .lost).massLostFromBay m) [.masses, .bays, .hoists, .selector, .orders] :=
    fun m => Chip.unchangedBut_mono (p.lost_unchangedBut b m) (by simp)
  have barred : ∀ cause, p.unchangedBut (p.barBay b cause) [.masses, .bays, .hoists, .selector, .orders] :=
    fun cause => Chip.unchangedBut_mono (p.barBay_unchangedBut b cause) (by simp)
  unfold Chip.reconcile
  simp only
  split
  case h_3 => exact barred _
  case h_5 =>
    split
    · exact p.unchangedBut_refl _
    · split
      · exact Chip.TripFrame.releaseTest.unchangedBut
      · split
        · exact Chip.unchangedBut_trans (barred _) (Chip.TripFrame.loseDestination _).unchangedBut
        · exact p.unchangedBut_refl _
  case h_6 =>
    split
    · exact p.unchangedBut_refl _
    · split
      · exact Chip.unchangedBut_mono (p.takenAway_unchangedBut b _) (by simp)
      · exact lost _
  case h_7 =>
    split
    · exact Chip.unchangedBut_mono (p.openBay_unchangedBut b) (by simp)
    · split
      · exact lost _
      · exact Chip.unchangedBut_trans (lost _) (Chip.TripFrame.loseSource _).unchangedBut
  all_goals exact p.unchangedBut_refl _

theorem Chip.acceptBay_unchangedBut (level : Occupancy) (initial : Bool) :
    p.unchangedBut (p.acceptBay b level initial) [.masses, .bays, .hoists, .selector, .orders] := by
  have recorded := Chip.unchangedBut_mono (more := [.masses, .bays, .hoists, .selector, .orders])
    (p.updBay_unchangedBut b fun r => { r with sensor := some level }) (by simp)
  cases initial
  · exact Chip.unchangedBut_trans recorded (Chip.reconcile_unchangedBut _ b level)
  · exact recorded

/-- A sample of one bay line, from the part in which the bank has recorded it. -/
theorem Chip.sampleBay_eq : Chip.sampleBay levels p b =
    match (p.sensors.bayLines[b]).judge p.params.bayFilter (bayLevel levels b) with
    | .nothing => p.withSensors (p.sensors.sampleLine p.params.bayFilter levels b)
    | .initial => (p.withSensors (p.sensors.sampleLine p.params.bayFilter levels b)).acceptBay b (bayLevel levels b) true
    | .change => p.finish
        ((p.withSensors (p.sensors.sampleLine p.params.bayFilter levels b)).acceptBay b (bayLevel levels b) false) := rfl

theorem Chip.sampleBay_sensors :
    (Chip.sampleBay levels p b).sensors = p.sensors.sampleLine p.params.bayFilter levels b := by
  have accepted : ∀ initial, ((p.withSensors (p.sensors.sampleLine p.params.bayFilter levels b)).acceptBay b
      (bayLevel levels b) initial).sensors = p.sensors.sampleLine p.params.bayFilter levels b := fun initial =>
    Chip.acceptBay_unchangedBut _ b _ initial .sensors (by decide)
  rw [Chip.sampleBay_eq]
  split
  · rfl
  · exact accepted true
  · exact (Chip.finish_sensors _ _).trans (accepted false)

theorem Chip.sampleBay_unchangedBut : p.unchangedBut (Chip.sampleBay levels p b)
    [.masses, .bays, .sensors, .hoists, .selector, .orders, .power, .port] := by
  have recorded : p.unchangedBut (p.withSensors (p.sensors.sampleLine p.params.bayFilter levels b)) [.sensors] := by
    intro x out
    cases x <;> simp at out <;> rfl
  have accepted : ∀ initial, p.unchangedBut ((p.withSensors (p.sensors.sampleLine p.params.bayFilter levels b)).acceptBay b
      (bayLevel levels b) initial) ([.sensors] ++ [.masses, .bays, .hoists, .selector, .orders]) := fun initial =>
    Chip.unchangedBut_append recorded (Chip.acceptBay_unchangedBut _ b _ initial)
  rw [Chip.sampleBay_eq]
  split
  · exact Chip.unchangedBut_mono recorded (by simp)
  · exact Chip.unchangedBut_mono (accepted true) (by simp)
  · exact Chip.unchangedBut_mono (Chip.unchangedBut_append (accepted false) (Chip.finish_unchangedBut _ _)) (by simp)

/-- A sample of one bay line changes its bay's reading, and no other's. -/
theorem Chip.sampleBay_reading : (Chip.sampleBay levels p b).bayReading k =
    if k = b then (p.bayReading b).sampled (bayLevel levels b) else p.bayReading k := by
  have code : (Chip.sampleBay levels p b).params = p.params := Chip.sampleBay_unchangedBut p levels b .params (by decide)
  have line : (Chip.sampleBay levels p b).sensors.bayLines[k] =
      if k = b then (p.sensors.bayLines[b]).sampled p.params.bayFilter (bayLevel levels b) else p.sensors.bayLines[k] := by
    rw [Chip.sampleBay_sensors]
    split
    · rename_i own
      subst own
      simp [SensorBank.sampleLine]
    · rename_i ne
      exact SensorBank.sampleLine_of_ne _ _ _ ne
  have field : ((Chip.sampleBay levels p b).bay k).sensor =
      if k = b then ((p.bayReading b).sampled (bayLevel levels b)).field else (p.bay k).sensor := by
    have accepted : ∀ initial, (((p.withSensors (p.sensors.sampleLine p.params.bayFilter levels b)).acceptBay b
        (bayLevel levels b) initial).bay k).sensor = if k = b then some (bayLevel levels b) else (p.bay k).sensor := fun initial =>
      Chip.acceptBay_sensor _ b k _ initial
    rcases Sampled.cases ((p.sensors.bayLines[b]).judge p.params.bayFilter (bayLevel levels b)) with judged | judged | judged <;>
      simp only [LineReading.sampled, Chip.bayReading, Chip.sampleBay_eq, judged]
    · split
      · rename_i own
        rw [own]
        rfl
      · rfl
    · exact accepted true
    · rw [Chip.finish_bay]
      exact accepted false
  unfold Chip.bayReading at *
  rw [code, line, field]
  split <;> rfl

/-! ### The instant of group BAY -/

/-- The part in which an instant of group BAY has been taken, before its lines are sampled. -/
def Chip.bayInstantTaken (p : Chip) : Chip := p.withSensors { p.sensors with bayGroup := p.sensors.bayGroup.instantTaken }

theorem Chip.sampleBays_eq : p.sampleBays levels = bayList.foldl (Chip.sampleBay levels) p.bayInstantTaken := rfl

theorem Chip.bayInstantTaken_unchangedBut : p.unchangedBut p.bayInstantTaken [.sensors] := by
  intro x out
  cases x <;> simp at out <;> rfl

theorem Chip.sampleBays_unchangedBut : p.unchangedBut (p.sampleBays levels)
    [.masses, .bays, .sensors, .hoists, .selector, .orders, .power, .port] := by
  rw [Chip.sampleBays_eq]
  exact Chip.unchangedBut_trans (Chip.unchangedBut_mono p.bayInstantTaken_unchangedBut (by simp))
    (Chip.foldl_unchangedBut fun q j => q.sampleBay_unchangedBut levels j)

/-- The lines sampled change of the bank themselves only. -/
theorem Chip.foldl_sampleBay_sensors (l : List BayId) : (l.foldl (Chip.sampleBay levels) p).sensors =
    { p.sensors with bayLines := (l.foldl (Chip.sampleBay levels) p).sensors.bayLines } := by
  induction l generalizing p with
  | nil => rfl
  | cons j rest ih =>
    rw [List.foldl_cons, ih, Chip.sampleBay_sensors]
    rfl

/-- An instant changes of the bank its group's lines and the group's account (R53). -/
theorem Chip.sampleBays_sensors : (p.sampleBays levels).sensors = { p.sensors with
    bayLines := (p.sampleBays levels).sensors.bayLines, bayGroup := p.sensors.bayGroup.instantTaken } := by
  have lines := p.bayInstantTaken.foldl_sampleBay_sensors levels bayList
  rw [Chip.sampleBays_eq]
  generalize bayList.foldl (Chip.sampleBay levels) p.bayInstantTaken = q at lines ⊢
  exact lines

/-- An instant samples every line, each for itself. -/
theorem Chip.sampleBays_reading :
    (p.sampleBays levels).bayReading b = (p.bayReading b).sampled (bayLevel levels b) := by
  have every : b ∈ bayList := List.mem_finRange b
  have own := foldl_of_independent Chip.bayReading (fun j => LineReading.sampled (bayLevel levels j))
    (fun q i j => q.sampleBay_reading levels i j) bayList (List.nodup_finRange 64) p.bayInstantTaken b
  rw [if_pos every] at own
  rw [Chip.sampleBays_eq]
  exact own

end

/-! ### Group LATCH -/

/-- The bank with one latch line sampled. -/
def SensorBank.sampleLatchLine (s : SensorBank) (code : Nat) (levels : BitVec 4) (h : HoistId) : SensorBank :=
  { s with latchLines := s.latchLines.set h ((s.latchLines.get h).sampled code (latchLevelOf levels h)) }

section
variable (p : Chip) (levels : BitVec 4) (h k : HoistId)

/-- What of a hoist and its latch line a sample instant reads and writes. -/
def Chip.latchReading : LineReading Latch := ⟨p.params.latchFilter, p.sensors.latchLines.get h, (p.hoist h).latchLevel⟩

theorem Chip.TripFrame.actOnLatch (level : Latch) : Chip.TripFrame h p (p.actOnLatch h level) := by
  unfold Chip.actOnLatch
  simp only
  split
  · exact .completionTest
  · split
    · exact .completeWithdrawal
    · split
      · exact .takeFault _ _
      · exact .completionTest

theorem Chip.TripFrame.acceptLatch (level : Latch) (initial : Bool) :
    Chip.TripFrame h p (p.acceptLatch h level initial) := by
  cases initial
  · exact (Chip.TripFrame.updHoist _).trans (.actOnLatch _ h level)
  · exact Chip.TripFrame.updHoist fun c => { c with latchLevel := some level }

/-- The end of an active trip keeps the accepted latch level and the fault record. -/
theorem Chip.endActive_keeps : ((p.endActive h).hoist h).latchLevel = (p.hoist h).latchLevel ∧
    ((p.endActive h).hoist h).fault = (p.hoist h).fault := by
  rcases p.endActive_cases h with ⟨_, e⟩ | ⟨_, _, e⟩ | ⟨t, _, _, e⟩ <;> rw [e]
  · simp [HoistCtl.cleared]
  · simp [Chip.enterPhase, HoistCtl.cleared]
  · rw [Chip.promote_hoist]
    unfold Chip.promoted
    simp only [Chip.updHoist_hoist_self]
    split
    · exact ⟨rfl, rfl⟩
    · split <;> exact ⟨rfl, rfl⟩

/-- A completion of ENGAGE or RELEASE keeps the accepted latch level and the fault record. -/
theorem Chip.completionTest_keeps : ((p.completionTest h).hoist h).latchLevel = (p.hoist h).latchLevel ∧
    ((p.completionTest h).hoist h).fault = (p.hoist h).fault := by
  unfold Chip.completionTest
  split
  · unfold Chip.engageTest
    split
    · exact ⟨rfl, rfl⟩
    · rename_i active
      split
      · exact ⟨rfl, rfl⟩
      · split
        · rw [Chip.weighMatch_hoist _ active]
          exact ⟨rfl, rfl⟩
        · rw [Chip.weighMismatch_hoist _ active]
          exact ⟨rfl, rfl⟩
  · unfold Chip.releaseTest
    split
    · exact ⟨rfl, rfl⟩
    · rename_i t _
      split
      · by_cases step : (p.hoist h).holdMode = .step
        · rw [p.completeRelease_of_step h t step]
          have ended := (p.stepTaken h t).endActive_keeps h
          rwa [Chip.stepTaken_hoist] at ended
        · rw [p.completeRelease_of_not_step h t step]
          have ended := (p.delivered h t).endActive_keeps h
          rwa [Chip.delivered_hoist] at ended
      · exact ⟨rfl, rfl⟩
  · exact ⟨rfl, rfl⟩

theorem Chip.completeAbandon_latchLevel (fate : OrderFate) (mismatch : Bool) :
    ((p.completeAbandon h fate mismatch).hoist h).latchLevel = (p.hoist h).latchLevel := by
  unfold Chip.completeAbandon
  split
  · rfl
  · simp only [Chip.endEmpty]
    rw [(Chip.endActive_keeps _ h).1, Chip.updHoist_hoist_self]
    cases mismatch <;> simp [Chip.massMismatched, Chip.massReleased]

theorem Chip.actOnLatch_latchLevel (level : Latch) :
    ((p.actOnLatch h level).hoist h).latchLevel = (p.hoist h).latchLevel := by
  unfold Chip.actOnLatch
  simp only
  split
  · exact (p.completionTest_keeps h).1
  · split
    · unfold Chip.completeWithdrawal
      split
      · rfl
      · exact p.completeAbandon_latchLevel h _ _
      · exact p.completeAbandon_latchLevel h _ _
    · split
      · rw [Chip.takeFault_hoist]
        unfold HoistCtl.faultTaken
        split <;> rfl
      · exact (p.completionTest_keeps h).1

theorem Chip.acceptLatch_latchLevel (level : Latch) (initial : Bool) :
    ((p.acceptLatch h level initial).hoist k).latchLevel = if k = h then some level else (p.hoist k).latchLevel := by
  by_cases own : k = h
  · subst own
    rw [if_pos rfl]
    cases initial
    · exact (Chip.actOnLatch_latchLevel _ k level).trans (by rw [Chip.updHoist_hoist_self])
    · exact congrArg HoistCtl.latchLevel (p.updHoist_hoist_self k fun c => { c with latchLevel := some level })
  · rw [if_neg own, (Chip.TripFrame.acceptLatch p h level initial).others k own]

/-- A sample of one latch line, from the part in which the bank has recorded it. -/
theorem Chip.sampleLatch_eq : Chip.sampleLatch levels p h =
    match (p.sensors.latchLines.get h).judge p.params.latchFilter (latchLevelOf levels h) with
    | .nothing => p.withSensors (p.sensors.sampleLatchLine p.params.latchFilter levels h)
    | .initial =>
      (p.withSensors (p.sensors.sampleLatchLine p.params.latchFilter levels h)).acceptLatch h (latchLevelOf levels h) true
    | .change => p.finish
        ((p.withSensors (p.sensors.sampleLatchLine p.params.latchFilter levels h)).acceptLatch h (latchLevelOf levels h)
          false) := rfl

theorem Chip.sampleLatch_sensors :
    (Chip.sampleLatch levels p h).sensors = p.sensors.sampleLatchLine p.params.latchFilter levels h := by
  have accepted : ∀ initial, ((p.withSensors (p.sensors.sampleLatchLine p.params.latchFilter levels h)).acceptLatch h
      (latchLevelOf levels h) initial).sensors = p.sensors.sampleLatchLine p.params.latchFilter levels h := fun initial =>
    (Chip.TripFrame.acceptLatch _ h _ initial).sensors
  rw [Chip.sampleLatch_eq]
  split
  · rfl
  · exact accepted true
  · exact (Chip.finish_sensors _ _).trans (accepted false)

theorem Chip.sampleLatch_unchangedBut : p.unchangedBut (Chip.sampleLatch levels p h)
    [.masses, .bays, .sensors, .hoists, .selector, .orders, .power, .port] := by
  have recorded : p.unchangedBut (p.withSensors (p.sensors.sampleLatchLine p.params.latchFilter levels h)) [.sensors] := by
    intro x out
    cases x <;> simp at out <;> rfl
  have accepted : ∀ initial, p.unchangedBut ((p.withSensors (p.sensors.sampleLatchLine p.params.latchFilter levels
      h)).acceptLatch h (latchLevelOf levels h) initial) ([.sensors] ++ [.masses, .bays, .hoists, .selector, .orders]) :=
    fun initial => Chip.unchangedBut_append recorded (Chip.TripFrame.acceptLatch _ h _ initial).unchangedBut
  rw [Chip.sampleLatch_eq]
  split
  · exact Chip.unchangedBut_mono recorded (by simp)
  · exact Chip.unchangedBut_mono (accepted true) (by simp)
  · exact Chip.unchangedBut_mono (Chip.unchangedBut_append (accepted false) (Chip.finish_unchangedBut _ _)) (by simp)

/-- A sample of one latch line changes its hoist's reading, and no other's. -/
theorem Chip.sampleLatch_reading : (Chip.sampleLatch levels p h).latchReading k =
    if k = h then (p.latchReading h).sampled (latchLevelOf levels h) else p.latchReading k := by
  have code : (Chip.sampleLatch levels p h).params = p.params := Chip.sampleLatch_unchangedBut p levels h .params (by decide)
  have line : (Chip.sampleLatch levels p h).sensors.latchLines.get k =
      if k = h then (p.sensors.latchLines.get h).sampled p.params.latchFilter (latchLevelOf levels h)
      else p.sensors.latchLines.get k := by
    rw [Chip.sampleLatch_sensors]
    exact Quad.get_set _ _ _ _
  have field : ((Chip.sampleLatch levels p h).hoist k).latchLevel =
      if k = h then ((p.latchReading h).sampled (latchLevelOf levels h)).field else (p.hoist k).latchLevel := by
    have accepted : ∀ initial, (((p.withSensors (p.sensors.sampleLatchLine p.params.latchFilter levels h)).acceptLatch h
        (latchLevelOf levels h) initial).hoist k).latchLevel =
          if k = h then some (latchLevelOf levels h) else (p.hoist k).latchLevel := fun initial =>
      Chip.acceptLatch_latchLevel _ h k _ initial
    rcases Sampled.cases ((p.sensors.latchLines.get h).judge p.params.latchFilter (latchLevelOf levels h)) with
      judged | judged | judged <;> simp only [LineReading.sampled, Chip.latchReading, Chip.sampleLatch_eq, judged]
    · split
      · rename_i own
        rw [own]
        rfl
      · rfl
    · exact accepted true
    · rw [Chip.finish_hoist_eq]
      exact accepted false
  unfold Chip.latchReading at *
  rw [code, line, field]
  split <;> rfl

/-! ### The instant of group LATCH -/

/-- The part in which an instant of group LATCH has been taken, before its lines are sampled. -/
def Chip.latchInstantTaken (p : Chip) : Chip :=
  p.withSensors { p.sensors with latchGroup := p.sensors.latchGroup.instantTaken }

theorem Chip.sampleLatches_eq :
    p.sampleLatches levels = hoistList.foldl (Chip.sampleLatch levels) p.latchInstantTaken := rfl

theorem Chip.latchInstantTaken_unchangedBut : p.unchangedBut p.latchInstantTaken [.sensors] := by
  intro x out
  cases x <;> simp at out <;> rfl

theorem Chip.sampleLatches_unchangedBut : p.unchangedBut (p.sampleLatches levels)
    [.masses, .bays, .sensors, .hoists, .selector, .orders, .power, .port] := by
  rw [Chip.sampleLatches_eq]
  exact Chip.unchangedBut_trans (Chip.unchangedBut_mono p.latchInstantTaken_unchangedBut (by simp))
    (Chip.foldl_unchangedBut fun q j => q.sampleLatch_unchangedBut levels j)

/-- The lines sampled change of the bank themselves only. -/
theorem Chip.foldl_sampleLatch_sensors (l : List HoistId) : (l.foldl (Chip.sampleLatch levels) p).sensors =
    { p.sensors with latchLines := (l.foldl (Chip.sampleLatch levels) p).sensors.latchLines } := by
  induction l generalizing p with
  | nil => rfl
  | cons j rest ih =>
    rw [List.foldl_cons, ih, Chip.sampleLatch_sensors]
    rfl

/-- An instant changes of the bank its group's lines and the group's account (R53). -/
theorem Chip.sampleLatches_sensors : (p.sampleLatches levels).sensors = { p.sensors with
    latchLines := (p.sampleLatches levels).sensors.latchLines, latchGroup := p.sensors.latchGroup.instantTaken } := by
  have lines := p.latchInstantTaken.foldl_sampleLatch_sensors levels hoistList
  rw [Chip.sampleLatches_eq]
  generalize hoistList.foldl (Chip.sampleLatch levels) p.latchInstantTaken = q at lines ⊢
  exact lines

/-- An instant samples every line, each for itself. -/
theorem Chip.sampleLatches_reading :
    (p.sampleLatches levels).latchReading h = (p.latchReading h).sampled (latchLevelOf levels h) := by
  have every : ∀ k : HoistId, k ∈ hoistList := by decide
  have own := foldl_of_independent Chip.latchReading (fun j => LineReading.sampled (latchLevelOf levels j))
    (fun q i j => q.sampleLatch_reading levels i j) hoistList (by decide) p.latchInstantTaken h
  rw [if_pos (every h)] at own
  rw [Chip.sampleLatches_eq]
  exact own

end

end Sys2Proof.Machine
end


section
/-! SUPPORT. A sample instant of group LATCH at which one line alone is accepted as changed (spec/03 R53, R60): the part after it is that in which
the hoist has taken the acceptance and the event has ended, but for the bank. -/

namespace Sys2Proof.Machine

section
variable {p : Chip} {bank : SensorBank} (same : bank.qualifier = p.sensors.qualifier)
include same

theorem Chip.withSensors_interlock : (p.withSensors bank).interlock = p.interlock := by
  unfold Chip.interlock
  cases own : p.sensors.qualifier <;> simp [Chip.withSensors, same.trans own]

theorem Chip.withSensors_brakeLaw {h : HoistId} : (p.withSensors bank).brakeLaw h = p.brakeLaw h :=
  Chip.brakeLaw_congr rfl (Chip.withSensors_interlock same) rfl rfl rfl

/-- The laws of the kept items read of the bank the qualifier only. -/
theorem Chip.Kept.withSensors (kept : p.Kept) : (p.withSensors bank).Kept :=
  ⟨kept.able, fun h => (kept.brake h).trans (Chip.withSensors_brakeLaw same).symm, kept.stopped, kept.attention⟩

end

section
variable {p : Chip} {levels : BitVec 4} {h k : HoistId}

theorem Chip.sampleLatch_line_of_ne (ne : k ≠ h) :
    (Chip.sampleLatch levels p h).sensors.latchLines.get k = p.sensors.latchLines.get k := by
  have reading := p.sampleLatch_reading levels h k
  rw [if_neg ne] at reading
  exact congrArg LineReading.line reading

/-- A line whose sample is not accepted: the bank alone changes, and in it not the qualifier. -/
theorem Chip.sampleLatch_of_same (same : (p.sensors.latchLines.get k).accepted = some (latchLevelOf levels k)) :
    Chip.sampleLatch levels p k = p.withSensors (p.sensors.sampleLatchLine p.params.latchFilter levels k) := by
  rw [Chip.sampleLatch_eq, LineFilter.judge_of_same _ same]

/-- Lines none of whose samples is accepted: the bank alone changes, and in it not the qualifier. -/
theorem Chip.foldl_sampleLatch_of_same (l : List HoistId) (distinct : l.Nodup) (p : Chip)
    (same : ∀ k ∈ l, (p.sensors.latchLines.get k).accepted = some (latchLevelOf levels k)) :
    ∃ bank, bank.qualifier = p.sensors.qualifier ∧ l.foldl (Chip.sampleLatch levels) p = p.withSensors bank := by
  induction l generalizing p with
  | nil => exact ⟨p.sensors, rfl, rfl⟩
  | cons j rest ih =>
    obtain ⟨apart, distinct⟩ := List.nodup_cons.mp distinct
    have here := Chip.sampleLatch_of_same (same j List.mem_cons_self)
    obtain ⟨bank, qualifier, folded⟩ := ih distinct (Chip.sampleLatch levels p j) fun k isIn => by
      have ne : k ≠ j := fun e => apart (e ▸ isIn)
      rw [Chip.sampleLatch_line_of_ne ne]
      exact same k (List.mem_cons_of_mem _ isIn)
    rw [here] at qualifier folded
    exact ⟨bank, qualifier, by rw [List.foldl_cons, here, folded]; rfl⟩

/-- A line whose sample is accepted as a change: the hoist takes the acceptance, and the event ends. -/
theorem Chip.sampleLatch_of_change {a : Latch} (accepted : (p.sensors.latchLines.get h).accepted = some a)
    (differs : latchLevelOf levels h ≠ a)
    (checked : p.params.latchFilter = 0 ∨ (p.sensors.latchLines.get h).previous = some (latchLevelOf levels h)) :
    Chip.sampleLatch levels p h = p.finish ((p.withSensors (p.sensors.sampleLatchLine p.params.latchFilter levels
      h)).acceptLatch h (latchLevelOf levels h) false) := by
  rw [Chip.sampleLatch_eq, LineFilter.judge_of_change _ accepted differs checked]

/-- The instant with one change: the acceptance and the end of its event, in a part in which the bank alone has changed before and changes
after. -/
theorem Chip.sampleLatches_of_one_change {a : Latch} (accepted : (p.sensors.latchLines.get h).accepted = some a)
    (differs : latchLevelOf levels h ≠ a)
    (checked : p.params.latchFilter = 0 ∨ (p.sensors.latchLines.get h).previous = some (latchLevelOf levels h))
    (others : ∀ k, k ≠ h → (p.sensors.latchLines.get k).accepted = some (latchLevelOf levels k)) :
    ∃ within after : SensorBank, within.qualifier = p.sensors.qualifier ∧ after.qualifier = p.sensors.qualifier ∧
      p.sampleLatches levels =
        (p.finish ((p.withSensors within).acceptLatch h (latchLevelOf levels h) false)).withSensors after := by
  have every : ∀ k : HoistId, k ∈ hoistList := by decide
  obtain ⟨l, r, split⟩ := List.append_of_mem (every h)
  have distinct : (l ++ h :: r).Nodup := split ▸ (by decide)
  obtain ⟨distinctBefore, distinctFrom, disjoint⟩ := List.nodup_append.mp distinct
  obtain ⟨notAfter, distinctAfter⟩ := List.nodup_cons.mp distinctFrom
  have notBefore : ∀ k ∈ h :: r, k ∉ l := fun k isIn before => disjoint k before k isIn rfl
  obtain ⟨q, def_q⟩ : ∃ q, q = l.foldl (Chip.sampleLatch levels) p.latchInstantTaken := ⟨_, rfl⟩
  obtain ⟨before, qualifierBefore, foldBefore⟩ := Chip.foldl_sampleLatch_of_same (levels := levels) l distinctBefore
    p.latchInstantTaken fun k isIn => others k fun e => notBefore h List.mem_cons_self (e ▸ isIn)
  rw [← def_q] at foldBefore
  have lineBefore : ∀ k ∈ h :: r, q.sensors.latchLines.get k = p.sensors.latchLines.get k := fun k isIn => by
    have reading := foldl_of_independent Chip.latchReading (fun j => LineReading.sampled (latchLevelOf levels j))
      (fun q i j => q.sampleLatch_reading levels i j) l distinctBefore p.latchInstantTaken k
    rw [if_neg (notBefore k isIn), ← def_q] at reading
    exact congrArg LineReading.line reading
  have code : q.params.latchFilter = p.params.latchFilter := by rw [foldBefore]; rfl
  have line := lineBefore h List.mem_cons_self
  have here := Chip.sampleLatch_of_change (p := q) (levels := levels) (h := h) (a := a) (by rw [line, accepted]) differs
    (by rw [code, line]; exact checked)
  obtain ⟨within, def_within⟩ : ∃ x, x = q.sensors.sampleLatchLine q.params.latchFilter levels h := ⟨_, rfl⟩
  have qualifierWithin : within.qualifier = p.sensors.qualifier := by
    rw [def_within, foldBefore]
    exact qualifierBefore
  obtain ⟨after, qualifierAfter, foldAfter⟩ := Chip.foldl_sampleLatch_of_same (levels := levels) r distinctAfter
    (Chip.sampleLatch levels q h) fun k isIn => by
      have ne : k ≠ h := fun e => notAfter (e ▸ isIn)
      rw [Chip.sampleLatch_line_of_ne ne, lineBefore k (List.mem_cons_of_mem _ isIn), others k ne]
  rw [← def_within] at here
  refine ⟨within, after, qualifierWithin, ?_, ?_⟩
  · rw [qualifierAfter, Chip.sampleLatch_sensors, ← def_within, qualifierWithin]
  · rw [Chip.sampleLatches_eq, split, List.foldl_append, ← def_q, List.foldl_cons, foldAfter, here, foldBefore]
    rfl

end

end Sys2Proof.Machine
end


section
/-! SUPPORT. What an acceptance on a latch line does to the trips of its hoist (spec/05 R91, R97 to R103, spec/08 R163), as the statements describe
it: the completion of a withdrawal, the LATCH fault, and the acceptance that is recorded and nothing more. -/

namespace Sys2Proof.Machine

/-! ### Both bays of a trip given up (R35) -/

section
variable {p m : Chip} {h : HoistId} {slot : Slot} {source destination : BayId} (bay : ∀ b, m.bay b = p.bay b)
include bay

/-- The held source of a trip, with its occupant, is OCCUPIED after both bays of the trip have been given up. -/
theorem Chip.givenUp_source (held : p.holdsSource h slot source = true) (occupied : (p.bay source).occupant ≠ none) :
    ((m.giveUpSource h slot source).giveUpDestination h slot destination).bay source =
      { p.bay source with state := .occupied, holder := none } := by
  have given : (m.giveUpSource h slot source).bay source = { p.bay source with state := .occupied, holder := none } := by
    rw [Chip.giveUpSource_bay, bay, if_pos ⟨rfl, by rw [Chip.holdsSource, bay]; exact held, occupied⟩]
  rw [Chip.giveUpDestination_bay_of_notInbound _ _ _ _ _ (by simp [given]), given]

/-- The held destination of a trip is OPEN or BARRED, by its sensor, after both bays of the trip have been given up. -/
theorem Chip.givenUp_destination (held : p.holdsDestination h slot destination = true) :
    (((m.giveUpSource h slot source).giveUpDestination h slot destination).bay destination).holder = none ∧
    (((m.giveUpSource h slot source).giveUpDestination h slot destination).bay destination).state =
      if (p.bay destination).sensor = some .occupied then .barred else .opened := by
  have inbound := (p.holdsDestination_iff h destination slot).mp held
  have kept : (m.giveUpSource h slot source).bay destination = p.bay destination := by
    rw [Chip.giveUpSource_bay, if_neg, bay]
    rintro ⟨same, outbound, _⟩
    rw [Chip.holdsSource_iff, bay, ← same, inbound.1] at outbound
    exact absurd outbound.1 (by simp)
  have stillHeld : (m.giveUpSource h slot source).holdsDestination h slot destination = true := by
    rw [Chip.holdsDestination_iff, kept]
    exact inbound
  rw [Chip.giveUpDestination_bay_self _ _ _ _ stillHeld, kept]
  exact ⟨rfl, rfl⟩

end

/-! ### The completion of a withdrawal (R99, R100, R103) -/

/-- The mass, the source and the destination of an abandoned trip given back, before its order meets its fate and the trip ends (R103, R35). -/
def Chip.abandonSettled (p : Chip) (h : HoistId) (t : Trip) (mismatch : Bool) : Chip :=
  ((if mismatch then p.massMismatched t.mass t.measured else p.massReleased t.mass).giveUpSource h .active
    t.source).giveUpDestination h .active t.destination

section
variable {p : Chip} {h : HoistId} {t : Trip} (fate : OrderFate) (mismatch : Bool)

theorem Chip.completeAbandon_of_active (active : (p.hoist h).active = some t) : p.completeAbandon h fate mismatch =
    ((p.abandonSettled h t mismatch).endHeld h .active fate).endEmpty h := by
  simp [Chip.completeAbandon, active, Chip.abandonSettled]

theorem Chip.abandonSettled_hoist (k : HoistId) : (p.abandonSettled h t mismatch).hoist k = p.hoist k := by
  unfold Chip.abandonSettled
  rw [Chip.giveUpDestination_hoist, Chip.giveUpSource_hoist]
  cases mismatch <;> rfl

theorem Chip.abandonSettled_orders : (p.abandonSettled h t mismatch).orders = p.orders := by
  unfold Chip.abandonSettled
  rw [Chip.giveUpDestination_orders, Chip.giveUpSource_orders]
  cases mismatch <;> rfl

theorem Chip.abandonSettled_elevationOf (b : BayId) : (p.abandonSettled h t mismatch).elevationOf b = p.elevationOf b := by
  unfold Chip.abandonSettled
  rw [Chip.giveUpDestination_elevationOf, Chip.giveUpSource_elevationOf]
  cases mismatch <;> rfl

theorem Chip.TripFrame.abandonSettled : Chip.TripFrame h p (p.abandonSettled h t mismatch) := by
  refine Chip.TripFrame.trans (Chip.TripFrame.trans ?_ (.giveUpSource h .active _)) (.giveUpDestination h .active _)
  cases mismatch
  · exact .massReleased _
  · exact .massMismatched _ _

/-- The mass of an abandoned trip is PARKED; after a MISMATCH it is measured, and under weigh hold (R22, R99). -/
theorem Chip.abandonSettled_mass : (p.abandonSettled h t mismatch).mass t.mass =
    if mismatch then { p.mass t.mass with state := .parked, measured := t.measured, weighHold := true }
    else { p.mass t.mass with state := .parked } := by
  have masses : (p.abandonSettled h t mismatch).masses =
      (if mismatch then p.massMismatched t.mass t.measured else p.massReleased t.mass).masses := by
    simp [Chip.abandonSettled]
  unfold Chip.mass
  rw [masses]
  cases mismatch
  · exact p.updMass_mass_self t.mass fun r => { r with state := .parked }
  · exact p.updMass_mass_self t.mass fun r => { r with state := .parked, measured := t.measured, weighHold := true }

/-- The held source of an abandoned trip, with its occupant, is OCCUPIED again (R35). -/
theorem Chip.abandonSettled_source (held : p.holdsSource h .active t.source = true)
    (occupied : (p.bay t.source).occupant ≠ none) : (p.abandonSettled h t mismatch).bay t.source =
      { p.bay t.source with state := .occupied, holder := none } :=
  Chip.givenUp_source (fun _ => by cases mismatch <;> rfl) held occupied

/-- The held destination of an abandoned trip is given up by its sensor (R35). -/
theorem Chip.abandonSettled_destination (held : p.holdsDestination h .active t.destination = true) :
    ((p.abandonSettled h t mismatch).bay t.destination).holder = none ∧
    ((p.abandonSettled h t mismatch).bay t.destination).state =
      if (p.bay t.destination).sensor = some .occupied then .barred else .opened :=
  Chip.givenUp_destination (fun _ => by cases mismatch <;> rfl) held

/-- What the completion of an abandonment leaves: the trip has ended as R103 says. -/
theorem Chip.emptyEnded_completeAbandon (active : (p.hoist h).active = some t) :
    p.emptyEnded (p.completeAbandon h fate mismatch) h := by
  rw [Chip.completeAbandon_of_active fate mismatch active]
  refine ((Chip.TripFrame.abandonSettled mismatch).trans (.endHeld h .active fate)).emptyEnded
    (noBay := (p.hoist h).noBay) ?_ ?_ (fun b => ?_) (Chip.emptyEnded_endEmpty _ h)
  · rw [Chip.endHeld_hoist, Chip.abandonSettled_hoist]
  · rw [Chip.endHeld_held, if_neg (by simp), p.held_of_orders (Chip.abandonSettled_orders mismatch)]
  · rw [Chip.endHeld_elevationOf, Chip.abandonSettled_elevationOf]

theorem Chip.completeAbandon_mass (active : (p.hoist h).active = some t) :
    (p.completeAbandon h fate mismatch).mass t.mass = (p.abandonSettled h t mismatch).mass t.mass := by
  rw [Chip.completeAbandon_of_active fate mismatch active]
  unfold Chip.mass
  rw [Chip.endEmpty_masses, Chip.endHeld_masses]

/-- A bay that no trip holds when the trip's bays have been given back keeps its record through the end. -/
theorem Chip.completeAbandon_bay (active : (p.hoist h).active = some t) (b : BayId)
    (free : ((p.abandonSettled h t mismatch).bay b).holder = none) :
    (p.completeAbandon h fate mismatch).bay b = (p.abandonSettled h t mismatch).bay b := by
  rw [Chip.completeAbandon_of_active fate mismatch active, Chip.endEmpty_bay_of_not, Chip.endHeld_bay]
  rw [Chip.endHeld_bay, free]
  simp

/-- The fate of the held order of an abandoned trip (R121). -/
theorem Chip.completeAbandon_orders (active : (p.hoist h).active = some t) {o : Order} (held : p.held h .active = some o) :
    (p.completeAbandon h fate mismatch).orders.queue = (if fate = .returned then o :: p.orders.queue else p.orders.queue) ∧
    (p.completeAbandon h fate mismatch).orders.dropped =
      if fate = .counted then satInc16 p.orders.dropped else p.orders.dropped := by
  have orders : (p.abandonSettled h t mismatch).orders = p.orders := Chip.abandonSettled_orders mismatch
  have isHeld : (p.abandonSettled h t mismatch).held h .active = some o := (p.held_of_orders orders h .active).trans held
  rw [Chip.completeAbandon_of_active fate mismatch active, Chip.endEmpty_queue, Chip.endEmpty_dropped, ← orders]
  cases fate <;> simp [Chip.endHeld, isHeld]

end

/-! ### The acceptance recorded (R60) -/

/-- The part in which the accepted level of hoist `h`'s latch line has been recorded, in the bank and in the controller. -/
def Chip.recordLatch (p : Chip) (bank : SensorBank) (h : HoistId) (level : Latch) : Chip :=
  (p.withSensors bank).updHoist h fun c => { c with latchLevel := some level }

section
variable {p : Chip} {bank after : SensorBank} {h : HoistId} {level : Latch}

theorem Chip.recordLatch_hoist :
    (p.recordLatch bank h level).hoist h = { p.hoist h with latchLevel := some level } := Chip.updHoist_hoist_self _ h _

theorem Chip.recordLatch_others (k : HoistId) (ne : k ≠ h) : (p.recordLatch bank h level).hoist k = p.hoist k :=
  Chip.updHoist_hoist_of_ne _ h k _ ne

theorem Chip.recordLatch_unchangedBut : p.unchangedBut (p.recordLatch bank h level) [.sensors, .hoists] := by
  intro x out
  cases x <;> simp at out <;> rfl

/-- What of a controller the acceptance of a latch level leaves: all that able and the conditions read. -/
theorem Chip.recordLatch_powerView (k : HoistId) : ((p.recordLatch bank h level).hoist k).powerView = (p.hoist k).powerView := by
  by_cases own : k = h
  · rw [own, Chip.recordLatch_hoist]
    rfl
  · rw [Chip.recordLatch_others k own]

theorem Chip.recordLatch_ableLaw (k : HoistId) : (p.recordLatch bank h level).ableLaw k = p.ableLaw k := by
  by_cases own : k = h
  · subst own
    exact Chip.ableLaw_congr rfl rfl rfl (by rw [Chip.recordLatch_hoist]) (by rw [Chip.recordLatch_hoist])
      (by rw [Chip.recordLatch_hoist]) (by rw [Chip.recordLatch_hoist])
  · have hoist := Chip.recordLatch_others (p := p) (bank := bank) (level := level) k own
    exact Chip.ableLaw_congr rfl rfl rfl (by rw [hoist]) (by rw [hoist]) (by rw [hoist]) (by rw [hoist])

/-- The trips described from the part with the acceptance recorded are those of the part before it. -/
theorem Chip.recordLatch_sameTrips : Chip.SameTrips h p (p.recordLatch bank h level) :=
  ⟨by rw [Chip.recordLatch_hoist], by rw [Chip.recordLatch_hoist], by rw [Chip.recordLatch_hoist], rfl, rfl, rfl, fun _ => rfl⟩

/-- An acceptance that completes nothing does what R60 and R93 say, and no more. -/
theorem Chip.Kept.latchOnlyRecorded (kept : p.Kept) (qualifierAfter : after.qualifier = bank.qualifier) :
    p.latchOnlyRecorded ((p.finish (p.recordLatch bank h level)).withSensors after) h level := by
  have able : ∀ k, (p.recordLatch bank h level).ableLaw k = ((p.recordLatch bank h level).hoist k).able := fun k => by
    rw [Chip.recordLatch_ableLaw, ← kept.able k]
    by_cases own : k = h
    · rw [own, Chip.recordLatch_hoist]
    · rw [Chip.recordLatch_others k own]
  have finished : p.unchangedBut (p.finish (p.recordLatch bank h level)) [.sensors, .hoists] := by
    refine Chip.finish_touches Chip.recordLatch_unchangedBut (by simp) (fun _ => ?_) (fun _ => ?_) fun _ => ?_
    · exact Chip.finish_selector fun k law => (able k).symm.trans law
    · exact Chip.finish_power fun k differs => absurd (Chip.recordLatch_powerView k).symm differs
    · have conditions : (p.recordLatch bank h level).conditions = p.conditions :=
        Chip.conditions_congr rfl rfl rfl rfl (fun k => congrArg Prod.fst (Chip.recordLatch_powerView k)) fun _ => rfl
      exact Chip.finish_port_same (kept.attention.trans conditions.symm)
  have brake : ((p.finish (p.recordLatch bank h level)).withSensors after).brakeLaw h = (p.recordLatch bank h level).brakeLaw h := by
    rw [Chip.withSensors_brakeLaw (by rw [Chip.finish_sensors]; exact qualifierAfter), Chip.finish_brakeLaw]
  refine ⟨Chip.unchangedBut_trans finished fun x out => ?_, ?_⟩
  · cases x <;> simp at out <;> rfl
  · rw [brake, Chip.withSensors_hoist, Chip.finish_hoist_eq, able, Chip.recordLatch_hoist]

end

/-! ### A staged trip dropped (R103) -/

section
variable {p : Chip} {h : HoistId}

theorem Chip.endHeld_of_unheld {slot : Slot} {fate : OrderFate} (unheld : p.held h slot = none) :
    p.endHeld h slot fate = p := by simp [Chip.endHeld, unheld]

/-- A staged trip dropped with its order returned is as the statements describe it. -/
theorem Chip.stagedDropped_dropStaged : p.stagedDropped (p.dropStaged h .returned) h := by
  refine ⟨by rw [Chip.dropStaged_hoist], fun unstaged => ?_, fun t staged => ?_⟩
  · simp [Chip.dropStaged, unstaged]
  obtain ⟨m, def_m⟩ : ∃ m, m = (p.updHoist h fun c => { c with staged := none }).massReleased t.mass := ⟨_, rfl⟩
  have bay : ∀ b, m.bay b = p.bay b := fun b => by rw [def_m]; rfl
  have bays : ∀ b, (p.dropStaged h .returned).bay b =
      ((m.giveUpSource h .staged t.source).giveUpDestination h .staged t.destination).bay b := fun b => by
    rw [Chip.dropStaged_of_staged staged, Chip.endHeld_bay, ← def_m]
  have mass := fun k => Chip.dropStaged_mass .returned staged k
  obtain ⟨unheld, returned⟩ := Chip.dropStaged_returned staged
  refine ⟨(mass t.mass).trans (if_pos rfl), fun k ne => (mass k).trans (if_neg ne), fun k notSource notDestination => ?_,
    fun held occupied => ?_, fun held => ?_, fun noOrder => ?_, fun o held => ⟨returned o held, unheld⟩⟩
  · rw [bays, Chip.giveUpDestination_bay_of_ne _ _ _ _ _ notDestination, Chip.giveUpSource_bay, if_neg fun e => notSource e.1,
      bay]
  · rw [bays]
    exact Chip.givenUp_source bay held occupied
  · rw [bays]
    exact Chip.givenUp_destination bay held
  · rw [Chip.dropStaged_of_staged staged, ← def_m]
    have orders : ((m.giveUpSource h .staged t.source).giveUpDestination h .staged t.destination).orders = p.orders := by
      rw [def_m]
      simp
    rw [Chip.endHeld_of_unheld ((p.held_of_orders orders h .staged).trans noOrder), orders]

/-- The fault entry drops the staged trip as the statements describe it (R165). -/
theorem Chip.stagedDropped_takeFault (cause : FaultCause) (detail : Option Nat) (notFaulted : (p.hoist h).phase ≠ .faulted) :
    p.stagedDropped (p.takeFault h cause detail) h := by
  have masses : (p.takeFault h cause detail).masses = (p.dropStaged h .returned).masses := by
    simp [Chip.takeFault, notFaulted, Chip.updActive, Chip.stopRef, Chip.enterPhase]
  have bays : (p.takeFault h cause detail).bays = (p.dropStaged h .returned).bays := by
    simp [Chip.takeFault, notFaulted, Chip.updActive, Chip.stopRef, Chip.enterPhase]
  have orders : (p.takeFault h cause detail).orders = (p.dropStaged h .returned).orders := by
    simp [Chip.takeFault, notFaulted, Chip.updActive, Chip.stopRef, Chip.enterPhase]
  have staged : ((p.takeFault h cause detail).hoist h).staged = none := by
    rw [Chip.takeFault_hoist]
    exact (HoistCtl.faultTaken_entry _ cause detail notFaulted).1
  obtain ⟨_, unstaged, dropped⟩ := Chip.stagedDropped_dropStaged (p := p) (h := h)
  have mass : ∀ m, (p.takeFault h cause detail).mass m = (p.dropStaged h .returned).mass m := fun m => by
    unfold Chip.mass
    rw [masses]
  have bay : ∀ b, (p.takeFault h cause detail).bay b = (p.dropStaged h .returned).bay b := fun b => by
    unfold Chip.bay
    rw [bays]
  unfold Chip.stagedDropped Chip.otherMassesSame at *
  simp only [masses, bays, orders, mass, bay, Chip.held_of_orders orders]
  exact ⟨staged, unstaged, dropped⟩

end

end Sys2Proof.Machine
end


section
/-! SUPPORT. The obligation on FILTER_SAMPLE_INSTANT (spec/03 R53 to R55, R60). -/

namespace Sys2Proof.Machine

/-! ### Completions that do not come about (R97, R101) -/

section
variable {p : Chip} {h : HoistId}

theorem Chip.completionTest_of_other (notEngaged : (p.hoist h).phase ≠ .engage) (notReleasing : (p.hoist h).phase ≠ .release) :
    p.completionTest h = p := by
  unfold Chip.completionTest
  split
  · exact absurd ‹_› notEngaged
  · exact absurd ‹_› notReleasing
  · rfl

theorem Chip.engageTest_of_incomplete (incomplete : (p.hoist h).withdrawal ≠ .none ∨ (p.hoist h).latchLevel ≠ some .closed ∨
    (p.hoist h).phaseReply = none) : p.engageTest h = p := by
  unfold Chip.engageTest
  split
  · rfl
  · rename_i t _
    have unmeasured : p.engageMeasured h t = none := by
      cases reply : (p.hoist h).phaseReply with
      | none => simp [Chip.engageMeasured, reply]
      | some load =>
        rcases incomplete with withdrawn | unlatched | unanswered
        · simp [Chip.engageMeasured, reply, withdrawn]
        · simp [Chip.engageMeasured, reply, unlatched]
        · exact absurd (reply.symm.trans unanswered) (by simp)
    rw [unmeasured]

/-- An acceptance of OPEN completes no engage: a hoist that is not in RELEASE is left. -/
theorem Chip.completionTest_of_opened (opened : (p.hoist h).latchLevel = some .opened)
    (notReleasing : (p.hoist h).phase ≠ .release) : p.completionTest h = p := by
  by_cases engaged : (p.hoist h).phase = .engage
  · rw [Chip.completionTest, engaged]
    exact Chip.engageTest_of_incomplete (.inr (.inl (by simp [opened])))
  · exact Chip.completionTest_of_other engaged notReleasing

theorem Chip.releaseTest_of_incomplete (incomplete : ∀ t, (p.hoist h).active = some t → p.releaseComplete h t = false) :
    p.releaseTest h = p := by
  unfold Chip.releaseTest
  split
  · rfl
  · rename_i t active
    rw [incomplete t active]
    rfl

/-- An acceptance of CLOSED completes no release: a hoist that is not in ENGAGE is left. -/
theorem Chip.completionTest_of_closed (closed : (p.hoist h).latchLevel = some .closed)
    (notEngaged : (p.hoist h).phase ≠ .engage) : p.completionTest h = p := by
  by_cases releasing : (p.hoist h).phase = .release
  · rw [Chip.completionTest, releasing]
    exact Chip.releaseTest_of_incomplete fun t _ => by simp [Chip.releaseComplete, closed]
  · exact Chip.completionTest_of_other notEngaged releasing

/-! ### The acceptance taken, seen from the part before it -/

variable {bank : SensorBank} {level : Latch} {q : Chip} {t : Trip}

theorem Chip.recordLatch_weighingMade {nominal measured : Nat}
    (made : (p.recordLatch bank h level).weighingMade q h t nominal measured) : p.weighingMade q h t nominal measured := by
  unfold Chip.weighingMade at *
  simp only [Chip.recordLatch_hoist] at made
  exact made

theorem Chip.recordLatch_releaseMade (made : (p.recordLatch bank h level).releaseMade q h t) : p.releaseMade q h t := by
  obtain ⟨mass, destination, source, holdMode, latch, unstepped, stepped⟩ := made
  simp only [Chip.recordLatch_hoist] at holdMode latch unstepped stepped
  exact ⟨mass, destination, source, holdMode, latch,
    fun noStep => ⟨Chip.recordLatch_sameTrips.activeEnded (unstepped noStep).1, (unstepped noStep).2⟩, stepped⟩

/-- No description of a completion reads the bank. -/
theorem Chip.weighingMade_withSensors (after : SensorBank) {nominal measured : Nat} (made : p.weighingMade q h t nominal measured) :
    p.weighingMade (q.withSensors after) h t nominal measured := made

theorem Chip.releaseMade_withSensors (after : SensorBank) (made : p.releaseMade q h t) :
    p.releaseMade (q.withSensors after) h t := made

theorem Chip.recordLatch_loaded : ((p.recordLatch bank h level).hoist h).loaded = (p.hoist h).loaded := by
  rw [Chip.recordLatch_hoist]
  rfl

theorem Chip.recordLatch_workPhase : ((p.recordLatch bank h level).hoist h).workPhase = (p.hoist h).workPhase := by
  rw [Chip.recordLatch_hoist]
  rfl

/-- The part after an instant at which hoist `h`'s line alone is accepted as changed: the acceptance is taken, and its event ends. -/
def Chip.latchTaken (p : Chip) (within after : SensorBank) (h : HoistId) (level : Latch) : Chip :=
  (p.finish ((p.recordLatch within h level).actOnLatch h level)).withSensors after

/-- An acceptance is taken by its own hoist: the controllers of the others stay (R60). -/
theorem Chip.Kept.latchTaken_others (kept : p.Kept) {within after : SensorBank} (same : within.qualifier = p.sensors.qualifier) :
    p.otherHoistsSame (p.latchTaken within after h level) h := by
  have frame := Chip.TripFrame.actOnLatch (p.recordLatch within h level) h level
  have interlock : (p.recordLatch within h level).interlock = p.interlock := Chip.withSensors_interlock same
  have links : (p.recordLatch within h level).links = p.links := rfl
  have units : (p.recordLatch within h level).units = p.units := rfl
  have recorded := Chip.recordLatch_others (p := p) (bank := within) (h := h) (level := level)
  unfold Chip.latchTaken
  generalize (p.recordLatch within h level).actOnLatch h level = q at frame ⊢
  generalize p.recordLatch within h level = r at frame interlock links units recorded
  have finished : p.otherHoistsSame (p.finish q) h := by
    refine kept.finish_otherHoistsSame (fun k ne => (frame.others k ne).trans (recorded k ne))
      (fun k _ => ?_) (fun k _ => ?_) ((Chip.interlock_of_sensors frame.sensors).trans interlock)
    · exact congrArg (Quad.get · k) (frame.links.trans links)
    · exact congrArg (Quad.get · k) (frame.units.trans units)
  exact finished

end

/-- FILTER_SAMPLE_INSTANT where one latch line is accepted as changed and no other: the hoist takes the acceptance (R53, R60). -/
theorem latchTaken_of_sampleInstant {s : State} {levels : BitVec 4} {h : HoistId} {a : Latch}
    (due : s.chip.sampleOpen (.latch levels) = true)
    (accepted : (s.chip.sensors.latchLines.get h).accepted = some a) (differs : latchLevelOf levels h ≠ a)
    (checked : s.chip.params.latchFilter = 0 ∨ (s.chip.sensors.latchLines.get h).previous = some (latchLevelOf levels h))
    (others : ∀ k, k ≠ h → (s.chip.sensors.latchLines.get k).accepted = some (latchLevelOf levels k)) :
    ∃ within after : SensorBank, within.qualifier = s.chip.sensors.qualifier ∧ after.qualifier = within.qualifier ∧
      exec (.filterSampleInstant (.latch levels)) s =
        .next { s with chip := s.chip.latchTaken within after h (latchLevelOf levels h) } := by
  obtain ⟨within, after, qualifierWithin, qualifierAfter, sampled⟩ :=
    Chip.sampleLatches_of_one_change accepted differs checked others
  refine ⟨within, after, qualifierWithin, qualifierAfter.trans qualifierWithin.symm, ?_⟩
  obtain ⟨q, def_q⟩ : ∃ q, q = (s.chip.recordLatch within h (latchLevelOf levels h)).actOnLatch h (latchLevelOf levels h) :=
    ⟨_, rfl⟩
  have taken : s.chip.sampleLatches levels = (s.chip.finish q).withSensors after := by rw [sampled, def_q]; rfl
  have bank : q.sensors = within := by
    rw [def_q]
    exact (Chip.TripFrame.actOnLatch _ h _).sensors
  have kept : ((s.chip.finish q).withSensors after).Kept := (Chip.finish_kept s.chip q).withSensors (by
    rw [Chip.finish_sensors, bank, qualifierAfter, qualifierWithin])
  have ended : s.chip.finish ((s.chip.finish q).withSensors after) = (s.chip.finish q).withSensors after := by
    refine Chip.finish_of_kept kept fun k differs => ?_
    have told := Chip.finish_handed s.chip q k
    rw [Chip.withSensors_hoist, Chip.finish_hoist_eq] at differs
    have moved : (s.chip.hoist k).powerView ≠ (q.hoist k).powerView := differs
    exact told.trans (by rw [decide_eq_true moved, Bool.or_true])
  calc exec (.filterSampleInstant (.latch levels)) s
      = .next { s with chip := s.chip.finish (s.chip.sampleLatches levels) } := s.event_of _ _ due
    _ = _ := by rw [taken, ended, Chip.latchTaken, ← def_q]

end Sys2Proof.Machine
end

section
/-! SUPPORT. FILTER_SAMPLE_INSTANT as O56 states it: the groups' lines, and one latch line that opens or closes at an instant (spec/03 R53 to R55,
R60, spec/05 R97 to R103, spec/08 R163). -/

namespace Sys2Proof.Machine

/-! ### A latch line that opens (R60) -/

section
variable {p : Chip} {within after : SensorBank} {h : HoistId}

theorem Chip.latchTaken_eq {level : Latch} {q : Chip} (acted : (p.recordLatch within h level).actOnLatch h level = q) :
    p.latchTaken within after h level = (p.finish q).withSensors after := by rw [Chip.latchTaken, acted]

/-- An acceptance that the controller does not act on is recorded, and nothing more. -/
theorem Chip.Kept.latchTaken_onlyRecorded (kept : p.Kept) (qualifierAfter : after.qualifier = within.qualifier) {level : Latch}
    (unacted : (p.recordLatch within h level).actOnLatch h level = p.recordLatch within h level) :
    p.latchOnlyRecorded (p.latchTaken within after h level) h level := by
  rw [Chip.latchTaken_eq unacted]
  exact kept.latchOnlyRecorded qualifierAfter

/-- What hoist `h` has when the withdrawal of its trip `t` is complete (R99, R100, R103). -/
structure Chip.WithdrawalMade (p q : Chip) (h : HoistId) (t : Trip) (fate : OrderFate) (mismatch : Bool) : Prop where
  ended : p.activeEnded q h
  reply : (q.hoist h).phaseReply = none
  mass : q.mass t.mass =
    if mismatch then { p.mass t.mass with state := .parked, measured := t.measured, weighHold := true }
    else { p.mass t.mass with state := .parked }
  source : p.holdsSource h .active t.source = true → (p.bay t.source).occupant ≠ none →
    q.bay t.source = { p.bay t.source with state := .occupied, holder := none }
  destination : p.holdsDestination h .active t.destination = true → (q.bay t.destination).state =
    if (p.bay t.destination).sensor = some .occupied then .barred else .opened
  orders : ∀ o, p.held h .active = some o →
    q.orders.queue = (if fate = .returned then o :: p.orders.queue else p.orders.queue) ∧
    q.orders.dropped = if fate = .counted then satInc16 p.orders.dropped else p.orders.dropped

theorem Chip.withdrawalMade_completeAbandon {t : Trip} (fate : OrderFate) (mismatch : Bool)
    (active : (p.hoist h).active = some t) :
    p.WithdrawalMade (p.completeAbandon h fate mismatch) h t fate mismatch := by
  obtain ⟨ended, reply, _⟩ := Chip.emptyEnded_completeAbandon fate mismatch active
  refine ⟨ended, reply, ?_, fun held occupied => ?_, fun held => ?_, fun o held =>
    Chip.completeAbandon_orders fate mismatch active held⟩
  · rw [Chip.completeAbandon_mass fate mismatch active, Chip.abandonSettled_mass]
  · have source := Chip.abandonSettled_source mismatch held occupied
    rw [Chip.completeAbandon_bay fate mismatch active _ (by rw [source]), source]
  · obtain ⟨free, state⟩ := Chip.abandonSettled_destination mismatch held
    rw [Chip.completeAbandon_bay fate mismatch active _ free, state]

theorem Chip.WithdrawalMade.finish {q : Chip} {t : Trip} {fate : OrderFate} {mismatch : Bool} (before : Chip)
    (made : p.WithdrawalMade q h t fate mismatch) : p.WithdrawalMade (before.finish q) h t fate mismatch :=
  ⟨Chip.activeEnded_finish before made.ended, by rw [Chip.finish_hoist_eq]; exact made.reply,
    by rw [Chip.finish_mass]; exact made.mass, by rw [Chip.finish_bay]; exact made.source,
    by rw [Chip.finish_bay]; exact made.destination, by rw [Chip.finish_orders]; exact made.orders⟩

theorem Chip.WithdrawalMade.withSensors {q : Chip} {t : Trip} {fate : OrderFate} {mismatch : Bool}
    (made : p.WithdrawalMade q h t fate mismatch) (bank : SensorBank) :
    p.WithdrawalMade (q.withSensors bank) h t fate mismatch :=
  ⟨made.ended, made.reply, made.mass, made.source, made.destination, made.orders⟩

theorem Chip.WithdrawalMade.of_recordLatch {q : Chip} {t : Trip} {fate : OrderFate} {mismatch : Bool} {level : Latch}
    (made : (p.recordLatch within h level).WithdrawalMade q h t fate mismatch) : p.WithdrawalMade q h t fate mismatch :=
  ⟨Chip.recordLatch_sameTrips.activeEnded made.ended, made.reply, made.mass, made.source, made.destination, made.orders⟩

/-- The withdrawal's own completion, where the latch opens during one (R99, R100). -/
theorem Chip.latchTaken_withdrawalMade {t : Trip} (fate : OrderFate) (mismatch : Bool)
    (active : (p.hoist h).active = some t) (withdrawn : (p.hoist h).withdrawal ≠ .none)
    (completes : ∀ q : Chip, (q.hoist h).withdrawal = (p.hoist h).withdrawal →
      q.completeWithdrawal h = q.completeAbandon h fate mismatch) :
    p.WithdrawalMade (p.latchTaken within after h .opened) h t fate mismatch := by
  have hoist := Chip.recordLatch_hoist (p := p) (bank := within) (h := h) (level := .opened)
  have withdrawal : ((p.recordLatch within h .opened).hoist h).withdrawal = (p.hoist h).withdrawal := by rw [hoist]
  have acted : (p.recordLatch within h .opened).actOnLatch h .opened =
      (p.recordLatch within h .opened).completeAbandon h fate mismatch := by
    rw [← completes _ withdrawal]
    exact if_pos (by rw [withdrawal]; exact withdrawn)
  have made := (Chip.withdrawalMade_completeAbandon fate mismatch (t := t)
    (by rw [hoist]; exact active : ((p.recordLatch within h .opened).hoist h).active = some t)).of_recordLatch
  rw [Chip.latchTaken_eq acted]
  exact (made.finish p).withSensors after

theorem Chip.latchTaken_mismatchMade {t : Trip} (active : (p.hoist h).active = some t)
    (mismatched : (p.hoist h).withdrawal = .mismatch) :
    p.WithdrawalMade (p.latchTaken within after h .opened) h t .counted true :=
  Chip.latchTaken_withdrawalMade .counted true active (by simp [mismatched]) fun q same => by
    simp [Chip.completeWithdrawal, same, mismatched]

theorem Chip.latchTaken_abandonMade {t : Trip} {fate : OrderFate} (active : (p.hoist h).active = some t)
    (abandoned : (p.hoist h).withdrawal = .abandon fate) :
    p.WithdrawalMade (p.latchTaken within after h .opened) h t fate false :=
  Chip.latchTaken_withdrawalMade fate false active (by simp [abandoned]) fun q same => by
    simp [Chip.completeWithdrawal, same, abandoned]

/-- Outside a withdrawal and a release a loaded hoist takes the LATCH fault when its latch opens (R163). -/
theorem Chip.actOnLatch_of_loaded (free : (p.hoist h).withdrawal = .none) (loaded : (p.hoist h).loaded = true)
    (notReleasing : (p.hoist h).workPhase ≠ .release) : p.actOnLatch h .opened = p.takeFault h .latch none := by
  simp [Chip.actOnLatch, free, loaded, notReleasing]

/-- Otherwise the phase's completion test is all there is (R97, R101). -/
theorem Chip.actOnLatch_of_unloaded (free : (p.hoist h).withdrawal = .none)
    (harmless : (p.hoist h).loaded = false ∨ (p.hoist h).workPhase = .release) : p.actOnLatch h .opened = p.completionTest h := by
  rcases harmless with unloaded | releasing
  · simp [Chip.actOnLatch, free, unloaded]
  · simp [Chip.actOnLatch, free, releasing]

theorem Chip.recordLatch_withdrawal {level : Latch} :
    ((p.recordLatch within h level).hoist h).withdrawal = (p.hoist h).withdrawal := by rw [Chip.recordLatch_hoist]

theorem Chip.recordLatch_phase {level : Latch} : ((p.recordLatch within h level).hoist h).phase = (p.hoist h).phase := by
  rw [Chip.recordLatch_hoist]

theorem Chip.recordLatch_fault {level : Latch} : ((p.recordLatch within h level).hoist h).fault = (p.hoist h).fault := by
  rw [Chip.recordLatch_hoist]

theorem Chip.stagedDropped_finish {q : Chip} (before : Chip) (dropped : p.stagedDropped q h) :
    p.stagedDropped (before.finish q) h := by
  unfold Chip.stagedDropped Chip.otherMassesSame at *
  simp only [Chip.finish_hoist_eq, Chip.finish_masses, Chip.finish_bays, Chip.finish_orders, Chip.finish_mass, Chip.finish_bay,
    Chip.finish_held]
  exact dropped

theorem Chip.recordLatch_stagedDropped {level : Latch} {q : Chip} (dropped : (p.recordLatch within h level).stagedDropped q h) :
    p.stagedDropped q h := by
  unfold Chip.stagedDropped at *
  rw [Chip.recordLatch_hoist] at dropped
  exact dropped

/-- The LATCH fault taken (R163, R165). -/
theorem Chip.latchTaken_faulted (free : (p.hoist h).withdrawal = .none) (loaded : (p.hoist h).loaded = true)
    (notReleasing : (p.hoist h).workPhase ≠ .release) :
    ((p.latchTaken within after h .opened).hoist h).phase = .faulted ∧
    ((p.hoist h).phase ≠ .faulted → p.stagedDropped (p.latchTaken within after h .opened) h ∧
      ((p.latchTaken within after h .opened).hoist h).fault =
        { first := some .latch, detail := none, phaseAt := some (p.hoist h).workPhase, further := some 0
          count := satInc 255 (p.hoist h).fault.count }) ∧
    ((p.hoist h).phase = .faulted → ((p.latchTaken within after h .opened).hoist h).fault =
      { (p.hoist h).fault with further := some (((p.hoist h).fault.further.getD 0) ||| 32#9) }) := by
  have acted := Chip.actOnLatch_of_loaded (p := p.recordLatch within h .opened)
    (Chip.recordLatch_withdrawal.trans free) (Chip.recordLatch_loaded.trans loaded)
    (by rw [Chip.recordLatch_workPhase]; exact notReleasing)
  have phase := Chip.recordLatch_phase (p := p) (within := within) (h := h) (level := .opened)
  have fault := Chip.recordLatch_fault (p := p) (within := within) (h := h) (level := .opened)
  have work := Chip.recordLatch_workPhase (p := p) (bank := within) (h := h) (level := .opened)
  have taken := Chip.takeFault_hoist (p.recordLatch within h .opened) h .latch none
  have dropped : (p.hoist h).phase ≠ .faulted → p.stagedDropped ((p.recordLatch within h .opened).takeFault h .latch none) h :=
    fun notFaulted => Chip.recordLatch_stagedDropped (Chip.stagedDropped_takeFault .latch none (by rw [phase]; exact notFaulted))
  rw [Chip.latchTaken_eq acted]
  generalize (p.recordLatch within h .opened).takeFault h .latch none = q at taken dropped ⊢
  generalize (p.recordLatch within h .opened).hoist h = c at taken phase fault work
  rw [← phase, ← fault, ← work]
  have phaseKept : ((p.finish q).hoist h).phase = (q.hoist h).phase := by rw [Chip.finish_hoist_eq]
  have faultFinished : ((p.finish q).hoist h).fault = (q.hoist h).fault := by rw [Chip.finish_hoist_eq]
  have droppedFinished : (p.hoist h).phase ≠ .faulted → p.stagedDropped (p.finish q) h :=
    fun notFaulted => Chip.stagedDropped_finish p (dropped notFaulted)
  generalize p.finish q = r at phaseKept faultFinished droppedFinished
  have faultKept : ((r.withSensors after).hoist h).fault = (c.faultTaken .latch none).fault :=
    faultFinished.trans (congrArg HoistCtl.fault taken)
  refine ⟨?_, fun notFaulted => ⟨?_, ?_⟩, fun faulted => ?_⟩
  · have entered : (q.hoist h).phase = .faulted := by rw [taken, HoistCtl.faultTaken_phase]
    exact phaseKept.trans entered
  · exact droppedFinished (phase ▸ notFaulted)
  · rw [faultKept, (HoistCtl.faultTaken_entry c .latch none notFaulted).2]
  · rw [faultKept, HoistCtl.faultTaken, if_pos faulted]
    rfl

end

end Sys2Proof.Machine
end

section
/-! SUPPORT. The completions that an acceptance on a latch line brings about or leaves open (spec/05 R97, R98, R101, R102), and O56. -/

namespace Sys2Proof.Machine

section
variable {p : Chip} {within after : SensorBank} {h : HoistId} {level : Latch}

/-- An acceptance that the controller answers by its completion test keeps the fault record. -/
theorem Chip.latchTaken_fault (acted : (p.recordLatch within h level).actOnLatch h level =
    (p.recordLatch within h level).completionTest h) :
    ((p.latchTaken within after h level).hoist h).fault = (p.hoist h).fault := by
  have fault : ((p.recordLatch within h level).completionTest h |>.hoist h).fault = (p.hoist h).fault :=
    (Chip.completionTest_keeps _ h).2.trans Chip.recordLatch_fault
  rw [Chip.latchTaken_eq acted]
  generalize (p.recordLatch within h level).completionTest h = q at fault ⊢
  rw [Chip.withSensors_hoist, Chip.finish_hoist_eq]
  exact fault

theorem Chip.latchTaken_latchLevel : ((p.latchTaken within after h level).hoist h).latchLevel = some level := by
  have accepted : (((p.recordLatch within h level).actOnLatch h level).hoist h).latchLevel = some level := by
    rw [Chip.actOnLatch_latchLevel, Chip.recordLatch_hoist]
  unfold Chip.latchTaken
  generalize (p.recordLatch within h level).actOnLatch h level = q at accepted ⊢
  rw [Chip.withSensors_hoist, Chip.finish_hoist_eq]
  exact accepted

/-- The latch opens at a hoist that is not in RELEASE: nothing completes (R101). -/
theorem Chip.recordLatch_opened_inert (notReleasing : (p.hoist h).phase ≠ .release) :
    (p.recordLatch within h .opened).completionTest h = p.recordLatch within h .opened :=
  Chip.completionTest_of_opened (by rw [Chip.recordLatch_hoist]) (by rw [Chip.recordLatch_phase]; exact notReleasing)

theorem Chip.completionTest_of_release (releasing : (p.hoist h).phase = .release) : p.completionTest h = p.releaseTest h := by
  rw [Chip.completionTest, releasing]

theorem Chip.completionTest_of_engage (engaged : (p.hoist h).phase = .engage) : p.completionTest h = p.engageTest h := by
  rw [Chip.completionTest, engaged]

theorem Chip.recordLatch_active : ((p.recordLatch within h level).hoist h).active = (p.hoist h).active := by
  rw [Chip.recordLatch_hoist]

theorem Chip.recordLatch_phaseReply : ((p.recordLatch within h level).hoist h).phaseReply = (p.hoist h).phaseReply := by
  rw [Chip.recordLatch_hoist]

theorem Chip.recordLatch_staged : ((p.recordLatch within h level).hoist h).staged = (p.hoist h).staged := by
  rw [Chip.recordLatch_hoist]

theorem Chip.recordLatch_level : ((p.recordLatch within h level).hoist h).latchLevel = some level := by
  rw [Chip.recordLatch_hoist]

theorem Chip.releaseTest_of_complete {t : Trip} {load : Nat} (active : (p.hoist h).active = some t)
    (releasing : (p.hoist h).phase = .release) (opened : (p.hoist h).latchLevel = some .opened)
    (seated : (p.bay t.destination).sensor = some .occupied) (reply : (p.hoist h).phaseReply = some load)
    (empty : load ≤ (p.hp h).loadEmptyMax) : p.releaseTest h = p.completeRelease h t := by
  simp [Chip.releaseTest, Chip.releaseComplete, active, releasing, opened, seated, reply, empty]

/-- The latch opens last of RELEASE's conditions: the release completes (R101, R102). -/
theorem Chip.latchTaken_releaseMade {t : Trip} {load : Nat} (free : (p.hoist h).withdrawal = .none)
    (harmless : (p.hoist h).loaded = false ∨ (p.hoist h).workPhase = .release) (active : (p.hoist h).active = some t)
    (releasing : (p.hoist h).phase = .release) (reply : (p.hoist h).phaseReply = some load)
    (seated : (p.bay t.destination).sensor = some .occupied) (empty : load ≤ (p.hp h).loadEmptyMax)
    (otherMass : ∀ staged, (p.hoist h).staged = some staged → staged.mass ≠ t.mass) :
    p.releaseMade (p.latchTaken within after h .opened) h t := by
  have releasing' : ((p.recordLatch within h .opened).hoist h).phase = .release := Chip.recordLatch_phase.trans releasing
  have acted : (p.recordLatch within h .opened).actOnLatch h .opened =
      (p.recordLatch within h .opened).completeRelease h t := by
    rw [Chip.actOnLatch_of_unloaded (Chip.recordLatch_withdrawal.trans free)
      (by rw [Chip.recordLatch_loaded, Chip.recordLatch_workPhase]; exact harmless), Chip.completionTest_of_release releasing']
    exact Chip.releaseTest_of_complete (Chip.recordLatch_active.trans active) releasing' Chip.recordLatch_level seated
      (Chip.recordLatch_phaseReply.trans reply) empty
  have made := Chip.recordLatch_releaseMade (Chip.releaseMade_completeRelease (t := t) releasing'
    (by rw [Chip.recordLatch_staged]; exact otherMass))
  rw [Chip.latchTaken_eq acted]
  exact Chip.releaseMade_withSensors after (Chip.releaseMade_finish p made)

/-- The latch opens and another of RELEASE's conditions is missing: nothing completes (R101). -/
theorem Chip.recordLatch_release_inert {t : Trip} (active : (p.hoist h).active = some t)
    (missing : (p.bay t.destination).sensor ≠ some .occupied ∨
      ∀ load, (p.hoist h).phaseReply = some load → (p.hp h).loadEmptyMax < load)
    (releasing : (p.hoist h).phase = .release) :
    (p.recordLatch within h level).completionTest h = p.recordLatch within h level := by
  rw [Chip.completionTest_of_release (Chip.recordLatch_phase.trans releasing)]
  refine Chip.releaseTest_of_incomplete fun t' active' => ?_
  obtain rfl : t = t' := Option.some.inj (active.symm.trans (Chip.recordLatch_active.symm.trans active'))
  have bay : (p.recordLatch within h level).bay t.destination = p.bay t.destination := rfl
  have hp : (p.recordLatch within h level).hp h = p.hp h := rfl
  unfold Chip.releaseComplete
  simp only [Chip.recordLatch_phaseReply, bay, hp]
  rcases missing with unseated | heavy
  · simp [unseated]
  · cases reply : (p.hoist h).phaseReply with
    | none => simp
    | some load => simp [Nat.not_le.mpr (heavy load reply)]

/-- The latch closes at a hoist that is not in ENGAGE, in a withdrawal, or not answered: nothing completes (R97). -/
theorem Chip.recordLatch_closed_inert
    (incomplete : (p.hoist h).phase ≠ .engage ∨ (p.hoist h).withdrawal ≠ .none ∨ (p.hoist h).phaseReply = none) :
    (p.recordLatch within h .closed).completionTest h = p.recordLatch within h .closed := by
  by_cases engaged : (p.hoist h).phase = .engage
  · rw [Chip.completionTest_of_engage (Chip.recordLatch_phase.trans engaged)]
    refine Chip.engageTest_of_incomplete ?_
    rw [Chip.recordLatch_withdrawal, Chip.recordLatch_phaseReply]
    rcases incomplete with notEngaged | withdrawn | unanswered
    · exact absurd engaged notEngaged
    · exact .inl withdrawn
    · exact .inr (.inr unanswered)
  · exact Chip.completionTest_of_closed Chip.recordLatch_level (by rw [Chip.recordLatch_phase]; exact engaged)

/-- The latch closes over a load short of half the nominal: nothing completes (R97). -/
theorem Chip.recordLatch_short_inert {t : Trip} {load nominal : Nat} (active : (p.hoist h).active = some t)
    (known : (p.mass t.mass).nominal = some nominal) (reply : (p.hoist h).phaseReply = some load)
    (short : load < (p.hp h).tare + nominal / 2) :
    (p.recordLatch within h .closed).completionTest h = p.recordLatch within h .closed := by
  by_cases engaged : (p.hoist h).phase = .engage
  · rw [Chip.completionTest_of_engage (Chip.recordLatch_phase.trans engaged)]
    exact Chip.engageTest_of_short (Chip.recordLatch_active.trans active) (Chip.recordLatch_phaseReply.trans reply) known short
  · exact Chip.completionTest_of_closed Chip.recordLatch_level (by rw [Chip.recordLatch_phase]; exact engaged)

/-- The latch closes last of ENGAGE's conditions: the weighing is made (R97 to R99). -/
theorem Chip.latchTaken_weighingMade {t : Trip} {load nominal : Nat} (active : (p.hoist h).active = some t)
    (known : (p.mass t.mass).nominal = some nominal) (engaged : (p.hoist h).phase = .engage)
    (free : (p.hoist h).withdrawal = .none) (reply : (p.hoist h).phaseReply = some load)
    (enough : (p.hp h).tare + nominal / 2 ≤ load) :
    p.weighingMade (p.latchTaken within after h .closed) h t nominal (load - (p.hp h).tare) := by
  have engaged' : ((p.recordLatch within h .closed).hoist h).phase = .engage := Chip.recordLatch_phase.trans engaged
  have acted : (p.recordLatch within h .closed).actOnLatch h .closed = (p.recordLatch within h .closed).engageTest h :=
    Chip.completionTest_of_engage engaged'
  have made := Chip.recordLatch_weighingMade (Chip.weighingMade_engageTest (Chip.recordLatch_active.trans active) engaged'
    (Chip.recordLatch_withdrawal.trans free) Chip.recordLatch_level (Chip.recordLatch_phaseReply.trans reply) known enough)
  rw [Chip.latchTaken_eq acted]
  exact Chip.weighingMade_withSensors after (Chip.weighingMade_finish p made)

end

/-- The latch opens in a withdrawal: the mass, the bays and the order meet their fate, and the trip ends (R99, R100, R103, R121). -/
theorem Chip.latchTaken_withdrawal {p : Chip} {within after : SensorBank} {h : HoistId} {tr : Trip} {t : Chip}
    (taken : t = p.latchTaken within after h .opened) (active : (p.hoist h).active = some tr)
    (withdrawn : (p.hoist h).withdrawal ≠ .none) :
    p.activeEnded t h ∧ (t.hoist h).phaseReply = none ∧
    ((p.hoist h).withdrawal = .mismatch → t.mass tr.mass =
      { p.mass tr.mass with state := .parked, measured := tr.measured, weighHold := true }) ∧
    (∀ fate, (p.hoist h).withdrawal = .abandon fate → t.mass tr.mass = { p.mass tr.mass with state := .parked }) ∧
    (p.holdsSource h .active tr.source = true → (p.bay tr.source).occupant ≠ none →
      t.bay tr.source = { p.bay tr.source with state := .occupied, holder := none }) ∧
    (p.holdsDestination h .active tr.destination = true → (t.bay tr.destination).state =
      if (p.bay tr.destination).sensor = some .occupied then .barred else .opened) ∧
    ∀ o, p.held h .active = some o →
      ((p.hoist h).withdrawal = .mismatch → t.orders.queue = p.orders.queue ∧
        t.orders.dropped = satInc16 p.orders.dropped) ∧
      ((p.hoist h).withdrawal = .abandon .discarded → t.orders.queue = p.orders.queue ∧
        t.orders.dropped = p.orders.dropped) ∧
      ((p.hoist h).withdrawal = .abandon .returned →
        t.orders.queue = o :: p.orders.queue ∧ t.orders.dropped = p.orders.dropped) := by
  cases withdrawal : (p.hoist h).withdrawal with
  | none => exact absurd withdrawal withdrawn
  | mismatch =>
    have made : p.WithdrawalMade t h tr .counted true := taken ▸ Chip.latchTaken_mismatchMade active withdrawal
    exact ⟨made.ended, made.reply, fun _ => made.mass, by simp, made.source, made.destination, fun o held =>
      ⟨fun _ => made.orders o held, by simp, by simp⟩⟩
  | abandon fate =>
    have made : p.WithdrawalMade t h tr fate false := taken ▸ Chip.latchTaken_abandonMade active withdrawal
    refine ⟨made.ended, made.reply, by simp, fun _ _ => made.mass, made.source, made.destination, fun o held => ⟨by simp, ?_, ?_⟩⟩
    · intro discarded
      obtain rfl : fate = .discarded := by simpa using discarded
      exact made.orders o held
    · intro returned
      obtain rfl : fate = .returned := by simpa using returned
      exact made.orders o held

/-! ### The obligation -/

theorem Chip.finish_bayReading (before p : Chip) (b : BayId) : (before.finish p).bayReading b = p.bayReading b := by
  unfold Chip.bayReading
  rw [Chip.finish_params, Chip.finish_sensors, Chip.finish_bay]

theorem Chip.finish_latchReading (before p : Chip) (h : HoistId) : (before.finish p).latchReading h = p.latchReading h := by
  unfold Chip.latchReading
  rw [Chip.finish_params, Chip.finish_sensors, Chip.finish_hoist_eq]

/-- An instant of group BAY, line by line (R53 to R55). -/
theorem bayInstantCompletes (s : State) (levels : BitVec 64) (due : s.chip.sampleOpen (.bay levels) = true) :
    ∃ t, exec (.filterSampleInstant (.bay levels)) s = .next t ∧ t.pending = s.pending ∧
      s.chip.unchangedBut t.chip [.masses, .bays, .sensors, .hoists, .selector, .orders, .power, .port] ∧
      t.chip.sensors = (s.chip.sampleBays levels).sensors ∧
      ∀ b, t.chip.bayReading b = (s.chip.bayReading b).sampled (bayLevel levels b) := by
  have event : exec (.filterSampleInstant (.bay levels)) s =
      .next { s with chip := s.chip.finish (s.chip.sampleBays levels) } := s.event_of _ _ due
  have frame := s.chip.sampleBays_unchangedBut levels
  have reading := s.chip.sampleBays_reading levels
  generalize s.chip.sampleBays levels = q at event frame reading ⊢
  refine ⟨_, event, rfl, ?_, Chip.finish_sensors _ _, fun b => (Chip.finish_bayReading _ _ b).trans (reading b)⟩
  exact Chip.unchangedBut_trans frame (Chip.unchangedBut_mono (Chip.finish_unchangedBut _ _) (by simp))

/-- An instant of group LATCH, line by line (R53 to R55). -/
theorem latchInstantCompletes (s : State) (levels : BitVec 4) (due : s.chip.sampleOpen (.latch levels) = true) :
    ∃ t, exec (.filterSampleInstant (.latch levels)) s = .next t ∧ t.pending = s.pending ∧
      s.chip.unchangedBut t.chip [.masses, .bays, .sensors, .hoists, .selector, .orders, .power, .port] ∧
      t.chip.sensors = (s.chip.sampleLatches levels).sensors ∧
      ∀ h, t.chip.latchReading h = (s.chip.latchReading h).sampled (latchLevelOf levels h) := by
  have event : exec (.filterSampleInstant (.latch levels)) s =
      .next { s with chip := s.chip.finish (s.chip.sampleLatches levels) } := s.event_of _ _ due
  have frame := s.chip.sampleLatches_unchangedBut levels
  have reading := s.chip.sampleLatches_reading levels
  generalize s.chip.sampleLatches levels = q at event frame reading ⊢
  refine ⟨_, event, rfl, ?_, Chip.finish_sensors _ _, fun h => (Chip.finish_latchReading _ _ h).trans (reading h)⟩
  exact Chip.unchangedBut_trans frame (Chip.unchangedBut_mono (Chip.finish_unchangedBut _ _) (by simp))

/-- What the samples of one line do to the level its owner holds, as the statement describes it (R53 to R55). -/
theorem LineReading.sampled_cases {α : Type} [DecidableEq α] (r : LineReading α) (level : α) :
    (r.sampled level).line.previous = some level ∧
    (r.line.accepted = none → (r.sampled level).line.accepted = some level ∧ (r.sampled level).field = some level) ∧
    ∀ a, r.line.accepted = some a →
      (level ≠ a → (r.code = 0 ∨ r.line.previous = some level) →
        (r.sampled level).line.accepted = some level ∧ (r.sampled level).field = some level) ∧
      ((level = a ∨ r.code ≠ 0 ∧ r.line.previous ≠ some level) →
        (r.sampled level).line.accepted = some a ∧ (r.sampled level).field = r.field) :=
  ⟨rfl, r.sampled_of_first level, fun _ accepted =>
    ⟨r.sampled_of_change level accepted, r.sampled_of_nothing level accepted⟩⟩

/-- A latch line that opens where no other line is accepted as changed: what its hoist does (R60, R99 to R103, R163). -/
theorem latchOpeningCompletes (s : State) (kept : s.chip.Kept) {within after : SensorBank} {h : HoistId}
    (qualifierAfter : after.qualifier = within.qualifier) (free : (s.chip.hoist h).withdrawal = .none)
    (harmless : (s.chip.hoist h).loaded = false ∨ (s.chip.hoist h).workPhase = .release) {t : Chip}
    (taken : t = s.chip.latchTaken within after h .opened) :
    (t.hoist h).fault = (s.chip.hoist h).fault ∧
    ((s.chip.hoist h).phase ≠ .release → s.chip.latchOnlyRecorded t h .opened) ∧
    (∀ tr, (s.chip.hoist h).active = some tr → (s.chip.hoist h).phase = .release →
      (∀ load, (s.chip.hoist h).phaseReply = some load →
        (s.chip.bay tr.destination).sensor = some .occupied → load ≤ (s.chip.hp h).loadEmptyMax →
        (∀ staged, (s.chip.hoist h).staged = some staged → staged.mass ≠ tr.mass) → s.chip.releaseMade t h tr) ∧
      (((s.chip.bay tr.destination).sensor ≠ some .occupied ∨
          ∀ load, (s.chip.hoist h).phaseReply = some load → (s.chip.hp h).loadEmptyMax < load) →
        s.chip.latchOnlyRecorded t h .opened)) := by
  have acted : (s.chip.recordLatch within h .opened).actOnLatch h .opened =
      (s.chip.recordLatch within h .opened).completionTest h :=
    Chip.actOnLatch_of_unloaded (Chip.recordLatch_withdrawal.trans free)
      (by rw [Chip.recordLatch_loaded, Chip.recordLatch_workPhase]; exact harmless)
  subst taken
  refine ⟨Chip.latchTaken_fault acted, fun notReleasing => ?_, fun tr active releasing => ⟨?_, fun missing => ?_⟩⟩
  · exact kept.latchTaken_onlyRecorded qualifierAfter (acted.trans (Chip.recordLatch_opened_inert notReleasing))
  · intro load reply seated empty otherMass
    exact Chip.latchTaken_releaseMade free harmless active releasing reply seated empty otherMass
  · exact kept.latchTaken_onlyRecorded qualifierAfter (acted.trans (Chip.recordLatch_release_inert active missing releasing))

/-- Settles O56: an instant samples its lines each for itself, and where one latch line alone is accepted as changed the event is that of the
acceptance, taken by its hoist. -/
theorem filterSampleInstantCompletes : Obligations.FilterSampleInstantCompletes := by
  unfold Obligations.FilterSampleInstantCompletes
  intro s kept
  refine ⟨fun _ => FilterGroup.instantOpen_iff _ _, fun _ => FilterGroup.instantOpen_iff _ _, fun levels due => ?_,
    fun levels due => ?_, fun levels h due bit accepted checked others => ?_,
    fun levels h due bit accepted checked others => ?_⟩
  · obtain ⟨t, next, pending, frame, sensors, readings⟩ := bayInstantCompletes s levels due
    refine ⟨t, next, pending, frame, ?_, fun b level l isLevel isLine => ?_⟩
    · have account := s.chip.sampleBays_sensors levels
      rw [← sensors] at account
      exact account
    · have sampled := (s.chip.bayReading b).sampled_cases (bayLevel levels b)
      rw [← readings b] at sampled
      subst isLevel isLine
      exact sampled
  · obtain ⟨t, next, pending, frame, sensors, readings⟩ := latchInstantCompletes s levels due
    refine ⟨t, next, pending, frame, ?_, fun h level l isLevel isLine => ?_⟩
    · have account := s.chip.sampleLatches_sensors levels
      rw [← sensors] at account
      exact account
    · obtain ⟨previous, first, later⟩ := (s.chip.latchReading h).sampled_cases (latchLevelOf levels h)
      rw [← readings h] at previous first later
      subst isLevel isLine
      exact ⟨previous, fun unaccepted => (first unaccepted).2, later⟩
  · have opened : latchLevelOf levels h = .opened := by rw [latchLevelOf, bit]; rfl
    obtain ⟨within, after, qualifierWithin, qualifierAfter, next⟩ := latchTaken_of_sampleInstant due accepted
      (by simp [opened]) (by rw [opened]; exact checked) others
    rw [opened] at next
    refine ⟨_, next, kept.latchTaken_others qualifierWithin, fun tr active withdrawn => ?_, Chip.latchTaken_faulted,
      fun free harmless => latchOpeningCompletes s kept qualifierAfter free harmless rfl⟩
    exact Chip.latchTaken_withdrawal rfl active withdrawn
  · have closed : latchLevelOf levels h = .closed := by rw [latchLevelOf, bit]; rfl
    obtain ⟨within, after, qualifierWithin, qualifierAfter, next⟩ := latchTaken_of_sampleInstant due accepted
      (by simp [closed]) (by rw [closed]; exact checked) others
    rw [closed] at next
    refine ⟨_, next, kept.latchTaken_others qualifierWithin, Chip.latchTaken_latchLevel, Chip.latchTaken_fault rfl,
      fun incomplete => kept.latchTaken_onlyRecorded qualifierAfter (Chip.recordLatch_closed_inert incomplete),
      fun tr nominal active known => ⟨fun load engaged free reply enough => ?_, fun load reply short => ?_⟩⟩
    · exact Chip.latchTaken_weighingMade active known engaged free reply enough
    · exact kept.latchTaken_onlyRecorded qualifierAfter (Chip.recordLatch_short_inert active known reply short)

end Sys2Proof.Machine
end

section
/-! SUPPORT. The ranges of the parameters (spec/11, section 11.5, spec/04 R68, R79, spec/07 R153) and of the Position Units' items (spec/04 R63):
what each change of a parameter and each operation of a Position Unit makes of them. -/

namespace Sys2Proof.Machine

/-! ### Values treated against a range (spec/10 R187) -/

/-- A value taken against a range that is not empty lies in it. -/
theorem Treatment.apply_within {treatment : Treatment} {range : Nat × Nat} {x : Int} {v : Nat}
    (taken : treatment.apply range x = some v) (proper : range.1 ≤ range.2) : range.1 ≤ v ∧ v ≤ range.2 := by
  cases treatment <;> simp only [Treatment.apply, Option.ite_none_right_eq_some, Option.some.injEq] at taken <;> omega

section
variable {q : PlantParams} {v : Nat}

/-- The largest drift of a referenced hoist is what bounds all of them (R79). -/
theorem Chip.largestDrift_le_iff (p : Chip) (n : Nat) :
    p.largestDrift ≤ n ↔ ∀ h, (p.unit h).referenced = true → (p.unit h).drift.natAbs ≤ n := by
  have fold : ∀ (l : List HoistId) (m : Nat),
      l.foldl (fun n h => if (p.unit h).referenced then max n (p.unit h).drift.natAbs else n) m ≤ n ↔
        m ≤ n ∧ ∀ h ∈ l, (p.unit h).referenced = true → (p.unit h).drift.natAbs ≤ n := by
    intro l
    induction l with
    | nil => simp
    | cons h rest ih =>
      intro m
      rw [List.foldl_cons, ih]
      cases referenced : (p.unit h).referenced <;> simp [referenced, and_assoc]
  have all : ∀ h : HoistId, h ∈ hoistList := by decide
  exact (fold hoistList 0).trans ⟨fun both h => both.2 h (all h), fun each => ⟨Nat.zero_le n, fun h _ => each h⟩⟩

/-- No range of a plant parameter is empty while the parameters are in their ranges. -/
theorem Chip.ParamsInRange.plantRange_proper {p : Chip} (ranges : p.ParamsInRange) (x : PlantParam) :
    (p.plantRange x).1 ≤ (p.plantRange x).2 := by
  obtain ⟨_, high, _⟩ := ranges.plant.syncWindow
  obtain ⟨low, _⟩ := ranges.plant.slipLimit
  obtain ⟨_, top⟩ := ranges.plant.driftLimit
  have drift := (p.largestDrift_le_iff p.params.driftLimit).mpr ranges.drift
  cases x
  case syncWindow | slipLimit | driftLimit => simp only [Chip.plantRange]; omega
  all_goals exact Nat.le_of_ble_eq_true rfl

/-- A plant parameter set to a value of its range leaves all of them in their ranges (R79). -/
theorem PlantParams.InRange.set {p : Chip} (range : p.params.InRange) (x : PlantParam)
    (within : (p.plantRange x).1 ≤ v ∧ v ≤ (p.plantRange x).2) : (p.params.set x v).InRange := by
  cases x with
  | gravity => exact { range with gravity := within }
  | datum => exact { range with datum := within.2 }
  | minLift => exact { range with minLift := within }
  | weighTol => exact { range with weighTol := within }
  | engageTo => exact { range with engageTo := within.2 }
  | releaseTo => exact { range with releaseTo := within.2 }
  | approachTo => exact { range with approachTo := within.2 }
  | dwellLimit => exact { range with dwellLimit := within.2 }
  | syncWindow =>
    obtain ⟨low, high⟩ := within
    exact { range with syncWindow := ⟨low, le_min_iff.mp high⟩ }
  | slipLimit =>
    obtain ⟨low, high⟩ := within
    obtain ⟨least, window⟩ := max_le_iff.mp low
    exact { range with
      syncWindow := ⟨range.syncWindow.1, range.syncWindow.2.1, window⟩, slipLimit := ⟨least, high⟩ }
  | driftLimit => exact { range with driftLimit := ⟨(max_le_iff.mp within.1).1, within.2⟩ }
  | clearHeight => exact { range with clearHeight := within }
  | approachDist => exact { range with approachDist := within }
  | stopTol => exact { range with stopTol := within }
  | pPlantMax => exact { range with pPlantMax := within.2 }
  | unservedThresh => exact { range with unservedThresh := within.2 }
  | bayFilter => exact { range with bayFilter := within.2 }
  | latchFilter => exact { range with latchFilter := within.2 }
  | linkTimeout => exact { range with linkTimeout := within }

/-- Only DRIFT_LIMIT bears on the law of drift, and its range begins at the largest drift of a referenced hoist (R79). -/
theorem Chip.ParamsInRange.set_driftLimit {p : Chip} (ranges : p.ParamsInRange) (x : PlantParam)
    (within : (p.plantRange x).1 ≤ v) {h : HoistId} (referenced : (p.unit h).referenced = true) :
    (p.unit h).drift.natAbs ≤ (p.params.set x v).driftLimit := by
  cases x
  case driftLimit => exact (p.largestDrift_le_iff v).mp (max_le_iff.mp within).2 h referenced
  all_goals exact ranges.drift h referenced

end

/-! ### The parameters of a hoist (R68, R153) -/

section
variable {q : HoistParams} {v : Nat}

theorem HoistParams.InRange.range_proper (range : q.InRange) (x : HoistParam) : (q.range x).1 ≤ (q.range x).2 := by
  obtain ⟨low, _⟩ := range.vRated
  cases x
  case vReposition | vTransfer => simp only [HoistParams.range]; omega
  all_goals exact Nat.le_of_ble_eq_true rfl

/-- NUM brought within the ratio's bounds stays in its range, and the ratio holds (R68). -/
theorem adjustNum_within {num den : Nat} (numRange : 1 ≤ num ∧ num ≤ 16777215) (denRange : 1 ≤ den ∧ den ≤ 16777215) :
    (1 ≤ adjustNum num den ∧ adjustNum num den ≤ 16777215) ∧
    adjustNum num den ≤ 16 * den ∧ den ≤ 1024 * adjustNum num den := by
  unfold adjustNum leastNum
  split
  · omega
  · split <;> omega

/-- A hoist parameter set to a value of its range leaves all of them in their ranges, with what the value moves beside it (R68, R153). -/
theorem HoistParams.InRange.set (range : q.InRange) (x : HoistParam) (within : (q.range x).1 ≤ v ∧ v ≤ (q.range x).2) :
    (q.set x v).InRange := by
  cases x with
  | vRated =>
    have lowered : ∀ speed, 1 ≤ speed → 1 ≤ min speed v ∧ min speed v ≤ v := fun speed low =>
      ⟨le_min low (le_trans (show 1 ≤ 100 by decide) within.1), min_le_right _ _⟩
    exact { range with
      vRated := within, vReposition := lowered _ range.vReposition.1, vTransfer := lowered _ range.vTransfer.1 }
  | accel => exact { range with accel := within }
  | pRated => exact { range with pRated := within.2 }
  | tare => exact { range with tare := within.2 }
  | c => exact { range with c := within }
  | num =>
    obtain ⟨num, ratio⟩ := adjustNum_within within range.den
    exact { range with num := num, ratio := ratio }
  | den =>
    obtain ⟨num, ratio⟩ := adjustNum_within range.num within
    exact { range with den := within, num := num, ratio := ratio }
  | zHead => exact { range with zHead := within.2 }
  | creep => exact { range with creep := within }
  | vReposition => exact { range with vReposition := within }
  | vTransfer => exact { range with vTransfer := within }
  | gear => exact { range with gear := within.2 }
  | overspeedMargin => exact { range with overspeedMargin := within.2 }
  | loadEmptyMax => exact { range with loadEmptyMax := within.2 }

end

/-! ### The items of a Position Unit (R63) -/

theorem satInc_le {top n : Nat} (within : n ≤ top) : satInc top n ≤ top := by
  unfold satInc
  split <;> omega

theorem satInc16_le {n : Nat} (within : n ≤ 65535) : satInc16 n ≤ 65535 := satInc_le within

theorem clampElevation_le (x : Int) : clampElevation x ≤ 1048575 := by
  unfold clampElevation
  omega

theorem Chip.elevationAt_le (p : Chip) (h : HoistId) (count : Int) : p.elevationAt h count ≤ 1048575 := clampElevation_le _

/-- An offset held is in its range, whether the act gives one of it or not (log 20). -/
theorem Chip.offsetOf_within (p : Chip) (x : Int) : -2147483648 ≤ p.offsetOf x ∧ p.offsetOf x ≤ 2147483647 := by
  unfold Chip.offsetOf
  split
  · assumption
  · have low := BitVec.le_toInt (Config.freeOffset p.draws x)
    have high := BitVec.toInt_lt (x := Config.freeOffset p.draws x)
    norm_num at low high
    omega

section
variable (u : PositionUnit)

/-- A step of the count stays in its range, or is counted as an encoder error (R66). -/
theorem PositionUnit.InRange.stepCount {u : PositionUnit} (range : u.InRange) (d : Int) : (u.stepCount d).InRange := by
  unfold PositionUnit.stepCount
  split
  · rename_i inside
    exact { range with count := inside }
  · exact { range with encoderErrors := satInc16_le range.encoderErrors }

theorem PositionUnit.InRange.sample {u : PositionUnit} (range : u.InRange) (levels : Channels) : (u.sample levels).InRange := by
  have taken : ∀ {w : PositionUnit}, w.InRange → { w with channels := levels }.InRange := fun within => { within with }
  unfold PositionUnit.sample
  cases transitionOf u.channels levels
  · exact taken range
  · exact taken (range.stepCount 1)
  · exact taken (range.stepCount (-1))
  · exact taken { range with encoderErrors := satInc16_le range.encoderErrors, illegal := satInc_le range.illegal }

theorem PositionUnit.stepCount_kept (d : Int) :
    (u.stepCount d).referenced = u.referenced ∧ (u.stepCount d).drift = u.drift := by
  unfold PositionUnit.stepCount
  split <;> exact ⟨rfl, rfl⟩

/-- A sample touches neither the reference nor the drift. -/
theorem PositionUnit.sample_kept (levels : Channels) :
    (u.sample levels).referenced = u.referenced ∧ (u.sample levels).drift = u.drift := by
  unfold PositionUnit.sample
  cases transitionOf u.channels levels
  · exact ⟨rfl, rfl⟩
  · exact u.stepCount_kept 1
  · exact u.stepCount_kept (-1)
  · exact ⟨rfl, rfl⟩

end

/-- The run of misses that a pass over the markers leaves is below 2, and its count of missed markers saturates (R80, R81). -/
theorem passMarkers_within (slip zp z : Nat) (state : Nat → MarkerState) (run missed : Nat) (expected : List Nat) :
    (run ≤ 2 → (passMarkers slip zp z state run missed expected).run ≤ 2) ∧
    (missed ≤ 65535 → (passMarkers slip zp z state run missed expected).missed ≤ 65535) := by
  induction expected generalizing run missed with
  | nil => exact ⟨id, id⟩
  | cons zb rest ih =>
    rw [passMarkers]
    cases miss : (checkMarker slip zp z zb (state zb)).2 with
    | false =>
      simp only [Bool.false_and, Bool.false_eq_true, if_false]
      split <;> exact ih run missed
    | true =>
      obtain ⟨runLow, missedLow⟩ := ih (run + 1) (satInc16 missed)
      by_cases second : 1 ≤ run
      · simp only [Bool.true_and, decide_eq_true_eq, if_pos second]
        exact ⟨fun _ => Nat.zero_le 2, satInc16_le⟩
      · simp only [Bool.true_and, decide_eq_true_eq, if_neg second, if_true]
        split <;> exact ⟨fun _ => runLow (by omega), fun low => missedLow (satInc16_le low)⟩

/-- A pulse that corrects the offset leaves the drift within DRIFT_LIMIT (R78, R79). -/
theorem Chip.pulseOutcome_corrects {p : Chip} {h : HoistId} {dev : Int}
    (corrects : p.pulseOutcome h dev = .correction ∨ p.pulseOutcome h dev = .warnedCorrection) :
    ((p.unit h).drift + dev).natAbs ≤ p.params.driftLimit := by
  by_contra beyond
  have table : p.pulseOutcome h dev = .fault ∨ p.pulseOutcome h dev = .warning := by
    unfold Chip.pulseOutcome
    simp only [decide_eq_false beyond, Bool.false_eq_true, if_false]
    split
    · exact .inl rfl
    · split
      · exact .inl rfl
      · split
        · exact .inl rfl
        · exact .inr rfl
  rcases corrects with e | e <;> rw [e] at table <;> simp at table

end Sys2Proof.Machine
end

section
/-! SUPPORT. Every operation keeps the ranges of the parameters with the law on drift (spec/11, section 11.5, spec/04 R79) and the ranges of the
Position Units' items (spec/04 R63): the operations that touch one of them each by itself, all others because they touch none. -/

namespace Sys2Proof.Machine

/-- What every step keeps, from `p` to `q`: the parameters in their ranges with the drift of a referenced hoist, and the items of the Position
Units in theirs. -/
structure Chip.KeepsRanges (p q : Chip) : Prop where
  params : p.ParamsInRange → q.ParamsInRange
  units : (∀ h, (p.unit h).InRange) → ∀ h, (q.unit h).InRange

/-- A change of one Position Unit that keeps its items in their ranges, and its drift within the limit where it is referenced after it. -/
structure PositionUnit.KeepsRange (limit : Nat) (u v : PositionUnit) : Prop where
  range : u.InRange → v.InRange
  drift : v.referenced = true → u.referenced = true ∧ v.drift = u.drift ∨ v.drift.natAbs ≤ limit

/-! ### Operations on a hoist's trips that its commands make (spec/05) -/

namespace Chip.TripFrame

variable {p : Chip} {h : HoistId}

theorem reenter (resume : Phase) : TripFrame h p (p.reenter h resume) := by
  unfold Chip.reenter
  split
  · exact ((enterPhase _).trans (updHoist _)).trans (updActive _)
  · exact ((enterPhase _).trans (updHoist _)).trans (updActive _)
  · exact (enterPhase _).trans (updActive _)

theorem resumeHoist : TripFrame h p (p.resumeHoist h) := by
  unfold Chip.resumeHoist
  split
  · exact refl h p
  · simp only
    split
    · exact reenter _
    · split
      · rename_i taken
        exact (retargetFrom _ _ taken).trans (reenter _)
      · exact setNoBay.trans (updActive _)

theorem abandonTrip (t : Trip) : TripFrame h p (p.abandonTrip h t) := by
  unfold Chip.abandonTrip
  simp only
  split
  · exact (dropStaged _).trans (abandon _)
  · exact (dropStaged _).trans ((((massLostAboard _).trans (giveUpDestination h .active _)).trans
      (barClearedSource h _)).trans endActive)

theorem clearFault : TripFrame h p (p.clearFault h) := by
  unfold Chip.clearFault
  simp only
  split
  · exact (updHoist _).trans (haltHoist _ _)
  · exact (updHoist _).trans (enterPhase _)

theorem restartLoaded : TripFrame h p (p.restartLoaded h) := by
  unfold Chip.restartLoaded
  split
  case h_5 => exact updActive _
  case h_1 | h_2 | h_3 | h_4 => exact haltHoist _ _
  all_goals exact refl h p

end Chip.TripFrame

namespace Chip.KeepsRanges

variable {p q r : Chip} {h : HoistId} {slot : Slot}

theorem of_same (units : q.units = p.units) (params : q.params = p.params) (hoistParams : q.hoistParams = p.hoistParams) :
    KeepsRanges p q := by
  have unit : ∀ h, q.unit h = p.unit h := fun h => congrArg (Quad.get · h) units
  have hp : ∀ h, q.hp h = p.hp h := fun h => congrArg (Quad.get · h) hoistParams
  refine ⟨fun ranges => ⟨?_, fun h => ?_, fun h => ?_⟩, fun ranges h => ?_⟩
  · rw [params]
    exact ranges.plant
  · rw [hp]
    exact ranges.hoist h
  · rw [unit, params]
    exact ranges.drift h
  · rw [unit]
    exact ranges h

theorem of_frame {parts : List Part} (frame : p.unchangedBut q parts)
    (apart : .units ∉ parts ∧ .params ∉ parts ∧ .hoistParams ∉ parts) : KeepsRanges p q :=
  of_same (frame .units apart.1) (frame .params apart.2.1) (frame .hoistParams apart.2.2)

/-- No operation on a hoist's trips touches a Position Unit or a parameter. -/
theorem of_trips (frame : TripFrame h p q) : KeepsRanges p q := of_same frame.units frame.params frame.hoistParams

theorem refl (p : Chip) : KeepsRanges p p := of_same rfl rfl rfl

theorem trans (first : KeepsRanges p q) (second : KeepsRanges q r) : KeepsRanges p r :=
  ⟨fun ranges => second.params (first.params ranges), fun ranges => second.units (first.units ranges)⟩

theorem foldl {α : Type} (f : Chip → α → Chip) (each : ∀ q x, KeepsRanges q (f q x)) (l : List α) :
    KeepsRanges p (l.foldl f p) := by
  induction l generalizing p with
  | nil => exact refl p
  | cons x _ ih => exact (each p x).trans ih

theorem updLink (f : LinkPort → LinkPort) : KeepsRanges p (p.updLink h f) := of_same rfl rfl rfl

theorem port (x : PlantPort) : KeepsRanges p { p with port := x } := of_same rfl rfl rfl

theorem draws (n : Nat) : KeepsRanges p { p with draws := n } := of_same rfl rfl rfl

theorem finish {before : Chip} : KeepsRanges p (Chip.finish before p) :=
  of_frame (Chip.finish_unchangedBut before p) (by decide)

theorem reply (a : Answer) : KeepsRanges p (p.reply a) := of_frame (p.reply_unchangedBut a) (by decide)

/-! ### The Position Unit (spec/04) -/

theorem updUnit (f : PositionUnit → PositionUnit)
    (keeps : (p.unit h).KeepsRange p.params.driftLimit (f (p.unit h))) : KeepsRanges p (p.updUnit h f) where
  params ranges := by
    refine ⟨ranges.plant, ranges.hoist, fun k => ?_⟩
    rw [Chip.updUnit_unit]
    split
    · intro referenced
      rcases keeps.drift referenced with ⟨before, same⟩ | within
      · rw [same]
        exact ranges.drift h before
      · exact within
    · exact ranges.drift k
  units ranges k := by
    rw [Chip.updUnit_unit]
    split
    · exact keeps.range (ranges h)
    · exact ranges k

/-- A change that touches neither the reference nor the drift. -/
theorem updUnit_quiet (f : PositionUnit → PositionUnit) (range : (p.unit h).InRange → (f (p.unit h)).InRange)
    (quiet : (f (p.unit h)).referenced = (p.unit h).referenced ∧ (f (p.unit h)).drift = (p.unit h).drift) :
    KeepsRanges p (p.updUnit h f) :=
  updUnit f ⟨range, fun referenced => .inl ⟨quiet.1 ▸ referenced, quiet.2⟩⟩

theorem computePosition : KeepsRanges p (p.computePosition h) := by
  unfold Chip.computePosition
  extract_lets u exact z zBefore
  refine updUnit_quiet _ (fun range => { range with
    elevation := clampElevation_le _, previousCount := range.count, illegal := Nat.zero_le 2, rangeCount := ?_ }) ⟨rfl, rfl⟩
  dsimp only
  split
  · exact satInc16_le range.rangeCount
  · exact range.rangeCount

theorem unreference : KeepsRanges p (p.unreference h) :=
  updUnit _ ⟨fun range => { range with missRun := Nat.zero_le 2 }, fun referenced => absurd referenced (by simp)⟩

theorem referenceAt (e : Nat) : KeepsRanges p (p.referenceAt h e) := by
  unfold Chip.referenceAt
  refine ((updUnit _ ⟨fun range => ?_, fun _ => .inr ?_⟩).trans (updUnit_quiet _ (fun range => ?_) ⟨rfl, rfl⟩)).trans (draws _)
  · exact { range with offset := p.offsetOf_within _, missRun := Nat.zero_le 2 }
  · exact Nat.zero_le _
  · exact { range with elevation := clampElevation_le _ }

theorem warnSlip : KeepsRanges p (p.warnSlip h) :=
  updUnit_quiet _ (fun range => { range with slipWarnings := satInc16_le range.slipWarnings }) ⟨rfl, rfl⟩

theorem meetMarker (zb : Nat) : KeepsRanges p (p.meetMarker h zb) :=
  updUnit_quiet _ (fun range => { range with missRun := Nat.zero_le 2 }) ⟨rfl, rfl⟩

/-- A deviation is added only where the drift stays within DRIFT_LIMIT (R78, R79). -/
theorem correctOffset (dev : Int) (within : ((p.unit h).drift + dev).natAbs ≤ p.params.driftLimit) :
    KeepsRanges p (p.correctOffset h dev) :=
  (updUnit _ ⟨fun range => { range with offset := p.offsetOf_within _ }, fun _ => .inr within⟩).trans (draws _)

theorem takeFault (cause : FaultCause) (detail : Option Nat) : KeepsRanges p (p.takeFault h cause detail) :=
  of_trips (.takeFault cause detail)

theorem takePositionFault (cause : FaultCause) (detail : Option Nat) :
    KeepsRanges p (p.takePositionFault h cause detail) := unreference.trans (takeFault cause detail)

theorem checkMarkers (zBefore : Nat) : KeepsRanges p (p.checkMarkers h zBefore) := by
  unfold Chip.checkMarkers
  extract_lets u pass q
  have passed : KeepsRanges p q := updUnit_quiet _ (fun range => { range with
    missRun := (passMarkers_within ..).1 range.missRun
    missedMarkers := (passMarkers_within ..).2 range.missedMarkers }) ⟨rfl, rfl⟩
  split
  · split
    · exact passed.trans (takePositionFault _ _)
    · exact passed
  · exact refl p

theorem encoderEdge (levels : Channels) : KeepsRanges p (p.encoderEdge h levels) := by
  have sampled : KeepsRanges p (p.updUnit h fun u => u.sample levels) :=
    updUnit_quiet _ (fun range => range.sample levels) ((p.unit h).sample_kept levels)
  unfold Chip.encoderEdge
  simp only
  split
  · exact sampled.trans (takePositionFault _ _)
  · exact sampled

theorem takePulse : KeepsRanges p (p.takePulse h) := by
  unfold Chip.takePulse
  extract_lets q zc
  have marked : KeepsRanges p q := updUnit_quiet _ (fun range => { range with }) ⟨rfl, rfl⟩
  have cleared : KeepsRanges q (q.updUnit h fun u => { u with missRun := 0 }) :=
    updUnit_quiet _ (fun range => { range with missRun := Nat.zero_le 2 }) ⟨rfl, rfl⟩
  split
  · exact (marked.trans cleared).trans warnSlip
  · extract_lets dev
    split
    · rename_i outcome
      exact (marked.trans (correctOffset dev (Chip.pulseOutcome_corrects (.inl outcome)))).trans (meetMarker _)
    · rename_i outcome
      exact ((marked.trans (correctOffset dev (Chip.pulseOutcome_corrects (.inr outcome)))).trans warnSlip).trans
        (meetMarker _)
    · exact (marked.trans warnSlip).trans (meetMarker _)
    · exact marked.trans (takePositionFault _ _)

theorem pruneMarkers : KeepsRanges p (p.pruneMarkers h) := updUnit_quiet _ (fun range => { range with }) ⟨rfl, rfl⟩

/-! ### The parameters (spec/10 R187) -/

theorem setPlant (x : PlantParam) {v : Nat} {value : Int}
    (taken : x.treatment.apply (p.plantRange x) value = some v) : KeepsRanges p (p.setPlant x v) where
  params ranges := by
    have within := Treatment.apply_within taken (ranges.plantRange_proper x)
    have unit : ∀ h, (p.setPlant x v).unit h = p.unit h := fun h =>
      congrArg (Quad.get · h) (Chip.setPlant_unchangedBut .units (by decide))
    refine ⟨?_, fun h => ?_, fun h referenced => ?_⟩
    · rw [Chip.setPlant_params]
      exact ranges.plant.set x within
    · have hp : (p.setPlant x v).hp h = p.hp h :=
        congrArg (Quad.get · h) (Chip.setPlant_unchangedBut .hoistParams (by decide))
      rw [hp]
      exact ranges.hoist h
    · rw [unit] at referenced ⊢
      rw [Chip.setPlant_params]
      exact ranges.set_driftLimit x within.1 referenced
  units ranges h := by
    have unit : (p.setPlant x v).unit h = p.unit h :=
      congrArg (Quad.get · h) (Chip.setPlant_unchangedBut .units (by decide))
    rw [unit]
    exact ranges h

theorem setHoistParam (x : HoistParam) {v : Nat} {value : Int}
    (taken : x.treatment.apply ((p.hp h).range x) value = some v) : KeepsRanges p (p.setHoistParam h x v) where
  params ranges := by
    have plant : (p.setHoistParam h x v).params = p.params := Chip.setHoistParam_unchangedBut .params (by decide)
    refine ⟨plant ▸ ranges.plant, fun k => ?_, fun k => ?_⟩
    · rw [Chip.setHoistParam_hp]
      split
      · exact (ranges.hoist h).set x (Treatment.apply_within taken ((ranges.hoist h).range_proper x))
      · exact ranges.hoist k
    · rw [Chip.setHoistParam_unit, plant]
      split
      · exact fun referenced => absurd referenced (by simp)
      · exact ranges.drift k
  units ranges k := by
    rw [Chip.setHoistParam_unit]
    split
    · exact { ranges h with missRun := Nat.zero_le 2 }
    · exact ranges k

theorem setParam (identifier hoist : Nat) (value : Int) : KeepsRanges p (Machine.setParam identifier hoist value p).1 := by
  unfold Machine.setParam
  split
  · split
    · exact refl p
    · rename_i taken
      exact setPlant _ taken
  · split
    · split
      · exact refl p
      · rename_i taken
        split
        · exact refl p
        · exact setHoistParam _ taken
    · exact refl p

/-! ### The segment event and the timers (spec/05, spec/07, spec/08) -/

theorem closeSegment : KeepsRanges p (p.closeSegment h) := by
  unfold Chip.closeSegment
  simp only
  split
  · exact (updLink _).trans (takeFault _ _)
  · exact updLink _

theorem closeIfOpen : KeepsRanges p (p.closeIfOpen h) := by
  unfold Chip.closeIfOpen
  split
  · exact updLink _
  · exact closeSegment

theorem segment : KeepsRanges p (p.segment h) :=
  ((((((of_trips (.updHoist _)).trans closeIfOpen).trans (computePosition.trans (checkMarkers _))).trans
    (of_trips .overspeedCheck)).trans (of_trips .clearHeightCheck)).trans (of_trips (.phaseTest _))).trans
    (of_same rfl rfl rfl)

/-! ### Replies, samples and marks (spec/03, spec/08) -/

theorem takeReply (x : DriveReply) : KeepsRanges p (p.takeReply h x) := by
  unfold Chip.takeReply
  simp only
  split
  · exact refl p
  · split
    · exact updLink _
    · exact (updLink _).trans (of_trips .handOn)

theorem completeReply (byte : Byte) : KeepsRanges p (p.completeReply h byte) := by
  unfold Chip.completeReply
  split
  · exact (updLink _).trans (takeReply _)
  · exact (updLink _).trans (updLink _)

theorem takeReplyByte (byte : Byte) : KeepsRanges p (p.takeReplyByte h byte) := by
  unfold Chip.takeReplyByte
  split <;> exact of_same rfl rfl rfl

theorem sampleInstant (sample : GroupSample) : KeepsRanges p (p.sampleInstant sample) := by
  cases sample with
  | bay levels => exact of_frame (p.sampleBays_unchangedBut levels) (by decide)
  | latch levels => exact of_frame (p.sampleLatches_unchangedBut levels) (by decide)

/-! ### The Trip Selector and the Power Allocator (spec/06, spec/07) -/

theorem nextTry : KeepsRanges p p.nextTry := by
  unfold Chip.nextTry
  split
  · exact refl p
  · have next : ∀ serving, KeepsRanges p { p with selector := { p.selector with serving := serving } } :=
      fun _ => of_same rfl rfl rfl
    simp only
    split
    · exact (next _).trans (of_trips .tryFor)
    · exact next _

theorem setSetpoint (x : Int) : KeepsRanges p (p.setSetpoint x) := of_frame (p.setSetpoint_unchangedBut x) (by decide)

theorem reevaluate : KeepsRanges p (p.reevaluate h) := by
  unfold Chip.reevaluate
  simp only
  split <;> exact of_same rfl rfl rfl

theorem takeModeRequest : KeepsRanges p (p.takeModeRequest h) := by
  have left : ∀ requests, KeepsRanges p { p with power := { p.power with modeRequests := requests } } :=
    fun _ => of_same rfl rfl rfl
  unfold Chip.takeModeRequest
  split
  · exact refl p
  · exact (left _).trans (of_trips (.endOtherKind _))

/-! ### The Plant Link Port and RESTART (spec/10) -/

theorem takeFrame (f : Frame) : KeepsRanges p (p.takeFrame f) := by
  unfold Chip.takeFrame
  simp only
  split
  · exact (port _).trans (reply _)
  · exact port _

theorem completeFrame (byte : Byte) : KeepsRanges p (p.completeFrame byte) := by
  unfold Chip.completeFrame Chip.placeFrame
  simp only
  split
  · split
    · exact (port _).trans (takeFrame _)
    · exact port _
    · exact port _
  · exact port _

theorem settleGap : KeepsRanges p p.settleGap := by
  unfold Chip.settleGap
  split
  · exact port _
  · exact refl p

theorem receiveByte (byte : Byte) : KeepsRanges p (p.receiveByte byte) := by
  unfold Chip.receiveByte
  split
  · exact refl p
  · exact port _

theorem endReply : KeepsRanges p p.endReply := by
  unfold Chip.endReply
  simp only
  split
  · exact (port _).trans (takeFrame _)
  · exact port _

theorem answerRestart : KeepsRanges p p.answerRestart := by
  unfold Chip.answerRestart
  split
  · exact refl p
  · split
    · exact (port _).trans (reply _)
    · exact refl p

theorem restartTrips : KeepsRanges p (p.restartTrips h) := by
  unfold Chip.restartTrips
  simp only
  split
  · exact of_trips (.dropStaged _)
  · split
    · exact of_trips (((TripFrame.dropStaged _).trans (.abandon _)).trans (.updHoist _))
    · exact of_trips ((TripFrame.dropStaged _).trans .restartLoaded)

theorem restartHoist : KeepsRanges p (p.restartHoist h) :=
  (restartTrips.trans (of_trips (.updHoist _))).trans (port _)

/-! ### The commands -/

theorem surveyBay (number elevation access service : Nat) :
    KeepsRanges p (Machine.surveyBay number elevation access service p).1 := by
  have survey : ∀ b (set : BitVec 4) flag, KeepsRanges p (p.survey b elevation set flag) := fun b set flag => by
    unfold Chip.survey
    extract_lets before q q'
    refine trans ?_ (foldl _ (fun _ _ => pruneMarkers) _)
    unfold q'
    split
    · split <;> exact of_same rfl rfl rfl
    · exact of_same rfl rfl rfl
  unfold Machine.surveyBay
  split
  · iterate 3
      split
      · exact refl p
    exact survey _ _ _
  · exact refl p

theorem barBay (number : Nat) : KeepsRanges p (Machine.barBay number p).1 := by
  unfold Machine.barBay
  split
  · exact refl p
  · simp only
    split
    case h_2 | h_5 => split <;> exact of_same rfl rfl rfl
    all_goals exact of_same rfl rfl rfl

theorem unbarBay (number : Nat) : KeepsRanges p (Machine.unbarBay number p).1 := by
  have lifted : ∀ b, KeepsRanges p (p.liftBarring b) := fun b => by
    unfold Chip.liftBarring
    split <;> exact of_same rfl rfl rfl
  unfold Machine.unbarBay
  split
  · exact refl p
  · rename_i b _
    split
    · exact refl p
    · by_cases agrees : (p.bay b).sensor ≠ some (if (p.bay b).occupant.isSome then .occupied else .empty)
      · rw [if_pos agrees]
        exact refl p
      · rw [if_neg agrees]
        exact lifted _

theorem admitMass (number nominal bay : Nat) : KeepsRanges p (Machine.admitMass number nominal bay p).1 := by
  unfold Machine.admitMass
  split
  · iterate 4
      split
      · exact refl p
    exact of_same rfl rfl rfl
  · exact refl p

theorem amendMass (number nominal : Nat) : KeepsRanges p (Machine.amendMass number nominal p).1 := by
  unfold Machine.amendMass
  split
  · exact refl p
  · split
    · exact refl p
    · split
      case h_5 | h_6 => simp only; split <;> exact of_same rfl rfl rfl
      all_goals exact refl p

theorem retireMass (number : Nat) : KeepsRanges p (Machine.retireMass number p).1 := by
  unfold Machine.retireMass
  split
  · exact refl p
  · split
    case h_5 => exact of_frame (p.massAbsent_unchangedBut _) (by decide)
    case h_6 =>
      split
      · exact refl p
      · split
        · exact refl p
        · exact of_frame (p.updMass_notifyOrders_unchangedBut _ _) (by decide)
    all_goals exact refl p

theorem foundMass (number bay : Nat) : KeepsRanges p (Machine.foundMass number bay p).1 := by
  unfold Machine.foundMass
  split
  · iterate 5
      split
      · exact refl p
    exact of_same rfl rfl rfl
  · exact refl p

theorem orderMove (mass destination hoist : Nat) : KeepsRanges p (Machine.orderMove mass destination hoist p).1 := by
  unfold Machine.orderMove
  split
  · split
    · exact refl p
    · exact of_same rfl rfl rfl
  · exact refl p

theorem cancelOrder (mass : Nat) : KeepsRanges p (Machine.cancelOrder mass p).1 := by
  have staged : ∀ h, KeepsRanges p (p.cancelStaged h) := fun h => by
    unfold Chip.cancelStaged
    split
    · exact of_trips ((TripFrame.dropStaged (h := h) _).trans .request)
    · exact of_trips (TripFrame.dropStaged (h := h) _)
  unfold Machine.cancelOrder
  split
  · exact refl p
  · split
    · exact of_same rfl rfl rfl
    · exact staged _
    · split
      · exact refl p
      · exact of_trips (.abandon _)
    · exact refl p

theorem holdHoist (hoist mode : Nat) : KeepsRanges p (Machine.holdHoist hoist mode p).1 := by
  unfold Machine.holdHoist
  split
  · exact of_same rfl rfl rfl
  · exact refl p

theorem resume (hoist : Nat) : KeepsRanges p (Machine.resume hoist p).1 := by
  unfold Machine.resume
  split
  · exact refl p
  · split
    · exact refl p
    · exact of_trips .resumeHoist
  · iterate 2
      split
      · exact refl p
    exact foldl _ (fun _ _ => of_trips .resumeHoist) _

theorem abandonTrip (hoist : Nat) : KeepsRanges p (Machine.abandonTrip hoist p).1 := by
  unfold Machine.abandonTrip
  split
  · exact refl p
  · split
    · exact refl p
    · split
      · exact refl p
      · exact of_trips (.abandonTrip _)

theorem retarget (hoist bay : Nat) : KeepsRanges p (Machine.retarget hoist bay p).1 := by
  unfold Machine.retarget
  split
  · split
    · exact refl p
    · split
      · exact refl p
      · iterate 4
          split
          · exact refl p
        exact of_trips (.takeDestination _ _ _ _)
  · exact refl p

theorem referenceHoist (hoist bay : Nat) : KeepsRanges p (Machine.referenceHoist hoist bay p).1 := by
  unfold Machine.referenceHoist
  split
  · iterate 3
      split
      · exact refl p
    exact referenceAt _
  · exact refl p

theorem clearFault (hoist : Nat) : KeepsRanges p (Machine.clearFault hoist p).1 := by
  unfold Machine.clearFault
  split
  · exact refl p
  · split
    · exact refl p
    · exact of_trips .clearFault

theorem enableHoist (hoist setting : Nat) : KeepsRanges p (Machine.enableHoist hoist setting p).1 := by
  unfold Machine.enableHoist
  split
  · split
    · exact refl p
    · exact of_same rfl rfl rfl
  · exact refl p

/-! ### The ends of a meaning -/

section
variable {s t : State} {i : Instr}

theorem event {arises : Bool} {effect : Chip} (next : s.event arises effect = .next t)
    (keeps : KeepsRanges s.chip effect) : KeepsRanges s.chip t.chip := by
  obtain rfl | ⟨_, rfl⟩ := s.event_next t arises effect next
  · exact refl _
  · exact keeps.trans finish

theorem query {a : Answer} (next : s.query i a = .next t) : KeepsRanges s.chip t.chip := by
  obtain rfl | ⟨_, rfl⟩ := s.query_next t i a next
  · exact refl _
  · exact reply a

theorem command {taken : Chip × Answer} (next : s.command i taken = .next t)
    (keeps : KeepsRanges s.chip taken.1) : KeepsRanges s.chip t.chip := by
  obtain rfl | ⟨_, _, rfl⟩ | ⟨_, _, rfl⟩ := s.command_next t i taken next
  · exact refl _
  · exact reply _
  · exact (keeps.trans finish).trans (reply _)

theorem restartPart {due : RestartWork → Bool} {effect : Chip} (next : s.restartPart due effect = .next t)
    (keeps : KeepsRanges s.chip effect) : KeepsRanges s.chip t.chip := by
  unfold State.restartPart at next
  split at next
  · obtain rfl := Host.Outcome.next.inj next
    exact refl _
  · split at next <;> obtain rfl := Host.Outcome.next.inj next
    · exact (keeps.trans finish).trans answerRestart
    · exact refl _

end

/-- A part right after power-on reset has its parameters and its Position Units in their ranges (R63, section 11.5). -/
theorem powerOn (rate : LineRate) (first : Quad Channels) (n : Nat) :
    KeepsRanges p { Chip.powerOn rate first with draws := n } := by
  refine trans (q := Chip.powerOn rate first) ⟨fun _ => ⟨?_, fun h => ?_, fun h => ?_⟩, fun _ h => ?_⟩ (draws n)
  · show PlantParams.powerOn.InRange
    constructor <;> decide
  · rw [Chip.powerOn_hp]
    constructor <;> decide
  · rw [Chip.powerOn_unit]
    exact fun referenced => absurd referenced (by simp [PositionUnit.initial])
  · rw [Chip.powerOn_unit]
    constructor <;> simp [PositionUnit.initial]

theorem exec (i : Instr) (s t : State) (next : exec i s = .next t) : KeepsRanges s.chip t.chip := by
  cases i with
  | powerOnReset =>
    obtain rfl := Host.Outcome.next.inj next
    exact powerOn _ _ _
  | millisecondMark => exact event next (of_same rfl rfl rfl)
  | segmentEvent => exact event next segment
  | linkTimeout => exact event next (closeSegment.trans (updLink _))
  | hoistLinkReply => exact event next (completeReply _)
  | hoistLinkReplyByte => exact event next (takeReplyByte _)
  | replyPartialTimeout => exact event next (of_same rfl rfl rfl)
  | filterSampleInstant => exact event next (sampleInstant _)
  | interlockClosedAcceptance => exact event next (of_same rfl rfl rfl)
  | interlockHalt => exact event next (of_trips .interlockHalt)
  | interlockClosedTaken => exact event next (of_trips (.updHoist _))
  | markerPulse h =>
    change execMarkerPulse h s = .next t at next
    refine event next ?_
    split
    · exact refl _
    · exact takePulse
  | encoderEdge h levels =>
    change execEncoderEdge h levels s = .next t at next
    exact event next (encoderEdge levels)
  | phaseTimerExpiry => exact event next (of_trips .expirePhaseTimer)
  | dwellLimitExpiry => exact event next (of_trips .expireDwell)
  | servingStart => exact event next (of_same rfl rfl rfl)
  | tryHoist => exact event next nextTry
  | eligibilityReevaluation => exact event next reevaluate
  | endTripsOfAnotherKind => exact event next takeModeRequest
  | frameComplete => exact event next (completeFrame _)
  | frameGapTimeout => exact event next (port _)
  | characterError =>
    change execCharacterError s = .next t at next
    exact event next (settleGap.trans (port _))
  | plantLinkByte => exact event next (settleGap.trans (receiveByte _))
  | replyEnd => exact event next endReply
  | getMass | nextMass | getBay | nextBay | getHoist | getOrder | getEnergy | getParam | snapshot => exact query next
  | getPlant page =>
    change execGetPlant page s = .next t at next
    unfold execGetPlant at next
    split at next
    · exact query next
    · split at next <;> obtain rfl := Host.Outcome.next.inj next
      · exact (reply _).trans (port _)
      · exact refl _
  | admitMass => exact command next (admitMass _ _ _)
  | amendMass => exact command next (amendMass _ _)
  | retireMass => exact command next (retireMass _)
  | foundMass => exact command next (foundMass _ _)
  | surveyBay => exact command next (surveyBay _ _ _ _)
  | barBay => exact command next (barBay _)
  | unbarBay => exact command next (unbarBay _)
  | orderMove => exact command next (orderMove _ _ _)
  | cancelOrder => exact command next (cancelOrder _)
  | setPower => exact command next (setSetpoint _)
  | holdHoist => exact command next (holdHoist _ _)
  | resume => exact command next (resume _)
  | abandonTrip => exact command next (abandonTrip _)
  | retarget => exact command next (retarget _ _)
  | referenceHoist => exact command next (referenceHoist _ _)
  | clearFault => exact command next (clearFault _)
  | enableHoist => exact command next (enableHoist _ _)
  | setParam => exact command next (setParam _ _ _)
  | restart =>
    change execRestart s = .next t at next
    unfold execRestart at next
    split at next <;> obtain rfl := Host.Outcome.next.inj next
    · exact port _
    · exact refl _
  | restartOrderQueue => exact restartPart next (of_same rfl rfl rfl)
  | restartPowerAllocator => exact restartPart next ((setSetpoint 0).trans (port _))
  | restartHoist => exact restartPart next restartHoist

/-- Every step keeps the ranges: the queue is no part of them. -/
theorem step (s t : State) (next : step s = .next t) : KeepsRanges s.chip t.chip := by
  unfold Machine.step at next
  split at next
  · obtain rfl := Host.Outcome.next.inj next
    exact refl _
  · rename_i i rest _
    exact exec i (s.withPending rest) t next

end Chip.KeepsRanges

/-- Settles O9: a value is taken within its range as it stands, and a drift is moved only within DRIFT_LIMIT. -/
theorem stepKeepsParametersInRange : Obligations.StepKeepsParametersInRange :=
  fun s t ranges next => (Chip.KeepsRanges.step s t next).params ranges

/-- Settles O10: every operation of a Position Unit clamps, saturates or counts within the items' ranges. -/
theorem stepKeepsPositionUnitsInRange : Obligations.StepKeepsPositionUnitsInRange :=
  fun s t ranges next => (Chip.KeepsRanges.step s t next).units ranges

end Sys2Proof.Machine
end

section
/-! SUPPORT. Encoder edges and marker pulses (spec/04 R64 to R66, R77 to R81): the samples of an encoder, the marker a pulse is attributed to, what
the table of R78 makes of its deviation, and the end of an event that touches one Position Unit. -/

namespace Sys2Proof.Machine

/-! ### The samples of an encoder (R64 to R66) -/

/-- The transitions of R64, by the cycle (0,0), (1,0), (1,1), (0,1). -/
theorem transitionOf_cycle (before after : Channels) :
    (transitionOf before after = .forward ↔ (before, after) ∈ [((⟨false, false⟩, ⟨true, false⟩) : Channels × Channels),
      (⟨true, false⟩, ⟨true, true⟩), (⟨true, true⟩, ⟨false, true⟩), (⟨false, true⟩, ⟨false, false⟩)]) ∧
    (transitionOf before after = .backward ↔ transitionOf after before = .forward) := by
  obtain ⟨a, b⟩ := before
  obtain ⟨c, d⟩ := after
  revert a b c d
  decide

theorem transitionOf_self (c : Channels) : transitionOf c c = .same := by
  obtain ⟨a, b⟩ := c
  revert a b
  decide

/-- A transition in which both channels change is illegal. -/
theorem transitionOf_illegal {before after : Channels} (changeA : after.a ≠ before.a)
    (changeB : after.b ≠ before.b) :
    transitionOf before after = .illegal := by
  obtain ⟨a, b⟩ := before
  obtain ⟨c, d⟩ := after
  revert a b c d
  decide

section
variable (u : PositionUnit)

theorem PositionUnit.stepCount_inside {d : Int} (inside : -2147483648 ≤ u.count + d ∧ u.count + d ≤ 2147483647) :
    u.stepCount d = { u with count := u.count + d } := if_pos inside

/-- At the end of its range the count stays, and the error is counted (R66). -/
theorem PositionUnit.stepCount_outside {d : Int} (outside : ¬(-2147483648 ≤ u.count + d ∧ u.count + d ≤ 2147483647)) :
    u.stepCount d = { u with encoderErrors := satInc16 u.encoderErrors } := if_neg outside

variable {u} {levels : Channels}

theorem PositionUnit.sample_self : u.sample u.channels = u := by
  rw [PositionUnit.sample, transitionOf_self]

theorem PositionUnit.sample_forward (forward : transitionOf u.channels levels = .forward) :
    u.sample levels = { u.stepCount 1 with channels := levels } := by
  rw [PositionUnit.sample, forward]

theorem PositionUnit.sample_backward (backward : transitionOf u.channels levels = .backward) :
    u.sample levels = { u.stepCount (-1) with channels := levels } := by
  rw [PositionUnit.sample, backward]

theorem PositionUnit.sample_illegal (illegal : transitionOf u.channels levels = .illegal) :
    u.sample levels = { u with
      channels := levels, encoderErrors := satInc16 u.encoderErrors, illegal := satInc 2 u.illegal } := by
  rw [PositionUnit.sample, illegal]

theorem PositionUnit.sample_channels : (u.sample levels).channels = levels := rfl

/-- Only an illegal transition faults (R65). -/
theorem PositionUnit.encoderFaults_of_legal (legal : transitionOf u.channels levels ≠ .illegal) :
    u.encoderFaults levels = false := by
  simp [PositionUnit.encoderFaults, legal]

end

/-! ### The marker of a pulse (R77) -/

theorem mem_of_nearest {z x : Nat} {l : List Nat} (found : nearest z l = some x) : x ∈ l := by
  induction l generalizing x with
  | nil => exact absurd found (by simp [nearest])
  | cons e es ih =>
    rw [nearest] at found
    cases later : nearest z es with
    | none =>
      rw [later] at found
      obtain rfl := Option.some.inj found
      exact List.mem_cons_self
    | some y =>
      simp only [later] at found
      split at found <;> obtain rfl := Option.some.inj found
      · exact List.mem_cons_of_mem _ (ih later)
      · exact List.mem_cons_self

/-- Of a rising list, the nearest to `z` is the one than which none is nearer, and of those as near the lowest. -/
theorem nearest_of_closest {z zb : Nat} {l : List Nat} (rising : l.Pairwise (· < ·)) (mem : zb ∈ l)
    (closest : ∀ e ∈ l, e ≠ zb → apart zb z < apart e z ∨ apart zb z = apart e z ∧ zb < e) : nearest z l = some zb := by
  induction l with
  | nil => exact absurd mem (by simp)
  | cons e es ih =>
    obtain ⟨head, tail⟩ := List.pairwise_cons.mp rising
    rw [nearest]
    obtain rfl | later := List.mem_cons.mp mem
    · cases found : nearest z es with
      | none => rfl
      | some x =>
        have inTail := mem_of_nearest found
        have notNearer : ¬apart x z < apart zb z := by
          rcases closest x (List.mem_cons_of_mem _ inTail) (head x inTail).ne' with nearer | ⟨as_near, _⟩ <;> omega
        exact if_neg notNearer
    · have below := head zb later
      have nearer : apart zb z < apart e z := by
        rcases closest e List.mem_cons_self below.ne with nearer | ⟨_, above⟩ <;> omega
      rw [ih tail later fun x inTail => closest x (List.mem_cons_of_mem _ inTail)]
      exact if_pos nearer

/-! ### The table of a pulse's deviation (R78) -/

section
variable {p : Chip} {h : HoistId} {dev : Int}

theorem Chip.moving_iff :
    p.moving h = true ↔ (∃ m, (p.link h).sent = some m ∧ m.speed ≠ 0) ∨ (p.unit h).speed ≠ 0 := by
  unfold Chip.moving
  cases (p.link h).sent <;> simp

theorem Chip.pulseOutcome_of_corrects (within : dev.natAbs ≤ p.params.slipLimit)
    (passes : ((p.unit h).drift + dev).natAbs ≤ p.params.driftLimit) :
    p.pulseOutcome h dev = if dev.natAbs ≤ p.params.syncWindow then .correction else .warnedCorrection := by
  simp [Chip.pulseOutcome, within, passes]

theorem Chip.pulseOutcome_of_rests (window : p.params.syncWindow ≤ p.params.slipLimit)
    (beyond : p.params.slipLimit < dev.natAbs) (rests : p.moving h = false) : p.pulseOutcome h dev = .warning := by
  have outside : ¬dev.natAbs ≤ p.params.syncWindow := by omega
  simp [Chip.pulseOutcome, outside, Nat.not_le.mpr beyond, rests]

theorem Chip.pulseOutcome_of_faults (window : p.params.syncWindow ≤ p.params.slipLimit)
    (faults : dev.natAbs ≤ p.params.slipLimit ∧ p.params.driftLimit < ((p.unit h).drift + dev).natAbs ∨
      p.params.slipLimit < dev.natAbs ∧ p.moving h = true) : p.pulseOutcome h dev = .fault := by
  rcases faults with ⟨within, drifts⟩ | ⟨beyond, moves⟩
  · simp [Chip.pulseOutcome, within, Nat.not_le.mpr drifts]
  · have outside : ¬dev.natAbs ≤ p.params.syncWindow := by omega
    simp [Chip.pulseOutcome, outside, Nat.not_le.mpr beyond, moves]

end

/-! ### One Position Unit changed -/

/-- `q` differs from `p` in hoist `h`'s Position Unit only, and not in whether that is referenced. -/
structure Chip.UnitMoved (h : HoistId) (p q : Chip) : Prop where
  parts : p.unchangedBut q [.units]
  others : p.otherUnitsSame q h
  referenced : (q.unit h).referenced = (p.unit h).referenced

section
variable {p q r : Chip} {h : HoistId}

theorem Chip.UnitMoved.trans (first : Chip.UnitMoved h p q) (second : Chip.UnitMoved h q r) : Chip.UnitMoved h p r where
  parts := Chip.unchangedBut_trans first.parts second.parts
  others k ne := (second.others k ne).trans (first.others k ne)
  referenced := second.referenced.trans first.referenced

theorem Chip.UnitMoved.updUnit (f : PositionUnit → PositionUnit)
    (referenced : (f (p.unit h)).referenced = (p.unit h).referenced) : Chip.UnitMoved h p (p.updUnit h f) where
  parts := p.updUnit_unchangedBut h f
  others k ne := p.updUnit_unit_of_ne h k f ne
  referenced := by rw [Chip.updUnit_unit_self, referenced]

theorem Chip.UnitMoved.draws (n : Nat) : Chip.UnitMoved h p { p with draws := n } where
  parts x out := by cases x <;> simp at out <;> rfl
  others _ _ := rfl
  referenced := rfl

/-- Able, the brake and the conditions read nothing of a Position Unit but whether it is referenced, so that the event's end changes nothing
more. -/
theorem Chip.UnitMoved.finish (moved : Chip.UnitMoved h p q) (kept : p.Kept) : p.finish q = q := by
  have hoists : q.hoists = p.hoists := moved.parts .hoists (by decide)
  have links : q.links = p.links := moved.parts .links (by decide)
  have hoist : ∀ k, q.hoist k = p.hoist k := fun k => congrArg (Quad.get · k) hoists
  have link : ∀ k, q.link k = p.link k := fun k => congrArg (Quad.get · k) links
  have referenced : ∀ k, (q.unit k).referenced = (p.unit k).referenced := fun k => by
    by_cases same : k = h
    · rw [same, moved.referenced]
    · rw [moved.others k same]
  have conditions : q.conditions = p.conditions :=
    Chip.conditions_congr (moved.parts .masses (by decide)) (moved.parts .bays (by decide))
      (congrArg PowerAllocator.unserved (moved.parts .power (by decide)))
      (congrArg PlantParams.unservedThresh (moved.parts .params (by decide))) (fun k => by rw [hoist])
      fun k => by rw [link]
  have port : q.port = p.port := moved.parts .port (by decide)
  rw [Chip.finish_quiet kept hoists links referenced (Chip.interlock_of_sensors (moved.parts .sensors (by decide))),
    conditions, port, kept.attention, Attention.rises_self, Bool.or_false, ← kept.attention, ← port]

/-- The parts that a change of one Position Unit or a POSITION or ENCODER fault may touch. -/
structure Chip.PositionEvent (h : HoistId) (p t : Chip) : Prop where
  parts : p.unchangedBut t [.masses, .bays, .units, .hoists, .selector, .orders, .power, .port]
  units : p.otherUnitsSame t h
  hoists : p.otherHoistsSame t h

theorem Chip.UnitMoved.event (moved : Chip.UnitMoved h p q) : Chip.PositionEvent h p q where
  parts := Chip.unchangedBut_mono moved.parts (by simp)
  units := moved.others
  hoists k _ := congrArg (Quad.get · k) (moved.parts .hoists (by decide))

variable (cause : FaultCause) (detail : Option Nat)

/-- A POSITION or ENCODER fault, with the end of its event, touches no other unit and no other controller. -/
theorem Chip.UnitMoved.fault (moved : Chip.UnitMoved h p q) (kept : p.Kept) :
    Chip.PositionEvent h p (p.finish (q.takePositionFault h cause detail)) := by
  have frame : Chip.TripFrame h (q.unreference h) (q.takePositionFault h cause detail) := .takeFault cause detail
  have parts : p.unchangedBut (q.takePositionFault h cause detail) [.masses, .bays, .units, .hoists, .selector, .orders] :=
    Chip.unchangedBut_trans (Chip.unchangedBut_mono moved.parts (by simp))
      (Chip.unchangedBut_trans (Chip.unchangedBut_mono (q.updUnit_unchangedBut h _) (by simp))
        (Chip.unchangedBut_mono frame.unchangedBut (by simp)))
  have units : p.otherUnitsSame (q.takePositionFault h cause detail) h := fun k ne =>
    (congrArg (Quad.get · k) frame.units).trans ((q.updUnit_unit_of_ne h k _ ne).trans (moved.others k ne))
  refine ⟨Chip.unchangedBut_trans (Chip.unchangedBut_mono parts (by simp))
    (Chip.unchangedBut_mono (Chip.finish_unchangedBut _ _) (by simp)), fun k ne => ?_, ?_⟩
  · rw [Chip.finish_unit, units k ne]
  · refine kept.finish_otherHoistsSame (fun k ne => ?_) (fun k _ => ?_) units
      (Chip.interlock_of_sensors (parts .sensors (by decide)))
    · exact (frame.others k ne).trans (congrArg (Quad.get · k) (moved.parts .hoists (by decide)))
    · exact congrArg (Quad.get · k) (parts .links (by decide))

/-- The fault record after a fault: fault entry (R165), or one cause more (R166). -/
theorem HoistCtl.faultTaken_record (c : HoistCtl) :
    (c.faultTaken cause detail).phase = .faulted ∧
    (c.phase ≠ .faulted → (c.faultTaken cause detail).fault.first = some cause ∧
      (c.faultTaken cause detail).fault.detail = detail) ∧
    (c.phase = .faulted → (c.faultTaken cause detail).fault = { c.fault with
      further := some (addCause (c.fault.further.getD 0) cause) }) := by
  refine ⟨c.faultTaken_phase cause detail, fun notFaulted => ?_, fun faulted => ?_⟩
  · rw [(c.faultTaken_entry cause detail notFaulted).2]
    exact ⟨rfl, rfl⟩
  · rw [HoistCtl.faultTaken, if_pos faulted]

/-- The record of a POSITION or ENCODER fault through the end of its event. -/
theorem Chip.UnitMoved.fault_record (moved : Chip.UnitMoved h p q) :
    ((p.finish (q.takePositionFault h cause detail)).hoist h).phase = .faulted ∧
    ((p.hoist h).phase ≠ .faulted →
      ((p.finish (q.takePositionFault h cause detail)).hoist h).fault.first = some cause ∧
      ((p.finish (q.takePositionFault h cause detail)).hoist h).fault.detail = detail) ∧
    ((p.hoist h).phase = .faulted → ((p.finish (q.takePositionFault h cause detail)).hoist h).fault = { (p.hoist h).fault with
      further := some (addCause ((p.hoist h).fault.further.getD 0) cause) }) := by
  have hoist : q.hoist h = p.hoist h := congrArg (Quad.get · h) (moved.parts .hoists (by decide))
  rw [Chip.finish_hoist_eq, q.takePositionFault_hoist h cause detail, hoist]
  exact (p.hoist h).faultTaken_record cause detail

end

end Sys2Proof.Machine
end

section
/-! SUPPORT. ENCODER_EDGE and MARKER_PULSE as O59 states them (spec/04 R64 to R66, R73, R77 to R81): the part after each, outcome by outcome. -/

namespace Sys2Proof.Machine

section
variable {p : Chip} {h : HoistId} {levels : Channels}

/-! ### ENCODER_EDGE (R64 to R66) -/

theorem Chip.UnitMoved.sampled : Chip.UnitMoved h p (p.updUnit h fun u => u.sample levels) :=
  .updUnit _ ((p.unit h).sample_kept levels).1

/-- A sample that does not fault changes the unit alone. -/
theorem Chip.Kept.finish_edge_of_quiet (kept : p.Kept) (quiet : (p.unit h).encoderFaults levels = false) :
    p.finish (p.encoderEdge h levels) = p.updUnit h fun u => u.sample levels := by
  have edge : p.encoderEdge h levels = p.updUnit h fun u => u.sample levels := by simp [Chip.encoderEdge, quiet]
  rw [edge]
  exact Chip.UnitMoved.sampled.finish kept

theorem Chip.encoderEdge_of_faults (faults : (p.unit h).encoderFaults levels = true) :
    p.encoderEdge h levels = (p.updUnit h fun u => u.sample levels).takePositionFault h .encoder none := by
  simp [Chip.encoderEdge, faults]

theorem Chip.Kept.edge_event (kept : p.Kept) : Chip.PositionEvent h p (p.finish (p.encoderEdge h levels)) := by
  cases faults : (p.unit h).encoderFaults levels with
  | false =>
    rw [kept.finish_edge_of_quiet faults]
    exact Chip.UnitMoved.sampled.event
  | true =>
    rw [Chip.encoderEdge_of_faults faults]
    exact Chip.UnitMoved.sampled.fault _ _ kept

/-- A quiet edge, with the sample it makes of the unit. -/
theorem Chip.Kept.edge_quiet (kept : p.Kept) (quiet : (p.unit h).encoderFaults levels = false) {u : PositionUnit}
    (sample : (p.unit h).sample levels = u) : p.unchangedBut (p.finish (p.encoderEdge h levels)) [.units] ∧
      (p.finish (p.encoderEdge h levels)).unit h = u := by
  rw [kept.finish_edge_of_quiet quiet, Chip.updUnit_unit_self, sample]
  exact ⟨p.updUnit_unchangedBut h _, rfl⟩

/-- A sample of the levels held changes nothing. -/
theorem Chip.Kept.finish_edge_same (kept : p.Kept) : p.finish (p.encoderEdge h (p.unit h).channels) = p := by
  have quiet : (p.unit h).encoderFaults (p.unit h).channels = false :=
    PositionUnit.encoderFaults_of_legal (by simp [transitionOf_self])
  have units : p.units.set h ((p.unit h).sample (p.unit h).channels) = p.units := Quad.ext_get _ _ fun k => by
    rw [PositionUnit.sample_self, Quad.get_set]
    split
    · rename_i same
      rw [same]
      rfl
    · rfl
  rw [kept.finish_edge_of_quiet quiet]
  unfold Chip.updUnit
  rw [units]

theorem Chip.edge_channels : ((p.finish (p.encoderEdge h levels)).unit h).channels = levels := by
  rw [Chip.finish_unit]
  cases faults : (p.unit h).encoderFaults levels with
  | false => simp [Chip.encoderEdge, faults, PositionUnit.sample_channels]
  | true => rw [Chip.encoderEdge_of_faults faults, Chip.takePositionFault_unit, Chip.updUnit_unit_self]; rfl

/-- The second illegal transition of a segment, and every later one, is an ENCODER fault that ends the reference (R65, R81). -/
theorem Chip.edge_faults_unit (illegal : transitionOf (p.unit h).channels levels = .illegal) (second : 1 ≤ (p.unit h).illegal) :
    p.encoderEdge h levels = (p.updUnit h fun u => u.sample levels).takePositionFault h .encoder none ∧
    (p.finish (p.encoderEdge h levels)).unit h = { p.unit h with
      channels := levels, encoderErrors := satInc16 (p.unit h).encoderErrors
      illegal := satInc 2 (p.unit h).illegal, referenced := false, markers := [], missRun := 0 } := by
  have faults : (p.unit h).encoderFaults levels = true := by simp [PositionUnit.encoderFaults, illegal, second]
  refine ⟨Chip.encoderEdge_of_faults faults, ?_⟩
  rw [Chip.finish_unit, Chip.encoderEdge_of_faults faults, Chip.takePositionFault_unit, Chip.updUnit_unit_self,
    PositionUnit.sample_illegal illegal]

/-! ### MARKER_PULSE ignored, or taken (R77) -/

theorem Chip.pulseIgnored_iff : p.pulseIgnored h = true ↔
    (p.unit h).referenced = false ∨ ∃ n, (p.unit h).lastPulse = some n ∧ p.sensors.mark < n + 200 := by
  unfold Chip.pulseIgnored
  cases last : (p.unit h).lastPulse <;> simp [last]

/-- A pulse ignored changes nothing. -/
theorem markerPulse_of_ignored {s : State} (kept : s.chip.Kept) (ignored : s.chip.pulseIgnored h = true) :
    exec (.markerPulse h) s = .next s := by
  show s.event true (if s.chip.pulseIgnored h then s.chip else s.chip.takePulse h) = _
  rw [if_pos ignored, s.event_of _ _ rfl, Chip.finish_self kept]

theorem markerPulse_of_taken {s : State} (referenced : (s.chip.unit h).referenced = true)
    (spaced : ∀ n, (s.chip.unit h).lastPulse = some n → n + 200 ≤ s.chip.sensors.mark) :
    exec (.markerPulse h) s = .next { s with chip := s.chip.finish (s.chip.takePulse h) } := by
  have taken : ¬s.chip.pulseIgnored h = true := by
    rw [Chip.pulseIgnored_iff]
    rintro (unreferenced | ⟨n, last, soon⟩)
    · exact absurd referenced (by simp [unreferenced])
    · exact absurd (spaced n last) (by omega)
  show s.event true (if s.chip.pulseIgnored h then s.chip else s.chip.takePulse h) = _
  rw [if_neg taken, s.event_of _ _ rfl]

/-- The part with the mark of the pulse, before the pulse is judged. -/
def Chip.pulseMarked (p : Chip) (h : HoistId) : Chip := p.updUnit h fun u => { u with lastPulse := some p.sensors.mark }

theorem Chip.pulseMarked_unit :
    (p.pulseMarked h).unit h = { p.unit h with lastPulse := some p.sensors.mark } := p.updUnit_unit_self h _

theorem Chip.pulseMarked_elevationAt (count : Int) : (p.pulseMarked h).elevationAt h count = p.elevationAt h count := by
  unfold Chip.elevationAt Chip.exactElevation
  rw [Chip.pulseMarked_unit]
  rfl

theorem Chip.pulseMarked_expectedMarkers : (p.pulseMarked h).expectedMarkers h = p.expectedMarkers h :=
  Chip.expectedMarkers_congr rfl h

theorem Chip.pulseMarked_outcome (dev : Int) : (p.pulseMarked h).pulseOutcome h dev = p.pulseOutcome h dev := by
  unfold Chip.pulseOutcome Chip.moving
  rw [Chip.pulseMarked_unit]
  rfl

theorem Chip.UnitMoved.pulseMarked : Chip.UnitMoved h p (p.pulseMarked h) := .updUnit _ rfl

/-- A pulse where no marker is expected: the run of misses is cleared and a slip warned of. -/
theorem Chip.takePulse_of_unexpected (unexpected : p.expectedMarkers h = []) :
    p.takePulse h = ((p.pulseMarked h).updUnit h fun u => { u with missRun := 0 }).warnSlip h := by
  have none_near : nearest ((p.pulseMarked h).elevationAt h ((p.pulseMarked h).unit h).count)
      ((p.pulseMarked h).expectedMarkers h) = none := by
    rw [Chip.pulseMarked_expectedMarkers, unexpected]
    rfl
  unfold Chip.takePulse
  extract_lets q zc
  have none_found : nearest zc (q.expectedMarkers h) = none := none_near
  simp only [none_found]
  rfl

theorem Chip.Kept.finish_pulse_unexpected (kept : p.Kept) (unexpected : p.expectedMarkers h = []) :
    Chip.UnitMoved h p (p.finish (p.takePulse h)) ∧ (p.finish (p.takePulse h)).unit h = { p.unit h with
      lastPulse := some p.sensors.mark, missRun := 0, slipWarnings := satInc16 (p.unit h).slipWarnings } := by
  have moved : Chip.UnitMoved h p (p.takePulse h) := by
    rw [Chip.takePulse_of_unexpected unexpected]
    exact (Chip.UnitMoved.pulseMarked.trans (.updUnit _ rfl)).trans (.updUnit _ rfl)
  rw [moved.finish kept]
  refine ⟨moved, ?_⟩
  rw [Chip.takePulse_of_unexpected unexpected, Chip.warnSlip, Chip.updUnit_unit_self, Chip.updUnit_unit_self,
    Chip.pulseMarked_unit]

end

/-! ### MARKER_PULSE attributed to a marker (R77 to R79) -/

section
variable {p : Chip} {h : HoistId} {zb : Nat} {dev : Int}

/-- The pulse is attributed to the expected marker at `zb`, from which it deviates by `dev` (R77). -/
structure Chip.PulseAt (p : Chip) (h : HoistId) (zb : Nat) (dev : Int) : Prop where
  expected : zb ∈ p.expectedMarkers h
  deviation : dev = zb - p.elevationAt h (p.unit h).count
  nearest : nearest (p.elevationAt h (p.unit h).count) (p.expectedMarkers h) = some zb

theorem Chip.PulseAt.of_closest (expected : zb ∈ p.expectedMarkers h)
    (deviation : dev = zb - p.elevationAt h (p.unit h).count)
    (closest : ∀ e ∈ p.expectedMarkers h, e ≠ zb → dev.natAbs < apart e (p.elevationAt h (p.unit h).count) ∨
      dev.natAbs = apart e (p.elevationAt h (p.unit h).count) ∧ zb < e) : p.PulseAt h zb dev :=
  ⟨expected, deviation, nearest_of_closest (p.expectedMarkers_pairwise h) expected (by subst deviation; exact closest)⟩

/-- What a pulse judged comes to (R78). -/
def Chip.pulseDone (q : Chip) (h : HoistId) (zb : Nat) (dev : Int) (outcome : PulseOutcome) : Chip :=
  match outcome with
  | .correction => (q.correctOffset h dev).meetMarker h zb
  | .warnedCorrection => ((q.correctOffset h dev).warnSlip h).meetMarker h zb
  | .warning => (q.warnSlip h).meetMarker h zb
  | .fault => q.takePositionFault h .position ((q.markerBay h zb).map fun b => b.val)

/-- The marker states with the one at `zb` MET. -/
def Chip.metMarkers (p : Chip) (h : HoistId) (zb : Nat) : List (Nat × MarkerState) :=
  markerList (fun e => if e = zb then .met else markerState (p.unit h).markers e) (p.expectedMarkers h)

theorem Chip.metMarkers_congr {q : Chip} (markers : (q.unit h).markers = (p.unit h).markers) (bays : q.bays = p.bays) :
    q.metMarkers h zb = p.metMarkers h zb := by
  unfold Chip.metMarkers
  rw [markers, Chip.expectedMarkers_congr bays]

theorem Chip.correctOffset_unit (q : Chip) : (q.correctOffset h dev).unit h =
    { q.unit h with offset := q.offsetOf ((q.unit h).offset + dev), drift := (q.unit h).drift + dev } :=
  Quad.get_set_self q.units h _

theorem Chip.warnSlip_unit (q : Chip) :
    (q.warnSlip h).unit h = { q.unit h with slipWarnings := satInc16 (q.unit h).slipWarnings } := q.updUnit_unit_self h _

theorem Chip.meetMarker_unit (q : Chip) :
    (q.meetMarker h zb).unit h = { q.unit h with missRun := 0, markers := q.metMarkers h zb } := q.updUnit_unit_self h _

variable (pulse : p.PulseAt h zb dev)
include pulse

theorem Chip.PulseAt.marked : Machine.nearest ((p.pulseMarked h).elevationAt h ((p.pulseMarked h).unit h).count)
    ((p.pulseMarked h).expectedMarkers h) = some zb ∧
    (zb : Int) - (p.pulseMarked h).elevationAt h ((p.pulseMarked h).unit h).count = dev := by
  rw [Chip.pulseMarked_expectedMarkers, Chip.pulseMarked_elevationAt, Chip.pulseMarked_unit]
  exact ⟨pulse.nearest, pulse.deviation.symm⟩

theorem Chip.PulseAt.takePulse_eq : p.takePulse h = (p.pulseMarked h).pulseDone h zb dev (p.pulseOutcome h dev) := by
  unfold Chip.takePulse
  extract_lets q zc
  have found : Machine.nearest zc (q.expectedMarkers h) = some zb := pulse.marked.1
  have deviation : (zb : Int) - zc = dev := pulse.marked.2
  have outcome : q.pulseOutcome h dev = p.pulseOutcome h dev := Chip.pulseMarked_outcome dev
  simp only [found, deviation, outcome]
  cases p.pulseOutcome h dev <;> rfl

/-- A pulse that is no fault moves the unit alone, whose marker is MET. -/
theorem Chip.PulseAt.moved (noFault : p.pulseOutcome h dev ≠ .fault) : Chip.UnitMoved h p (p.takePulse h) := by
  have warned : ∀ q : Chip, Chip.UnitMoved h q (q.warnSlip h) := fun q => .updUnit _ rfl
  have met : ∀ q : Chip, Chip.UnitMoved h q (q.meetMarker h zb) := fun q => .updUnit _ rfl
  have corrected : ∀ q : Chip, Chip.UnitMoved h q (q.correctOffset h dev) := fun q =>
    (Chip.UnitMoved.updUnit _ rfl).trans (.draws _)
  rw [pulse.takePulse_eq]
  refine Chip.UnitMoved.pulseMarked.trans ?_
  cases outcome : p.pulseOutcome h dev with
  | correction => exact (corrected _).trans (met _)
  | warnedCorrection => exact ((corrected _).trans (warned _)).trans (met _)
  | warning => exact (warned _).trans (met _)
  | fault => exact absurd outcome noFault

/-- The unit after a correction within SLIP_LIMIT that keeps the drift within DRIFT_LIMIT (R78, R79). -/
theorem Chip.PulseAt.corrected_unit (within : dev.natAbs ≤ p.params.slipLimit)
    (passes : ((p.unit h).drift + dev).natAbs ≤ p.params.driftLimit) : (p.takePulse h).unit h = { p.unit h with
      lastPulse := some p.sensors.mark, missRun := 0, drift := (p.unit h).drift + dev
      slipWarnings := if dev.natAbs ≤ p.params.syncWindow then (p.unit h).slipWarnings else satInc16 (p.unit h).slipWarnings
      offset := p.offsetOf ((p.unit h).offset + dev), markers := p.metMarkers h zb } := by
  have window : (p.pulseMarked h).offsetOf = p.offsetOf := rfl
  rw [pulse.takePulse_eq, Chip.pulseOutcome_of_corrects within passes]
  split
  · have markers : ((p.pulseMarked h).correctOffset h dev).metMarkers h zb = p.metMarkers h zb :=
      Chip.metMarkers_congr (by rw [Chip.correctOffset_unit, Chip.pulseMarked_unit]) rfl
    show (Chip.meetMarker _ h zb).unit h = _
    rw [Chip.meetMarker_unit, markers, Chip.correctOffset_unit, Chip.pulseMarked_unit, window]
  · have markers : (((p.pulseMarked h).correctOffset h dev).warnSlip h).metMarkers h zb = p.metMarkers h zb :=
      Chip.metMarkers_congr (by rw [Chip.warnSlip_unit, Chip.correctOffset_unit, Chip.pulseMarked_unit]) rfl
    show (Chip.meetMarker _ h zb).unit h = _
    rw [Chip.meetMarker_unit, markers, Chip.warnSlip_unit, Chip.correctOffset_unit, Chip.pulseMarked_unit, window]

/-- The unit after a deviation beyond SLIP_LIMIT at a hoist that rests (R78). -/
theorem Chip.PulseAt.warned_unit (warning : p.pulseOutcome h dev = .warning) : (p.takePulse h).unit h = { p.unit h with
    lastPulse := some p.sensors.mark, missRun := 0, slipWarnings := satInc16 (p.unit h).slipWarnings
    markers := p.metMarkers h zb } := by
  have markers : ((p.pulseMarked h).warnSlip h).metMarkers h zb = p.metMarkers h zb :=
    Chip.metMarkers_congr (by rw [Chip.warnSlip_unit, Chip.pulseMarked_unit]) rfl
  rw [pulse.takePulse_eq, warning]
  show (Chip.meetMarker _ h zb).unit h = _
  rw [Chip.meetMarker_unit, markers, Chip.warnSlip_unit, Chip.pulseMarked_unit]

/-- The marker is MET where the unit holds the markers so, and the other expected markers keep their states. -/
theorem Chip.PulseAt.markerMet {t : Chip} (markers : (t.unit h).markers = p.metMarkers h zb) : p.markerMet t h zb := by
  intro e
  rw [markers, Chip.metMarkers, markerState_markerList]
  by_cases same : e = zb
  · simp [same, pulse.expected]
  · simp [same]

/-- A pulse that faults is taken from the part with its mark. -/
theorem Chip.PulseAt.takePulse_of_fault (fault : p.pulseOutcome h dev = .fault) : p.takePulse h =
    (p.pulseMarked h).takePositionFault h .position ((p.markerBay h zb).map fun b => b.val) := by
  rw [pulse.takePulse_eq, fault]
  rfl

theorem Chip.PulseAt.event (kept : p.Kept) : Chip.PositionEvent h p (p.finish (p.takePulse h)) := by
  by_cases fault : p.pulseOutcome h dev = .fault
  · rw [pulse.takePulse_of_fault fault]
    exact Chip.UnitMoved.pulseMarked.fault _ _ kept
  · rw [(pulse.moved fault).finish kept]
    exact (pulse.moved fault).event

theorem Chip.PulseAt.fault_unit (fault : p.pulseOutcome h dev = .fault) :
    (p.finish (p.takePulse h)).unit h = { p.unit h with
      lastPulse := some p.sensors.mark, missRun := 0, referenced := false, markers := [] } := by
  rw [Chip.finish_unit, pulse.takePulse_of_fault fault, Chip.takePositionFault_unit, Chip.pulseMarked_unit]

end

/-! ### The obligation -/

/-- Settles O59: the edge by its transition, the pulse by whether it is ignored, finds no marker, or comes to one of the outcomes of R78. -/
theorem encoderAndMarkerEventsComplete : Obligations.EncoderAndMarkerEventsComplete := by
  intro s h levels kept
  refine ⟨transitionOf_cycle, Chip.moving_iff, ?edge, fun unreferenced => ?unreferenced, fun n last soon => ?soon,
    fun referenced spaced unexpected => ?unexpected, fun zb dev referenced spaced expected deviation closest => ?attributed⟩
  case edge =>
    have event := kept.edge_event (h := h) (levels := levels)
    refine ⟨_, s.event_of _ _ rfl, rfl, event.parts, event.units, event.hoists, Chip.edge_channels, fun same => ?_,
      fun forward low high => ?_, fun backward low high => ?_, fun ends => ?_, fun changeA changeB =>
      ⟨fun first => ?_, fun second => ?_⟩⟩
    · rw [same, kept.finish_edge_same]
      exact ⟨s.chip.unchangedBut_refl _, rfl⟩
    · refine kept.edge_quiet (PositionUnit.encoderFaults_of_legal (by simp [forward])) ?_
      rw [PositionUnit.sample_forward forward, PositionUnit.stepCount_inside _ ⟨by omega, by omega⟩]
    · refine kept.edge_quiet (PositionUnit.encoderFaults_of_legal (by simp [backward])) ?_
      rw [PositionUnit.sample_backward backward, PositionUnit.stepCount_inside _ ⟨by omega, by omega⟩]
      rfl
    · rcases ends with ⟨forward, top⟩ | ⟨backward, bottom⟩
      · refine kept.edge_quiet (PositionUnit.encoderFaults_of_legal (by simp [forward])) ?_
        rw [PositionUnit.sample_forward forward, PositionUnit.stepCount_outside _ (by omega)]
      · refine kept.edge_quiet (PositionUnit.encoderFaults_of_legal (by simp [backward])) ?_
        rw [PositionUnit.sample_backward backward, PositionUnit.stepCount_outside _ (by omega)]
    · have illegal := transitionOf_illegal changeA changeB
      refine kept.edge_quiet (by simp [PositionUnit.encoderFaults, first]) ?_
      rw [PositionUnit.sample_illegal illegal, first]
      rfl
    · obtain ⟨faults, unit⟩ := Chip.edge_faults_unit (transitionOf_illegal changeA changeB) second
      refine ⟨unit, ?_⟩
      rw [faults]
      obtain ⟨faulted, entered, joined⟩ := Chip.UnitMoved.sampled.fault_record .encoder none
      exact ⟨faulted, entered, joined⟩
  case unreferenced => exact markerPulse_of_ignored kept (Chip.pulseIgnored_iff.mpr (.inl unreferenced))
  case soon => exact markerPulse_of_ignored kept (Chip.pulseIgnored_iff.mpr (.inr ⟨n, last, soon⟩))
  case unexpected =>
    obtain ⟨moved, unit⟩ := kept.finish_pulse_unexpected unexpected
    exact ⟨_, markerPulse_of_taken referenced spaced, rfl, moved.parts, moved.others, unit⟩
  case attributed =>
    have pulse := Chip.PulseAt.of_closest expected deviation closest
    have event := pulse.event kept
    refine ⟨_, markerPulse_of_taken referenced spaced, rfl, event.parts, event.units, event.hoists,
      fun within window passes => ?corrected, fun beyond window rests => ?rests, fun faults window => ?faults⟩
    case corrected =>
      have outcome := Chip.pulseOutcome_of_corrects within passes
      have moved := pulse.moved (by rw [outcome]; split <;> simp)
      have unit := pulse.corrected_unit within passes
      rw [moved.finish kept]
      refine ⟨moved.parts, pulse.markerMet (by rw [unit]), fun low high => ?_, by rw [unit]⟩
      rw [unit]
      exact if_pos ⟨low, high⟩
    case rests =>
      have outcome := Chip.pulseOutcome_of_rests window beyond rests
      have moved := pulse.moved (by simp [outcome])
      have unit := pulse.warned_unit outcome
      rw [moved.finish kept]
      exact ⟨moved.parts, pulse.markerMet (by rw [unit]), by rw [unit]⟩
    case faults =>
      have outcome := Chip.pulseOutcome_of_faults window faults
      obtain ⟨faulted, entered, joined⟩ := Chip.UnitMoved.pulseMarked.fault_record (p := s.chip) (h := h) .position
        ((s.chip.markerBay h zb).map fun b => b.val)
      refine ⟨pulse.fault_unit outcome, ?_⟩
      rw [pulse.takePulse_of_fault outcome]
      refine ⟨faulted, fun notFaulted => ⟨(entered notFaulted).1, fun b names => ?_⟩, joined⟩
      rw [(entered notFaulted).2, s.chip.markerBay_of_namesMarker h names]
      rfl

end Sys2Proof.Machine
end

section
/-! SUPPORT. The hoist commands (spec/04 R74, R75; spec/05 R108, R110; spec/08 R168, R169; spec/10 R187): what each is refused by, and the
reference that REFERENCE_HOIST sets. -/

namespace Sys2Proof.Machine

/-! ### Operands out of range (R193) -/

theorem hoistOf_eq_none_iff (n : Nat) : hoistOf n = none ↔ 3 < n := by
  unfold hoistOf
  split <;> simp <;> omega

theorem holdModeOf_eq_none (n : Nat) (bad : 2 < n) : holdModeOf n = none := by
  match n with
  | 0 | 1 | 2 => omega
  | n + 3 => rfl

section
variable {number n identifier : Nat} {value : Int} {p : Chip} {h : HoistId} {b : BayId}

theorem holdHoist_outOfRange (bad : 3 < number ∨ 2 < n) : (holdHoist number n p).2 = refuse .range := by
  rcases bad with far | far
  · simp [holdHoist, (hoistOf_eq_none_iff number).mpr far]
  · cases hoistOf number <;> simp [holdHoist, holdModeOf_eq_none n far]

theorem enableHoist_outOfRange (bad : 3 < number ∨ 1 < n) : (enableHoist number n p).2 = refuse .range := by
  rcases bad with far | far
  · simp [enableHoist, (hoistOf_eq_none_iff number).mpr far]
  · cases hoistOf number <;> simp [enableHoist, (flagOf_eq_none_iff n).mpr far]

theorem resume_outOfRange (far : 3 < number) (notAll : number ≠ 255) : (resume number p).2 = refuse .range := by
  simp [resume, hoistOrAllOf, notAll, (hoistOf_eq_none_iff number).mpr far]

theorem referenceHoist_outOfRange (bad : 3 < number ∨ 63 < n) : (referenceHoist number n p).2 = refuse .range := by
  rcases bad with far | far
  · simp [referenceHoist, (hoistOf_eq_none_iff number).mpr far]
  · cases hoistOf number <;> simp [referenceHoist, (bayOf_eq_none_iff n).mpr far]

theorem setParam_unknown (notPlant : plantParamOf identifier = none) (bad : hoistParamOf identifier = none ∨ 3 < number) :
    (setParam identifier number value p).2 = refuse .range := by
  rcases bad with unknown | far
  · simp [setParam, notPlant, unknown]
  · cases hoistParamOf identifier <;> simp [setParam, notPlant, (hoistOf_eq_none_iff number).mpr far]

theorem setParam_plant_refused {x : PlantParam} (known : plantParamOf identifier = some x)
    (refused : x.treatment.apply (p.plantRange x) value = none) : (setParam identifier number value p).2 = refuse .range := by
  simp [setParam, known, refused]

/-! ### The checks of SET_PARAM on a hoist parameter (R169, R187) -/

variable {x : HoistParam}

theorem setParam_hoist_refused (known : hoistParamOf identifier = some x)
    (refused : x.treatment.apply ((p.hp h).range x) value = none) :
    (setParam identifier h.val value p).2 = refuse .range := by
  simp [setParam, (hoistParamOf_fits known).2, known, hoistOf_val, refused]

theorem setParam_hoist_locked {v : Nat} (known : hoistParamOf identifier = some x)
    (taken : x.treatment.apply ((p.hp h).range x) value = some v) (notGear : x ≠ .gear) (busy : (p.hoist h).phase ≠ .idle) :
    (setParam identifier h.val value p).2 = refuse .locked := by
  simp [setParam, (hoistParamOf_fits known).2, known, hoistOf_val, taken, notGear, busy]

/-! ### RESUME (R108) -/

theorem hoistOrAllOf_val (h : HoistId) : hoistOrAllOf h.val = some (some h) := by
  have notAll : h.val ≠ 255 := by omega
  simp [hoistOrAllOf, notAll, hoistOf_val]

theorem Chip.resumable_iff : p.resumable h = true ↔ (p.hoist h).phase = .halted ∧ (p.link h).state = .up :=
  decide_eq_true_iff

theorem resume_one_refused (bad : p.interlock = .opened ∨ (p.link h).state ≠ .up ∨ (p.hoist h).phase ≠ .halted) :
    (resume h.val p).2 = refuse .state := by
  have check : p.interlock = .opened ∨ p.resumable h = false := by
    rw [← Bool.not_eq_true, Chip.resumable_iff]
    tauto
  simp [resume, hoistOrAllOf_val, check]

/-- RESUME(ALL) is refused with the interlock open, and where no hoist can be resumed; else it resumes those that can. -/
theorem resume_all (p : Chip) : resume 255 p =
    if p.interlock = .opened then (p, refuse .stopped)
    else if ∀ h, p.resumable h = false then (p, refuse .state)
    else ((hoistList.filter p.resumable).foldl Chip.resumeHoist p,
      answerDone (((hoistList.filter p.resumable).foldl Chip.resumeHoist p).resumeResult p.resumable)) := by
  have all : hoistList.all (fun h => !p.resumable h) = true ↔ ∀ h, p.resumable h = false := by
    have every : ∀ h : HoistId, h ∈ hoistList := by decide
    simp [every]
  show (if _ then _ else if hoistList.all (fun h => !p.resumable h) = true then _ else _) = _
  simp only [all]

/-- No resumption touches the port. -/
theorem Chip.resumeAll_port (l : List HoistId) : (l.foldl Chip.resumeHoist p).port = p.port := by
  have each : ∀ (q : Chip) h, q.unchangedBut (q.resumeHoist h) [.masses, .bays, .hoists, .selector, .orders] := fun _ _ =>
    Chip.TripFrame.resumeHoist.unchangedBut
  exact Chip.foldl_unchangedBut each .port (by decide)

/-! ### REFERENCE_HOIST (R74, R75) -/

/-- REFERENCE_HOIST of a hoist and a bay makes its checks in their order. -/
theorem referenceHoist_val (p : Chip) (h : HoistId) (b : BayId) : referenceHoist h.val b.val p =
    if (p.bay b).state = .unsurveyed then (p, refuse .state)
    else if p.reaches h b = false then (p, refuse .unreachable)
    else if (p.hoist h).phase ≠ .idle ∧ (p.hoist h).phase ≠ .faulted then (p, refuse .locked)
    else (p.referenceAt h (p.elevationOf b), answerDone (byteField h.val ++
      p.signedField 4 ((p.referenceAt h (p.elevationOf b)).unit h).offset ++
      p.field 3 ((p.referenceAt h (p.elevationOf b)).unit h).elevation)) := by
  unfold referenceHoist
  rw [hoistOf_val, bayOf_val]

end

/-- A command that is handed over is answered, carried out or refused, where its change leaves the port (R184). -/
theorem State.Hands.command_answered {s : State} {i : Instr} (hands : s.Hands i) {taken : Chip × Answer}
    (port : taken.1.port = s.chip.port) : ∃ t, s.command i taken = .next t ∧ s.chip.repliedWith t.chip taken.2 := by
  obtain ⟨f, inHand⟩ := hands.frame
  cases refused : taken.2.status.isRefusal with
  | true =>
    exact ⟨_, s.command_of_refused i taken hands.handed refused, hands.kept.repliedWith_reply inHand taken.2⟩
  | false => exact ⟨_, hands.command_carriedOut refused port⟩

/-- Settles O44: each command's refusals, the range first and then its own checks in their order. -/
theorem hoistCommandsRefuse : Obligations.HoistCommandsRefuse := by
  intro s h b number n identifier value x
  refine ⟨fun hands bad => hands.command_refused (holdHoist_outOfRange bad),
    fun hands bad => hands.command_refused (enableHoist_outOfRange bad),
    fun hands far notAll => hands.command_refused (resume_outOfRange far notAll),
    fun hands bad => hands.command_refused (referenceHoist_outOfRange bad),
    fun hands notPlant bad => hands.command_refused (setParam_unknown notPlant bad),
    fun y hands known refused => hands.command_refused (setParam_plant_refused known refused),
    fun hands bad => hands.command_refused (resume_one_refused bad), fun hands => ?all, fun hands => ?reference,
    fun hands known => ?hoist⟩
  case all =>
    have port : (resume 255 s.chip).1.port = s.chip.port := by
      rw [resume_all]
      split
      · rfl
      · split
        · rfl
        · exact Chip.resumeAll_port _
    obtain ⟨t, next, replied⟩ := hands.command_answered port
    rw [resume_all] at replied
    refine ⟨t, next, fun opened => ?_, fun closed none_halted => ?_, fun closed halted up => ?_⟩
    · rwa [if_pos opened] at replied
    · have none_resumable : ∀ k, s.chip.resumable k = false := fun k => by
        rw [← Bool.not_eq_true, Chip.resumable_iff]
        exact fun both => (none_halted k).elim (· both.1) (· both.2)
      rwa [if_neg (by simp [closed]), if_pos none_resumable] at replied
    · have some_resumable : ¬∀ k, s.chip.resumable k = false := fun none_resumable => by
        have resumable := Chip.resumable_iff.mpr ⟨halted, up⟩
        exact absurd resumable (by simp [none_resumable h])
      rw [if_neg (by simp [closed]), if_neg some_resumable] at replied
      exact ⟨_, replied, rfl⟩
  case reference =>
    obtain ⟨t, next, refused⟩ := hands.command_refusals (referenceHoist h.val b.val s.chip)
    rw [referenceHoist_val] at refused
    refine ⟨t, next, fun unsurveyed => refused _ ?_, fun surveyed unreached => refused _ ?_,
      fun surveyed reached notIdle notFaulted => refused _ ?_⟩
    · rw [if_pos unsurveyed]
    · rw [if_neg surveyed, if_pos unreached]
    · rw [if_neg surveyed, if_neg (by simp [reached]), if_pos ⟨notIdle, notFaulted⟩]
  case hoist =>
    obtain ⟨t, next, refused⟩ := hands.command_refusals (setParam identifier h.val value s.chip)
    exact ⟨t, next, fun outside => refused _ (setParam_hoist_refused known outside),
      fun v taken notGear busy => refused _ (setParam_hoist_locked known taken notGear busy)⟩

/-! ### The reference set (R75) -/

section
variable {p q : Chip} {h : HoistId}

/-- An event that changes Position Units only moves of a controller its able item alone (R89). -/
theorem Chip.Kept.finish_hoist_of_units (kept : p.Kept) (parts : p.unchangedBut q [.units]) (h : HoistId) :
    (p.finish q).hoist h = { p.hoist h with able := (p.finish q).ableLaw h } := by
  have hoist : q.hoist h = p.hoist h := congrArg (Quad.get · h) (parts .hoists (by decide))
  have link : q.link h = p.link h := congrArg (Quad.get · h) (parts .links (by decide))
  have brake : q.brakeLaw h = p.brakeLaw h := Chip.brakeLaw_congr (by rw [link])
    (Chip.interlock_of_sensors (parts .sensors (by decide))) (by rw [hoist]) (by rw [hoist]) (by rw [hoist])
  have before : p.hoist h = { p.hoist h with
      able := p.ableLaw h, brake := p.brakeLaw h
      speedRef := if p.brakeLaw h = .set then 0 else (p.hoist h).speedRef } := (kept.keptHoist h).symm
  rw [Chip.finish_hoist_eq, Chip.finish_ableLaw, brake, hoist]
  conv_rhs => rw [before]

/-- Where the part changes in Position Units only, its end moves able, the selection request and the conditions (R89, R126, R190). -/
theorem Chip.finish_of_units (parts : p.unchangedBut q [.units]) :
    p.unchangedBut (p.finish q) [.units, .hoists, .selector, .port] := by
  have hoists : q.hoists = p.hoists := parts .hoists (by decide)
  refine Chip.finish_touches (Chip.unchangedBut_mono parts (by simp)) (by simp) (by simp) (fun _ => ?_) (by simp)
  exact Chip.finish_power fun k differs => absurd (by unfold Chip.hoist; rw [hoists]) differs

/-- The offset that puts the conveyance at elevation `e` (R75). -/
def Chip.referenceOffset (p : Chip) (h : HoistId) (e : Nat) : Int :=
  (e : Int) - ((p.hp h).zHead - ropeLength (p.hp h) (p.unit h).count -
    stretch (p.hp h) (p.loadM h) (ropeLength (p.hp h) (p.unit h).count))

theorem Chip.referenceAt_unchangedBut (e : Nat) : p.unchangedBut (p.referenceAt h e) [.units] := by
  intro x out
  cases x <;> simp at out <;> rfl

theorem Chip.referenceAt_others (e : Nat) : p.otherUnitsSame (p.referenceAt h e) h := fun k ne => by
  show ((p.units.set h _).set h _).get k = p.units.get k
  rw [Quad.get_set_of_ne _ _ _ _ ne, Quad.get_set_of_ne _ _ _ _ ne]

/-- The unit after its reference: the elevation is that of the offset held. -/
theorem Chip.referenceAt_unit (e : Nat) : (p.referenceAt h e).unit h = { p.unit h with
    offset := p.offsetOf (p.referenceOffset h e)
    elevation := clampElevation (e - p.referenceOffset h e + p.offsetOf (p.referenceOffset h e))
    referenced := true, drift := 0, markers := [], missRun := 0 } := by
  unfold Chip.referenceAt
  extract_lets q l offset p'
  have unit : p'.unit h = { p.unit h with offset := offset, referenced := true, drift := 0, markers := [], missRun := 0 } :=
    p.updUnit_unit_self h _
  have exact : p'.exactElevation h (p.unit h).count = e - p.referenceOffset h e + offset := by
    unfold Chip.exactElevation
    rw [unit]
    show (q.zHead : Int) - l - stretch q (p.loadM h) l + offset = e - (e - (q.zHead - l - stretch q (p.loadM h) l)) + offset
    omega
  refine (p'.updUnit_unit_self h fun u => { u with elevation := p'.elevationAt h u.count }).trans ?_
  rw [unit]
  simp only [Chip.elevationAt, exact]
  rfl

theorem Chip.offsetOf_inside {o : Int} (low : -2147483648 ≤ o) (high : o ≤ 2147483647) : p.offsetOf o = o :=
  if_pos ⟨low, high⟩

theorem clampElevation_of_le {e : Nat} (le : e ≤ 1048575) : clampElevation e = e := by
  unfold clampElevation
  omega

/-- With the offset in its range the conveyance stands at `e` (R72, R75). -/
theorem Chip.referenceAt_inside {e : Nat} (le : e ≤ 1048575) (low : -2147483648 ≤ p.referenceOffset h e)
    (high : p.referenceOffset h e ≤ 2147483647) :
    ((p.referenceAt h e).unit h).offset = p.referenceOffset h e ∧ ((p.referenceAt h e).unit h).elevation = e := by
  have stands : (e : Int) - p.referenceOffset h e + p.referenceOffset h e = e := by omega
  rw [Chip.referenceAt_unit, Chip.offsetOf_inside low high, stands]
  exact ⟨rfl, clampElevation_of_le le⟩

end

/-- Settles O41: the command's checks pass, and the event's end moves of the controllers only the hoist's able item. -/
theorem referenceHoistCompletes : Obligations.ReferenceHoistCompletes := by
  intro s h b e l hands surveyed elevation within reached free length
  have stands : s.chip.elevationOf b = e := by simp [Chip.elevationOf, elevation]
  have idle : ¬((s.chip.hoist h).phase ≠ .idle ∧ (s.chip.hoist h).phase ≠ .faulted) := by tauto
  have taken := referenceHoist_val s.chip h b
  rw [if_neg surveyed, if_neg (by simp [reached]), if_neg idle, stands] at taken
  have parts : s.chip.unchangedBut (s.chip.referenceAt h e) [.units] := Chip.referenceAt_unchangedBut e
  have units : s.chip.otherUnitsSame (s.chip.referenceAt h e) h := Chip.referenceAt_others e
  obtain ⟨next, replied⟩ := hands.command_carriedOut (p := s.chip.referenceAt h e) (a := answerDone _) rfl
    (parts .port (by decide))
  have step := congrArg (s.command (.referenceHoist h.val b.val)) taken
  refine ⟨_, step.trans next, rfl, Chip.unchangedBut_trans (Chip.finish_of_units parts)
    (Chip.unchangedBut_mono (Chip.reply_unchangedBut _ _) (by simp)), fun k ne => ?_, fun k ne => ?_, ?_, ?_, ?_, _, replied, rfl⟩
  · rw [Chip.reply_unit, Chip.finish_unit, units k ne]
  · rw [Chip.reply_hoist]
    refine hands.kept.finish_otherHoistsSame (fun k _ => ?_) (fun k _ => ?_) units
      (Chip.interlock_of_sensors (parts .sensors (by decide))) k ne
    · exact congrArg (Quad.get · k) (parts .hoists (by decide))
    · exact congrArg (Quad.get · k) (parts .links (by decide))
  · rw [Chip.reply_unit, Chip.finish_unit, Chip.referenceAt_unit]
  · rintro o value low high
    rw [Chip.reply_unit, Chip.finish_unit]
    subst length
    obtain rfl : o = s.chip.referenceOffset h e := value
    exact Chip.referenceAt_inside within low high
  · rw [Chip.reply_hoist, Chip.reply_ableLaw]
    exact hands.kept.finish_hoist_of_units parts h

end Sys2Proof.Machine
end

section
/-! SUPPORT. GET_ORDER, GET_ENERGY and SNAPSHOT (spec/04 R82; spec/06 R124; spec/09 R171 to R177; spec/11 R195, R196): the fields of a result read
back, the sums over the masses, and the bay that gives z_top. -/

namespace Sys2Proof.Machine

/-! ### The fields of a result read back (R193, R195) -/

section
variable {l r : List Byte} {i n v : Nat}

theorem number_skip (past : l.length ≤ i) : (⟨l ++ r⟩ : Frame).number i n = (⟨r⟩ : Frame).number (i - l.length) n := by
  obtain ⟨k, rfl⟩ := Nat.exists_eq_add_of_le past
  rw [Frame.number_append_right, Nat.add_sub_cancel_left]

theorem byte_skip (past : l.length ≤ i) : (⟨l ++ r⟩ : Frame).byte i = (⟨r⟩ : Frame).byte (i - l.length) := by
  obtain ⟨k, rfl⟩ := Nat.exists_eq_add_of_le past
  rw [Frame.byte_append_right, Nat.add_sub_cancel_left]

theorem Chip.number_field (p : Chip) (fits : v < 256 ^ n) : (⟨p.field n v ++ r⟩ : Frame).number 0 n = v := by
  rw [Frame.number_append_left _ _ _ _ (by rw [p.field_length, Nat.zero_add]), Chip.field, if_pos fits,
    Frame.number_bigEndian n v fits]

theorem Chip.byte_field (p : Chip) (fits : v < 256) : (⟨p.field 1 v ++ r⟩ : Frame).byte 0 = v := by
  have one := p.number_field (r := r) (n := 1) (v := v) fits
  simpa [Frame.number] using one

theorem byte_byteField (fits : v < 256) : (⟨byteField v ++ r⟩ : Frame).byte 0 = v :=
  Nat.mod_eq_of_lt fits

theorem byteField_length : (byteField v).length = 1 := by simp [byteField]

/-- Of fields of one width in a row, the one that stands at place `k`. -/
theorem Chip.number_flatMap_field {α : Type} (p : Chip) (f : α → Nat) (l : List α) {k : Nat} {x : α} (there : l[k]? = some x)
    (fits : f x < 256 ^ n) : (⟨l.flatMap fun y => p.field n (f y)⟩ : Frame).number (n * k) n = f x := by
  induction l generalizing k with
  | nil => simp at there
  | cons y ys ih =>
    rw [List.flatMap_cons]
    cases k with
    | zero =>
      obtain rfl : y = x := by simpa using there
      exact p.number_field fits
    | succ k =>
      have rest : ys[k]? = some x := by simpa using there
      rw [Nat.mul_succ, number_skip (by rw [p.field_length]; omega), p.field_length, Nat.add_sub_cancel]
      exact ih rest

end

/-! ### GET_ORDER (R124) -/

section
variable (p : Chip)

/-- A hoist has at most one active and one staged trip to hold an order for. -/
theorem Chip.heldCount_le : p.heldCount ≤ 8 := by
  have each : ∀ trip, (hoistList.filterMap fun h => p.held h trip).length ≤ 4 := fun _ => List.length_filterMap_le _ _
  rw [Chip.heldCount, Chip.heldOrders, List.length_append]
  exact Nat.add_le_add (each .active) (each .staged)

/-- The first five bytes that GET_ORDER reports: the order at the position, or NONE. -/
def Chip.orderBytes (p : Chip) (position : Nat) : List Byte :=
  match p.orders.queue[position]? with
  | some o => [BitVec.ofNat 8 position, BitVec.ofNat 8 (massNumber o.mass), BitVec.ofNat 8 o.destination.val,
      BitVec.ofNat 8 (hoistOrAnyCode o.hoist), o.tag]
  | none => [255#8, 0#8, 0#8, 0#8, 0#8]

theorem Chip.orderBytes_length (position : Nat) : (p.orderBytes position).length = 5 := by
  unfold Chip.orderBytes
  split <;> rfl

/-- What GET_ORDER reports: the order, the two counts of the queue, and the orders dropped. -/
def Chip.orderResult (p : Chip) (position : Nat) : List Byte :=
  p.orderBytes position ++ (p.field 1 p.queueLength ++ (p.field 1 p.heldCount ++ (p.field 2 p.orders.dropped ++
    List.replicate 15 0)))

theorem getOrder_eq {position : Nat} (inside : position ≤ 15) : getOrder position p = ⟨.done, p.orderResult position⟩ := by
  unfold getOrder Chip.orderResult Chip.orderBytes
  rw [if_neg (by omega)]
  cases p.orders.queue[position]? <;>
    simp [answerDone, resultBytes_eq, p.field_length, byteField]

theorem Chip.orderResult_length (position : Nat) : (p.orderResult position).length = 24 := by
  simp [Chip.orderResult, p.orderBytes_length, p.field_length]

theorem Chip.orderResult_take (position : Nat) : (p.orderResult position).take 5 = p.orderBytes position := by
  rw [Chip.orderResult, List.take_left' (p.orderBytes_length position)]

theorem Chip.orderResult_counts (position : Nat) :
    (p.queueLength ≤ 255 → (⟨p.orderResult position⟩ : Frame).byte 5 = p.queueLength) ∧
    (⟨p.orderResult position⟩ : Frame).byte 6 = p.heldCount ∧
    (p.orders.dropped ≤ 65535 → (⟨p.orderResult position⟩ : Frame).number 7 2 = p.orders.dropped) := by
  have held : p.heldCount < 256 := by have := p.heldCount_le; omega
  unfold Chip.orderResult
  refine ⟨fun fits => ?_, ?_, fun fits => ?_⟩
  · simpa [byte_skip, p.orderBytes_length] using p.byte_field (Nat.lt_succ_of_le fits)
  · simpa [byte_skip, p.orderBytes_length, p.field_length] using p.byte_field held
  · simpa [number_skip, p.orderBytes_length, p.field_length] using p.number_field (n := 2) (Nat.lt_succ_of_le fits)

/-! ### The energy figures (R171 to R175) -/

theorem MassState.resting_iff (x : MassState) : x.resting = true ↔ x = .parked ∨ x = .assigned ∨ x = .retiring := by
  cases x <;> simp [MassState.resting]

theorem MassState.counted_iff (x : MassState) : x.counted = true ↔ x ≠ .absent ∧ x ≠ .missing := by
  cases x <;> simp [MassState.counted]

theorem Chip.filter_resting : (massList.filter fun m => (p.mass m).state.resting) =
    massList.filter fun m => decide ((p.mass m).state = .parked ∨ (p.mass m).state = .assigned ∨ (p.mass m).state = .retiring) :=
  List.filter_congr fun m _ => by rw [Bool.eq_iff_iff, MassState.resting_iff, decide_eq_true_iff]

theorem Chip.filter_counted : (massList.filter fun m => (p.mass m).state.counted) =
    massList.filter fun m => decide ((p.mass m).state ≠ .absent ∧ (p.mass m).state ≠ .missing) :=
  List.filter_congr fun m _ => by rw [Bool.eq_iff_iff, MassState.counted_iff, decide_eq_true_iff]

theorem Chip.countMasses_le (chosen : MassState → Bool) : p.countMasses chosen ≤ 96 :=
  (List.length_filter_le _ _).trans (by decide)

theorem Chip.energyOf_eq (w z : Nat) :
    p.energyOf w z = w * p.params.gravity * (max 0 ((z : Int) - p.params.datum)).toNat / 1000000000 := by
  have above : (max 0 ((z : Int) - p.params.datum)).toNat = z - p.params.datum := by omega
  rw [above]
  rfl

/-- z_top's bay is the highest non-service bay, and of those as high the one with the lowest number. -/
theorem Chip.topBay_spec : (p.topBay = none → ∀ b, p.nonService b = false) ∧
    ∀ b, p.topBay = some b → p.nonService b = true ∧ ∀ k, p.nonService k = true →
      p.elevationOf k < p.elevationOf b ∨ p.elevationOf k = p.elevationOf b ∧ b ≤ k := by
  obtain ⟨top, le_top⟩ : ∃ top, ∀ b, p.elevationOf b ≤ top :=
    ⟨Finset.univ.sup p.elevationOf, fun b => Finset.le_sup (Finset.mem_univ b)⟩
  have order : (fun b b' : BayId => decide (p.elevationOf b' < p.elevationOf b)) =
      fun b b' => decide (top - p.elevationOf b < top - p.elevationOf b') := by
    funext b b'
    have := le_top b
    rw [decide_eq_decide]
    omega
  have mem : ∀ b, b ∈ bayList.filter p.nonService ↔ p.nonService b = true := fun b => by
    simp [bayList]
  have rising : (bayList.filter p.nonService).Pairwise (· < ·) := (List.pairwise_lt_finRange 64).filter _
  obtain ⟨ofNone, ofSome⟩ := firstBy_of_measure (fun b => top - p.elevationOf b) _ rising
  rw [← order] at ofNone ofSome
  refine ⟨fun absent b => ?_, fun b found => ?_⟩
  · rw [← Bool.not_eq_true, ← mem, ofNone absent]
    exact List.not_mem_nil
  · obtain ⟨isIn, least⟩ := ofSome b found
    refine ⟨(mem b).mp isIn, fun k free => ?_⟩
    have := le_top b
    have := le_top k
    rcases least k ((mem k).mpr free) with higher | ⟨level, first⟩
    · omega
    · exact .inr ⟨by omega, first⟩

theorem Chip.nonService_iff (b : BayId) : p.nonService b = true ↔ (p.bay b).service = some false := decide_eq_true_iff

theorem Chip.topBay_eq_none_iff : p.topBay = none ↔ ∀ b, (p.bay b).service ≠ some false := by
  obtain ⟨ofNone, ofSome⟩ := p.topBay_spec
  constructor
  · intro absent b free
    exact absurd ((p.nonService_iff b).mpr free) (by simp [ofNone absent b])
  · intro service
    rw [Option.eq_none_iff_forall_ne_some]
    exact fun b found => service b ((p.nonService_iff b).mp (ofSome b found).1)

theorem Chip.upperBound_of_none {p : Chip} (absent : p.topBay = none) : p.upperBound = 0 := by
  simp [Chip.upperBound, Chip.zTop, absent]

theorem Chip.upperBound_of_some {p : Chip} {b : BayId} (found : p.topBay = some b) :
    p.upperBound = p.sumOver MassState.counted fun m => p.energyOf (p.mass m).weight (p.elevationOf b) := by
  simp [Chip.upperBound, Chip.zTop, found]

/-! ### GET_ENERGY (R177) -/

/-- What page 0 of GET_ENERGY reports. -/
def Chip.totalsResult (p : Chip) : List Byte :=
  p.field 6 p.storedTotal ++ (p.field 6 p.restingEnergy ++ (p.field 6 p.aboardEnergy ++ List.replicate 6 0))

/-- What every other page of GET_ENERGY reports. -/
def Chip.boundsResult (p : Chip) : List Byte :=
  p.field 6 p.upperBound ++ (p.field 6 p.headroom ++ (p.field 3 (p.zTop.getD 0) ++ (byteField (flagCode p.zTop.isSome) ++
    (byteField ((p.topBay.map fun b => b.val).getD 0) ++ (byteField (p.countMasses MassState.counted) ++
      (byteField (p.countMasses fun x => decide (x = .missing)) ++ (p.field 2 p.params.gravity ++ p.field 3 p.params.datum)))))))

/-- What GET_ENERGY reports. -/
def Chip.energyResult (p : Chip) (page : Nat) : List Byte := if page = 0 then p.totalsResult else p.boundsResult

theorem getEnergy_eq (page : Nat) : getEnergy page p = ⟨.done, p.energyResult page⟩ := by
  unfold getEnergy Chip.energyResult Chip.totalsResult Chip.boundsResult
  split <;> simp [answerDone, resultBytes_eq, p.field_length, byteField]

theorem Chip.totalsResult_figures :
    (p.storedTotal < 281474976710656 → (⟨p.totalsResult⟩ : Frame).number 0 6 = p.storedTotal) ∧
    (p.restingEnergy < 281474976710656 → (⟨p.totalsResult⟩ : Frame).number 6 6 = p.restingEnergy) ∧
    (p.aboardEnergy < 281474976710656 → (⟨p.totalsResult⟩ : Frame).number 12 6 = p.aboardEnergy) := by
  unfold Chip.totalsResult
  refine ⟨fun fits => p.number_field fits, fun fits => ?_, fun fits => ?_⟩
  · simpa [number_skip, p.field_length] using p.number_field (n := 6) fits
  · simpa [number_skip, p.field_length] using p.number_field (n := 6) fits

/-- The bound, the headroom and the two parameters. -/
theorem Chip.boundsResult_figures :
    (p.upperBound < 281474976710656 → (⟨p.boundsResult⟩ : Frame).number 0 6 = p.upperBound) ∧
    (p.headroom < 281474976710656 → (⟨p.boundsResult⟩ : Frame).number 6 6 = p.headroom) ∧
    (p.params.gravity ≤ 65535 → (⟨p.boundsResult⟩ : Frame).number 19 2 = p.params.gravity) ∧
    (p.params.datum < 16777216 → (⟨p.boundsResult⟩ : Frame).number 21 3 = p.params.datum) := by
  unfold Chip.boundsResult
  refine ⟨fun fits => p.number_field fits, fun fits => ?_, fun fits => ?_, fun fits => ?_⟩
  · simpa [number_skip, p.field_length] using p.number_field (n := 6) fits
  · simpa [number_skip, p.field_length, byteField_length] using p.number_field (n := 2) (Nat.lt_succ_of_le fits)
  · simpa [number_skip, p.field_length, byteField_length] using p.number_field (n := 3) (r := []) fits

/-- z_top with its bay, and the two counts of masses. -/
theorem Chip.boundsResult_top :
    (∀ b, p.topBay = some b → p.elevationOf b < 16777216 → (⟨p.boundsResult⟩ : Frame).number 12 3 = p.elevationOf b ∧
      (⟨p.boundsResult⟩ : Frame).byte 15 = 1 ∧ (⟨p.boundsResult⟩ : Frame).byte 16 = b.val) ∧
    (p.topBay = none → (⟨p.boundsResult⟩ : Frame).byte 15 = 0) ∧
    (⟨p.boundsResult⟩ : Frame).byte 17 = p.countMasses MassState.counted ∧
    (⟨p.boundsResult⟩ : Frame).byte 18 = p.countMasses fun x => decide (x = .missing) := by
  have count : ∀ chosen, p.countMasses chosen < 256 := fun chosen => by have := p.countMasses_le chosen; omega
  unfold Chip.boundsResult
  refine ⟨fun b found fits => ⟨?_, ?_, ?_⟩, fun absent => ?_, ?_, ?_⟩
  · simpa [number_skip, p.field_length, Chip.zTop, found] using p.number_field (n := 3) fits
  · simpa [byte_skip, p.field_length, Chip.zTop, found, flagCode] using byte_byteField (v := 1) (by decide)
  · have fits : b.val < 256 := by omega
    simpa [byte_skip, p.field_length, byteField_length, found] using byte_byteField fits
  · simpa [byte_skip, p.field_length, Chip.zTop, absent, flagCode] using byte_byteField (v := 0) (by decide)
  · simpa [byte_skip, p.field_length, byteField_length] using byte_byteField (count _)
  · simpa [byte_skip, p.field_length, byteField_length] using byte_byteField (count _)

/-! ### SNAPSHOT (R82) -/

/-- What SNAPSHOT reports: the four groups. -/
def Chip.snapshotResult (p : Chip) : List Byte := hoistList.flatMap fun h => p.field 6 (p.snapshotGroup h)

theorem takeSnapshot_eq : takeSnapshot p = ⟨.done, p.snapshotResult⟩ := by
  have length : p.snapshotResult.length = 24 := by simp [Chip.snapshotResult, p.field_length, hoistList]
  show answerDone p.snapshotResult = _
  rw [answerDone, resultBytes_eq _ length.le, length, Nat.sub_self, List.replicate_zero, List.append_nil]

theorem Chip.snapshotGroup_lt (h : HoistId) : p.snapshotGroup h < 256 ^ 6 := by
  have elevation := p.elevationAt_le h (p.unit h).count
  have flag : flagCode (p.unit h).referenced ≤ 1 := by unfold flagCode; split <;> decide
  have load : p.loadBits (p.loadM h) < 2 ^ 27 := by
    unfold Chip.loadBits
    split
    · assumption
    · exact Nat.mod_lt _ (by decide)
  unfold Chip.snapshotGroup
  omega

theorem Chip.number_snapshotResult (h : HoistId) :
    (⟨p.snapshotResult⟩ : Frame).number (6 * h.val) 6 = p.snapshotGroup h := by
  have there : hoistList[h.val]? = some h := by revert h; decide
  exact p.number_flatMap_field p.snapshotGroup hoistList there (p.snapshotGroup_lt h)

end

/-- Settles O21: the three queries' result bytes, and what the energy figures are. -/
theorem orderEnergyAndSnapshotQueriesAnswer : Obligations.OrderEnergyAndSnapshotQueriesAnswer := by
  intro s n
  refine ⟨fun hands inside => ?order, fun hands => ?energy, rfl, ?resting, rfl, s.chip.topBay_eq_none_iff, fun b found => ?top,
    Chip.upperBound_of_none, ?headroom, fun hands => ?snapshot⟩
  case order =>
    obtain ⟨t, next, pending, quiet, replied⟩ := hands.query (getOrder n s.chip)
    rw [getOrder_eq s.chip inside] at replied
    obtain ⟨queued, held, dropped⟩ := s.chip.orderResult_counts n
    refine ⟨t, _, next, pending, quiet, replied, s.chip.orderResult_length n, fun o there => ?_, fun beyond => ?_, queued,
      held, dropped⟩
    · rw [Chip.orderResult_take, Chip.orderBytes, there]
      rfl
    · rw [Chip.orderResult_take, Chip.orderBytes, List.getElem?_eq_none beyond]
  case energy =>
    obtain ⟨t, next, pending, quiet, replied⟩ := hands.query (getEnergy n s.chip)
    rw [getEnergy_eq] at replied
    obtain ⟨total, resting, aboard⟩ := s.chip.totalsResult_figures
    obtain ⟨upper, headroom, gravity, datum⟩ := s.chip.boundsResult_figures
    obtain ⟨top, noTop, counted, missing⟩ := s.chip.boundsResult_top
    have first : n = 0 → s.chip.energyResult n = s.chip.totalsResult := fun page => if_pos page
    have other : n ≠ 0 → s.chip.energyResult n = s.chip.boundsResult := fun page => if_neg page
    refine ⟨t, _, next, pending, quiet, replied, fun page => by rwa [first page], fun page => by rwa [first page],
      fun page => by rwa [first page], fun page => by rwa [other page], fun page => by rwa [other page], fun page => ?_⟩
    rw [other page, ← Chip.filter_counted]
    exact ⟨top, noTop, counted, missing, gravity, datum⟩
  case resting =>
    rw [← Chip.filter_resting]
    rfl
  case top =>
    obtain ⟨free, highest⟩ := s.chip.topBay_spec.2 b found
    refine ⟨(s.chip.nonService_iff b).mp free, fun k free => highest k ((s.chip.nonService_iff k).mpr free), ?_⟩
    rw [Chip.upperBound_of_some found, ← Chip.filter_counted, Chip.sumOver]
    refine congrArg List.sum (List.map_congr_left fun m _ => ?_)
    rw [Chip.energyOf_eq, MassRecord.weight]
    cases (s.chip.mass m).measured <;> cases (s.chip.mass m).nominal <;> rfl
  case headroom =>
    unfold Chip.headroom
    omega
  case snapshot =>
    obtain ⟨t, next, pending, quiet, replied⟩ := hands.query (takeSnapshot s.chip)
    rw [takeSnapshot_eq] at replied
    refine ⟨t, _, next, pending, quiet, replied, fun h fits => ?_⟩
    have load : s.chip.loadBits (s.chip.loadM h) = s.chip.loadM h := if_pos fits
    rw [Chip.number_snapshotResult]
    unfold Chip.snapshotGroup
    omega

end Sys2Proof.Machine
end

section
/-! SUPPORT. Every step leaves able, the brake command, the stopped reference and the attention set true to the records (`Chip.Kept`; spec/05 R89,
R93, spec/07 R152, spec/10 R190): an event ends in `Chip.finish`, and what else a step does touches the port's other items only. -/

namespace Sys2Proof.Machine

namespace Chip.Kept

variable {p : Chip} {s t : State} {i : Instr}

/-- A change of the port that leaves its attention set. -/
theorem port (kept : p.Kept) (q : PlantPort) (attention : q.attention = p.port.attention) : ({ p with port := q } : Chip).Kept :=
  ⟨kept.able, kept.brake, kept.stopped, attention.trans kept.attention⟩

theorem answerRestart (kept : p.Kept) : p.answerRestart.Kept := by
  unfold Chip.answerRestart
  split
  · exact kept
  · split
    · exact Chip.Kept.reply (kept.port { p.port with restart := none } rfl) _
    · exact kept

/-- Right after power-on reset no hoist is able, every brake is SET with the reference 0, and no condition is present. -/
theorem powerOn (rate : LineRate) (first : Quad Channels) (n : Nat) :
    ({ Chip.powerOn rate first with draws := n } : Chip).Kept := by
  refine ⟨fun h => ?_, fun h => ?_, fun h _ => ?_, ?_⟩
  · show ((Chip.powerOn rate first).hoist h).able = (Chip.powerOn rate first).ableLaw h
    simp [Chip.ableLaw, Chip.powerOn_hoist, Chip.powerOn_link, HoistCtl.initial, LinkPort.initial]
  · show ((Chip.powerOn rate first).hoist h).brake = (Chip.powerOn rate first).brakeLaw h
    simp [Chip.brakeLaw, Chip.brakeIn, Chip.powerOn_hoist, HoistCtl.initial]
  · show ((Chip.powerOn rate first).hoist h).speedRef = 0
    rw [Chip.powerOn_hoist]
    rfl
  · show Attention.empty = (Chip.powerOn rate first).conditions
    have hoist : ∀ h, ((Chip.powerOn rate first).hoist h).phase = .idle := fun h => by rw [Chip.powerOn_hoist]; rfl
    have link : ∀ h, ((Chip.powerOn rate first).link h).state = .down := fun h => by rw [Chip.powerOn_link]; rfl
    have masses : (Chip.powerOn rate first).masses = .replicate 96 MassRecord.empty := rfl
    have bays : (Chip.powerOn rate first).bays = .replicate 64 BayRecord.unsurveyed := rfl
    have unserved : (Chip.powerOn rate first).power.unserved = 0 := rfl
    simp [Chip.conditions, hoist, link, masses, bays, unserved, Attention.empty, BayRecord.unsurveyed, MassRecord.empty]

/-! ### The ends of a meaning -/

theorem event (kept : s.chip.Kept) {arises : Bool} {effect : Chip} (next : s.event arises effect = .next t) :
    t.chip.Kept := by
  obtain rfl | ⟨_, rfl⟩ := s.event_next t arises effect next
  · exact kept
  · exact Chip.finish_kept _ _

theorem query (kept : s.chip.Kept) {a : Answer} (next : s.query i a = .next t) : t.chip.Kept := by
  obtain rfl | ⟨_, rfl⟩ := s.query_next t i a next
  · exact kept
  · exact kept.reply a

theorem command (kept : s.chip.Kept) {taken : Chip × Answer} (next : s.command i taken = .next t) : t.chip.Kept := by
  obtain rfl | ⟨_, _, rfl⟩ | ⟨_, _, rfl⟩ := s.command_next t i taken next
  · exact kept
  · exact kept.reply _
  · exact (Chip.finish_kept _ _).reply _

theorem restartPart (kept : s.chip.Kept) {due : RestartWork → Bool} {effect : Chip}
    (next : s.restartPart due effect = .next t) : t.chip.Kept := by
  unfold State.restartPart at next
  split at next
  · obtain rfl := Host.Outcome.next.inj next
    exact kept
  · split at next <;> obtain rfl := Host.Outcome.next.inj next
    · exact (Chip.finish_kept _ _).answerRestart
    · exact kept

theorem exec (kept : s.chip.Kept) (next : exec i s = .next t) : t.chip.Kept := by
  cases i with
  | powerOnReset =>
    obtain rfl := Host.Outcome.next.inj next
    exact powerOn _ _ _
  | millisecondMark | segmentEvent | linkTimeout | hoistLinkReply | hoistLinkReplyByte | replyPartialTimeout
  | filterSampleInstant | interlockClosedAcceptance | interlockHalt | interlockClosedTaken | phaseTimerExpiry | dwellLimitExpiry
  | servingStart | tryHoist | eligibilityReevaluation | endTripsOfAnotherKind | frameComplete | frameGapTimeout | plantLinkByte
  | replyEnd => exact kept.event next
  | markerPulse h =>
    change execMarkerPulse h s = .next t at next
    exact kept.event next
  | encoderEdge h levels =>
    change execEncoderEdge h levels s = .next t at next
    exact kept.event next
  | characterError =>
    change execCharacterError s = .next t at next
    exact kept.event next
  | getMass | nextMass | getBay | nextBay | getHoist | getOrder | getEnergy | getParam | snapshot => exact kept.query next
  | getPlant page =>
    change execGetPlant page s = .next t at next
    unfold execGetPlant at next
    split at next
    · exact kept.query next
    · split at next <;> obtain rfl := Host.Outcome.next.inj next
      · exact (kept.reply _).port _ rfl
      · exact kept
  | admitMass | amendMass | retireMass | foundMass | surveyBay | barBay | unbarBay | orderMove | cancelOrder | setPower
  | holdHoist | resume | abandonTrip | retarget | referenceHoist | clearFault | enableHoist | setParam =>
    exact kept.command next
  | restart =>
    change execRestart s = .next t at next
    unfold execRestart at next
    split at next <;> obtain rfl := Host.Outcome.next.inj next
    · exact kept.port _ rfl
    · exact kept
  | restartOrderQueue | restartPowerAllocator | restartHoist => exact kept.restartPart next

end Chip.Kept

/-- Settles O6: the items are recomputed at the end of every event, and no reply or placing of a frame moves one. -/
theorem stepKeepsItemsTrueToRecords : Obligations.StepKeepsItemsTrueToRecords := by
  intro s t kept next
  unfold step at next
  split at next
  · obtain rfl := Host.Outcome.next.inj next
    exact kept
  · rename_i i rest _
    exact Chip.Kept.exec (s := s.withPending rest) kept next

end Sys2Proof.Machine
end

section
/-! SUPPORT. HOLD_HOIST and ENABLE_HOIST (spec/05 R110, spec/08 R168): the hold mode of one controller, and the service of one link. -/

namespace Sys2Proof.Machine

section
variable {p q : Chip} {h : HoistId}

/-- An event that moves none of what the brake command of a hoist reads moves at its end only the hoist's able item. -/
theorem Chip.Kept.finish_hoist_of_brakeLaw (kept : p.Kept) (law : q.brakeLaw h = p.brakeLaw h)
    (brake : (q.hoist h).brake = (p.hoist h).brake) (speed : (q.hoist h).speedRef = (p.hoist h).speedRef) :
    (p.finish q).hoist h = { q.hoist h with able := q.ableLaw h } := by
  have stopped : (if p.brakeLaw h = .set then 0 else (p.hoist h).speedRef) = (q.hoist h).speedRef := by
    rw [speed]
    exact congrArg HoistCtl.speedRef (kept.keptHoist h)
  rw [Chip.finish_hoist_eq, law, speed, stopped, ← kept.brake h, ← brake]

/-! ### HOLD_HOIST (R110) -/

/-- The part in which hoist `h` has a hold mode. -/
def Chip.withHold (p : Chip) (h : HoistId) (mode : HoldMode) : Chip := p.updHoist h fun c => { c with holdMode := mode }

theorem holdModeOf_eq_some {n : Nat} {mode : HoldMode} (known : holdModeOf n = some mode) : mode.code = n := by
  unfold holdModeOf at known
  split at known <;> cases known <;> rfl

theorem holdHoist_val {n : Nat} {mode : HoldMode} (p : Chip) (h : HoistId) (known : holdModeOf n = some mode) :
    holdHoist h.val n p = (p.withHold h mode, answerDone [BitVec.ofNat 8 h.val, BitVec.ofNat 8 n]) := by
  simp only [holdHoist, hoistOf_val, known, holdModeOf_eq_some known]
  rfl

variable {mode : HoldMode}

theorem Chip.withHold_hoist : (p.withHold h mode).hoist h = { p.hoist h with holdMode := mode } := p.updHoist_hoist_self h _

theorem Chip.TripFrame.withHold : Chip.TripFrame h p (p.withHold h mode) := .updHoist _

/-- What the Power Allocator and the conditions read of a controller, its hold mode is none of. -/
theorem Chip.withHold_powerView (k : HoistId) : ((p.withHold h mode).hoist k).powerView = (p.hoist k).powerView := by
  by_cases own : k = h
  · rw [own, Chip.withHold_hoist]
    rfl
  · rw [Chip.TripFrame.withHold.others k own]

theorem Chip.finish_withHold_unchangedBut : p.unchangedBut (p.finish (p.withHold h mode)) [.hoists, .selector, .port] := by
  refine Chip.finish_touches (Chip.unchangedBut_mono (p.updHoist_unchangedBut h _) (by simp)) (by simp) (by simp) (fun _ => ?_)
    (by simp)
  exact Chip.finish_power fun k differs => absurd (Chip.withHold_powerView k).symm differs

theorem Chip.Kept.finish_withHold_hoist (kept : p.Kept) : (p.finish (p.withHold h mode)).hoist h =
    { p.hoist h with holdMode := mode, able := (p.withHold h mode).ableLaw h } := by
  have law : (p.withHold h mode).brakeLaw h = p.brakeLaw h :=
    Chip.brakeLaw_congr rfl rfl (by rw [Chip.withHold_hoist]) (by rw [Chip.withHold_hoist]) (by rw [Chip.withHold_hoist])
  rw [kept.finish_hoist_of_brakeLaw law (by rw [Chip.withHold_hoist]) (by rw [Chip.withHold_hoist]), Chip.withHold_hoist]

/-- A hoist on HOLD is not able (R89). -/
theorem Chip.withHold_ableLaw_hold : (p.withHold h .hold).ableLaw h = false := by
  simp [Chip.ableLaw, Chip.withHold_hoist]

/-! ### ENABLE_HOIST (R168) -/

/-- The part in which the link of hoist `h` has been put in service, or out of it. -/
def Chip.withService (p : Chip) (h : HoistId) (on : Bool) : Chip := p.updLink h fun l => l.setEnabled on

variable {on : Bool}

theorem enableHoist_val (free : on = true ∨ (p.hoist h).phase = .idle) : enableHoist h.val (flagCode on) p =
    (p.withService h on, answerDone [BitVec.ofNat 8 h.val, BitVec.ofNat 8 (flagCode ((p.withService h on).link h).enabled),
      BitVec.ofNat 8 ((p.withService h on).link h).state.code]) := by
  have passes : ¬(on = false ∧ (p.hoist h).phase ≠ .idle) := by cases on <;> simp_all
  simp only [enableHoist, hoistOf_val, flagOf_flagCode, if_neg passes]
  rfl

theorem enableHoist_locked (busy : (p.hoist h).phase ≠ .idle) : (enableHoist h.val 0 p).2 = refuse .locked := by
  simp [enableHoist, hoistOf_val, flagOf, busy]

theorem Chip.withService_link : (p.withService h on).link h = (p.link h).setEnabled on := p.updLink_link_self h _

/-- A setting that the link already has changes nothing (log 16). -/
theorem Chip.withService_of_same (same : (p.link h).enabled = on) : p.withService h on = p := by
  have kept : (p.link h).setEnabled on = p.link h := if_pos same
  have links : p.links.set h ((p.link h).setEnabled on) = p.links := Quad.ext_get _ _ fun k => by
    rw [kept, Quad.get_set]
    split
    · rename_i own
      rw [own]
      rfl
    · rfl
  show ({ p with links := p.links.set h ((p.link h).setEnabled on) } : Chip) = p
  rw [links]

theorem Chip.finish_withService_unchangedBut :
    p.unchangedBut (p.finish (p.withService h on)) [.hoists, .selector, .links, .port] := by
  refine Chip.finish_touches (fun x out => ?_) (by simp) (by simp) (fun _ => ?_) (by simp)
  · cases x <;> simp at out <;> rfl
  · exact Chip.finish_power fun k differs => absurd rfl differs

/-- A hoist whose link is DOWN is not able (R89). -/
theorem Chip.ableLaw_of_down (down : (p.link h).state = .down) : p.ableLaw h = false := by simp [Chip.ableLaw, down]

end

/-- Settles O37: a hold mode is an item of one controller, and a setting of service one of its link; what follows is the law of able. -/
theorem holdAndEnableHoistComplete : Obligations.HoldAndEnableHoistComplete := by
  intro s h n mode on
  refine ⟨fun hands known => ?hold, fun hands free => ?enable, fun hands busy => hands.command_refused (enableHoist_locked busy)⟩
  case hold =>
    have frame : Chip.TripFrame h s.chip (s.chip.withHold h mode) := .withHold
    have hoist := hands.kept.finish_withHold_hoist (h := h) (mode := mode)
    obtain ⟨next, replied⟩ := hands.command_carriedOut (p := s.chip.withHold h mode)
      (a := answerDone [BitVec.ofNat 8 h.val, BitVec.ofNat 8 n]) rfl rfl
    refine ⟨_, (congrArg (s.command _) (holdHoist_val s.chip h known)).trans next, rfl,
      Chip.unchangedBut_trans Chip.finish_withHold_unchangedBut (Chip.unchangedBut_mono (Chip.reply_unchangedBut _ _) (by simp)),
      fun k ne => (Chip.reply_hoist _ _ k).trans (hands.kept.finish_others_of_frame frame k ne), ?_, ?_, ?_, replied⟩
    · rw [Chip.reply_hoist, Chip.reply_ableLaw, Chip.finish_ableLaw, hoist]
    · rintro rfl
      rw [Chip.reply_hoist, hoist]
      exact Chip.withHold_ableLaw_hold
    · have request := Chip.finish_request_of_one (before := s.chip) fun k ne => hands.kept.ableLaw_of_frame frame ne
      have moved : (s.chip.finish (s.chip.withHold h mode)).selector = { s.chip.selector with
          request := (s.chip.finish (s.chip.withHold h mode)).selector.request } := rfl
      rw [Chip.reply_selector, Chip.reply_hoist, moved, request, hoist, Chip.withHold_hoist]
      rfl
  case enable =>
    obtain ⟨q, def_q⟩ : ∃ q, q = s.chip.withService h on := ⟨_, rfl⟩
    have link : q.link h = (s.chip.link h).setEnabled on := by rw [def_q, Chip.withService_link]
    have otherLinks : s.chip.otherLinksSame q h := fun k ne => by rw [def_q]; exact Chip.updLink_link_of_ne _ _ _ _ ne
    obtain ⟨next, replied⟩ := hands.command_carriedOut (p := q) (a := answerDone [BitVec.ofNat 8 h.val,
      BitVec.ofNat 8 (flagCode (q.link h).enabled), BitVec.ofNat 8 (q.link h).state.code]) rfl (by rw [def_q]; rfl)
    have quiet : s.chip.unchangedBut (s.chip.finish q) [.hoists, .selector, .links, .port] :=
      def_q ▸ Chip.finish_withService_unchangedBut
    have taken := enableHoist_val (p := s.chip) free
    rw [← def_q] at taken
    have others : s.chip.otherHoistsSame (s.chip.finish q) h := hands.kept.finish_otherHoistsSame
      (fun k _ => by rw [def_q]; rfl) otherLinks (fun k _ => by rw [def_q]; rfl) (by rw [def_q]; rfl)
    refine ⟨_, (congrArg (s.command _) taken).trans next, rfl,
      Chip.unchangedBut_trans quiet (Chip.unchangedBut_mono (Chip.reply_unchangedBut _ _) (by simp)),
      fun k ne => (Chip.reply_hoist _ _ k).trans (others k ne), fun k ne => ?_, fun same => ?_, fun enabled off => ?_,
      fun disabled turnedOn down => ?_, ?_⟩
    · rw [Chip.reply_link, Chip.finish_link, otherLinks k ne]
    · rw [def_q, Chip.withService_of_same same, Chip.reply_link, Chip.reply_hoists, Chip.finish_self hands.kept]
      exact ⟨rfl, rfl⟩
    · have down : q.link h = { s.chip.link h with enabled := false, state := .down, proving := 0, missed := 0 } := by
        rw [link, off]
        simp [LinkPort.setEnabled, enabled]
      rw [Chip.reply_link, Chip.finish_link, Chip.reply_hoist, Chip.finish_able, Chip.finish_ableLaw]
      exact ⟨down, Chip.ableLaw_of_down (by rw [down])⟩
    · rw [Chip.reply_link, Chip.finish_link, link, turnedOn]
      simp [LinkPort.setEnabled, disabled, down]
    · rw [Chip.reply_link, Chip.finish_link]
      exact replied

end Sys2Proof.Machine
end

section
/-! SUPPORT. The end of an event or a command that worked on one hoist's trips: what the part that was made by it shows after the end
(`Chip.ConcludedAs`), and the asking of an abandonment (spec/05 R103) case by case. -/

namespace Sys2Proof.Machine

/-! ### The controller at the end of an event -/

section
variable (p : Chip) (h : HoistId)

@[simp] theorem Chip.keptHoist_phase : (p.keptHoist h).phase = (p.hoist h).phase := rfl

@[simp] theorem Chip.keptHoist_active : (p.keptHoist h).active = (p.hoist h).active := rfl

@[simp] theorem Chip.keptHoist_staged : (p.keptHoist h).staged = (p.hoist h).staged := rfl

@[simp] theorem Chip.keptHoist_holdMode : (p.keptHoist h).holdMode = (p.hoist h).holdMode := rfl

@[simp] theorem Chip.keptHoist_withdrawal : (p.keptHoist h).withdrawal = (p.hoist h).withdrawal := rfl

@[simp] theorem Chip.keptHoist_latchCommand : (p.keptHoist h).latchCommand = (p.hoist h).latchCommand := rfl

@[simp] theorem Chip.keptHoist_latchLevel : (p.keptHoist h).latchLevel = (p.hoist h).latchLevel := rfl

@[simp] theorem Chip.keptHoist_phaseReply : (p.keptHoist h).phaseReply = (p.hoist h).phaseReply := rfl

@[simp] theorem Chip.keptHoist_phaseTimer : (p.keptHoist h).phaseTimer = (p.hoist h).phaseTimer := rfl

@[simp] theorem Chip.keptHoist_dwellTimer : (p.keptHoist h).dwellTimer = (p.hoist h).dwellTimer := rfl

@[simp] theorem Chip.keptHoist_noBay : (p.keptHoist h).noBay = (p.hoist h).noBay := rfl

@[simp] theorem Chip.keptHoist_lateApproach : (p.keptHoist h).lateApproach = (p.hoist h).lateApproach := rfl

@[simp] theorem Chip.keptHoist_fault : (p.keptHoist h).fault = (p.hoist h).fault := rfl

theorem Chip.keptHoist_speedRef_zero (zero : (p.hoist h).speedRef = 0) : (p.keptHoist h).speedRef = 0 := by
  simp [Chip.keptHoist, zero]

/-- A hoist that neither travels nor approaches stands with its brake SET (R93). -/
theorem Chip.brakeLaw_of_standing (notTravel : (p.hoist h).phase ≠ .travel) (notApproach : (p.hoist h).phase ≠ .approach) :
    p.brakeLaw h = .set := by
  simp [Chip.brakeLaw, Chip.brakeIn, notTravel, notApproach]

end

/-! ### What the end of an event shows of the part that the event made -/

/-- `r` is `q` after the end of an event, and after a reply or any other change of the port that follows it. -/
structure Chip.ConcludedAs (q r : Chip) : Prop where
  parts : q.unchangedBut r [.hoists, .selector, .power, .port]
  hoist : ∀ h, r.hoist h = q.keptHoist h

theorem Chip.finish_concludedAs (before q : Chip) : q.ConcludedAs (before.finish q) :=
  ⟨Chip.finish_unchangedBut before q, Chip.finish_hoist before q⟩

namespace Chip.ConcludedAs

variable {p q r : Chip} {h : HoistId} (ended : q.ConcludedAs r)
include ended

theorem portChanged {r' : Chip} (port : r.unchangedBut r' [.port]) : q.ConcludedAs r' where
  parts := Chip.unchangedBut_trans ended.parts (Chip.unchangedBut_mono port (by simp))
  hoist h := by
    have hoists : r'.hoists = r.hoists := port .hoists (by decide)
    rw [← ended.hoist h, Chip.hoist, hoists]
    rfl

theorem masses : r.masses = q.masses := ended.parts .masses (by decide)

theorem bays : r.bays = q.bays := ended.parts .bays (by decide)

theorem orders : r.orders = q.orders := ended.parts .orders (by decide)

theorem mass (m : MassId) : r.mass m = q.mass m := ended.parts.mass (by decide) m

theorem bay (b : BayId) : r.bay b = q.bay b := ended.parts.bay (by decide) b

theorem held (slot : Slot) : r.held h slot = q.held h slot := q.held_of_orders ended.orders h slot

theorem haltCauseOf : r.haltCauseOf h = q.haltCauseOf h := by simp [Chip.haltCauseOf, ended.hoist]

theorem tripEntered {t : Trip} (entered : p.tripEntered h t (q.hoist h)) : p.tripEntered h t (r.hoist h) := by
  rw [ended.hoist, ← Chip.finish_hoist q]
  exact Chip.tripEntered_finish q entered

theorem activeEnded (active : p.activeEnded q h) : p.activeEnded r h := by
  have finished := Chip.activeEnded_finish q active
  unfold Chip.activeEnded at *
  simpa only [Chip.finish_hoist, Chip.finish_held, ended.hoist, ended.held] using finished

theorem emptyEnded (empty : p.emptyEnded q h) : p.emptyEnded r h := by
  obtain ⟨active, reply, latch⟩ := empty
  refine ⟨ended.activeEnded active, ?_, ?_⟩ <;> rw [ended.hoist]
  · exact reply
  · exact latch

end Chip.ConcludedAs

/-- A command on hoist `h`'s trips that is handed over and carried out: what it touches, what it shows after its end, and its reply. -/
theorem State.Hands.onTrips {s : State} {i : Instr} (hands : s.Hands i) {h : HoistId} {taken : Chip × Answer} {q : Chip}
    {a : Answer} {parts : List Part} (made : taken = (q, a)) (carriedOut : a.status.isRefusal = false)
    (frame : Chip.TripFrame h s.chip q) (change : s.chip.unchangedBut q parts)
    (room : ∀ x ∈ [Part.hoists, .selector, .power, .port], x ∈ parts) :
    ∃ t, s.command i taken = .next t ∧ t.pending = s.pending ∧ s.chip.unchangedBut t.chip parts ∧
      s.chip.otherHoistsSame t.chip h ∧ q.ConcludedAs t.chip ∧ s.chip.repliedWith t.chip a := by
  obtain ⟨next, replied⟩ := hands.command_carriedOut carriedOut frame.port
  have ended := (Chip.finish_concludedAs s.chip q).portChanged (Chip.reply_unchangedBut _ a)
  subst made
  refine ⟨_, next, rfl, Chip.unchangedBut_trans change (Chip.unchangedBut_mono ended.parts room), fun k ne => ?_, ended,
    replied⟩
  rw [Chip.reply_hoist]
  exact hands.kept.finish_others_of_frame frame k ne

/-! ### The asking of an abandonment (R103) -/

section
variable {p : Chip} {h : HoistId} {t : Trip} (fate : OrderFate)

/-- A withdrawal under way is kept (R100). -/
theorem Chip.abandon_of_withdrawn (withdrawn : (p.hoist h).withdrawal ≠ .none) : p.abandon h fate = p := by
  simp [Chip.abandon, withdrawn]

theorem Chip.abandon_of_waiting (free : (p.hoist h).withdrawal = .none) (waits : (p.hoist h).waitsForLatch = true) :
    p.abandon h fate = p.updHoist h fun c => { c with latchCommand := .opened, withdrawal := .abandon fate } := by
  simp [Chip.abandon, free, waits]

theorem Chip.abandon_at_once (free : (p.hoist h).withdrawal = .none) (noWait : (p.hoist h).waitsForLatch = false) :
    p.abandon h fate = p.completeAbandon h fate false := by
  simp [Chip.abandon, free, noWait]

/-- What an abandonment that completes at once makes of the masses. -/
theorem Chip.completeAbandon_mass_eq (active : (p.hoist h).active = some t) :
    (p.completeAbandon h fate false).mass t.mass = { p.mass t.mass with state := .parked } := by
  rw [Chip.completeAbandon_mass fate false active, Chip.abandonSettled_mass]
  rfl

/-- Where no trip is staged none is after the active trip has ended, and no trip is active. -/
theorem Chip.activeEnded_unstaged {q : Chip} (ended : p.activeEnded q h) (unstaged : (p.hoist h).staged = none) :
    (q.hoist h).active = none ∧ (q.hoist h).staged = none ∧
    (q.hoist h).phase = if (p.hoist h).phase = .faulted then .faulted else .idle := by
  obtain ⟨_, _, _, faulted, idle, _⟩ := ended
  by_cases e : (p.hoist h).phase = .faulted
  · obtain ⟨phase, active, staged⟩ := faulted e
    exact ⟨active, staged.trans unstaged, by rw [phase, if_pos e]⟩
  · obtain ⟨phase, active, staged⟩ := idle e unstaged
    exact ⟨active, staged, by rw [phase, if_neg e]⟩

/-- What an asked abandonment leaves of the staged slot. -/
theorem Chip.abandon_unstaged (active : (p.hoist h).active = some t) (unstaged : (p.hoist h).staged = none) :
    ((p.abandon h fate).hoist h).staged = none := by
  by_cases free : (p.hoist h).withdrawal = .none
  · cases waits : (p.hoist h).waitsForLatch with
    | true => rw [Chip.abandon_of_waiting fate free waits, Chip.updHoist_hoist_self, unstaged]
    | false =>
      rw [Chip.abandon_at_once fate free waits]
      obtain ⟨ended, _⟩ := Chip.emptyEnded_completeAbandon fate false active
      exact (Chip.activeEnded_unstaged ended unstaged).2.1
  · rw [Chip.abandon_of_withdrawn fate free, unstaged]

/-- The work phase and the wait for the latch read no staged trip. -/
theorem HoistCtl.unstaged_workPhase (c : HoistCtl) : ({ c with staged := none } : HoistCtl).workPhase = c.workPhase := rfl

theorem HoistCtl.unstaged_waitsForLatch (c : HoistCtl) :
    ({ c with staged := none } : HoistCtl).waitsForLatch = c.waitsForLatch := rfl

end

end Sys2Proof.Machine
end

section
/-! SUPPORT. RETARGET (spec/05 R112): the destination taken, and the refusals in their order. -/

namespace Sys2Proof.Machine

section
variable {p : Chip} {h : HoistId} {t : Trip} {b : BayId} {zr : Nat} {kind : TripKind}

/-- A destination taken touches the bays, the controllers and, by a bay that opens, the selector. -/
theorem Chip.takeDestination_unchangedBut :
    p.unchangedBut (p.takeDestination h t zr b kind) [.bays, .hoists, .selector] := by
  have given : p.unchangedBut (p.giveUpDestination h .active t.destination) [.bays, .selector] := by
    unfold Chip.giveUpDestination
    split
    · split
      · exact Chip.unchangedBut_mono (p.barBay_unchangedBut _ _) (by decide)
      · exact p.openBay_unchangedBut _
    · exact p.unchangedBut_refl _
  exact Chip.unchangedBut_mono
    (Chip.unchangedBut_append given (Chip.unchangedBut_append (Chip.updBay_unchangedBut _ b _)
      (Chip.unchangedBut_append (Chip.updHoist_unchangedBut _ h _) (Chip.updHoist_unchangedBut _ h _)))) (by decide)

/-- The controller whose trip has taken a destination, of whatever kind the trip then is. -/
theorem Chip.takeDestination_hoist_of_kind (active : (p.hoist h).active = some t) :
    (p.takeDestination h t zr b kind).hoist h = { p.hoist h with
      active := some { t with
        destination := b, direction := p.directionTo zr b, kind := kind, retargets := satInc 255 t.retargets }
      noBay := false } := by
  simp [Chip.takeDestination, Chip.updActive, Chip.holdDestination, active]

/-- A destination that the trip held is given back as its sensor has it (R35, R112). -/
theorem Chip.takeDestination_bay_old (opened : (p.bay b).state = .opened)
    (held : p.holdsDestination h .active t.destination = true) :
    ((p.takeDestination h t zr b kind).bay t.destination).state =
      if (p.bay t.destination).sensor = some .occupied then .barred else .opened := by
  have inbound := (p.holdsDestination_iff h t.destination .active).mp held
  have ne : t.destination ≠ b := by
    rintro rfl
    exact absurd (opened.symm.trans inbound.1) (by decide)
  rw [Chip.takeDestination_bay_of_ne _ _ _ _ _ _ _ ne, Chip.giveUpDestination_bay_self _ _ _ _ held]

/-! ### The checks (R112) -/

theorem retarget_outOfRange {number bay : Nat} (bad : 3 < number ∨ 63 < bay) : (retarget number bay p).2 = refuse .range := by
  rcases bad with far | far
  · simp [retarget, (hoistOf_eq_none_iff number).mpr far]
  · cases hoistOf number <;> simp [retarget, (bayOf_eq_none_iff bay).mpr far]

theorem retarget_moving (notFaulted : (p.hoist h).phase ≠ .faulted) (notHalted : (p.hoist h).phase ≠ .halted) :
    (retarget h.val b.val p).2 = refuse .state := by
  simp [retarget, hoistOf_val, bayOf_val, notFaulted, notHalted]

variable (stopped : (p.hoist h).phase = .faulted ∨ (p.hoist h).phase = .halted)
include stopped

theorem retarget_noTrip (noTrip : (p.hoist h).active = none) : (retarget h.val b.val p).2 = refuse .noSuch := by
  have passes : ¬((p.hoist h).phase ≠ .faulted ∧ (p.hoist h).phase ≠ .halted) := by tauto
  simp only [retarget, hoistOf_val, bayOf_val, if_neg passes, noTrip]

/-- RETARGET of a trip of a stopped hoist makes its checks in their order. -/
theorem retarget_of_trip (active : (p.hoist h).active = some t) : retarget h.val b.val p =
    if t.leg = .empty then (p, refuse .state)
    else if (p.hoist h).workPhase = .release then (p, refuse .locked)
    else if (p.bay b).state ≠ .opened then (p, refuse .state)
    else if p.reaches h b = false then (p, refuse .unreachable)
    else (p.takeDestination h t (p.unit h).elevation b .directed,
      answerDone ((p.takeDestination h t (p.unit h).elevation b .directed).tripResult
        ((p.takeDestination h t (p.unit h).elevation b .directed).hoist h).active)) := by
  have passes : ¬((p.hoist h).phase ≠ .faulted ∧ (p.hoist h).phase ≠ .halted) := by tauto
  simp only [retarget, hoistOf_val, bayOf_val, if_neg passes, active]

end

/-- Settles O40: the destination is taken where every check passes, and the refusals follow the checks in their order. -/
theorem retargetCompletes : Obligations.RetargetCompletes := by
  intro s h b tr number bay
  refine ⟨fun hands stopped active loaded notReleasing opened reached => ?taken,
    fun hands bad => hands.command_refused (retarget_outOfRange bad), fun hands => ?refused⟩
  case taken =>
    have made := retarget_of_trip (b := b) stopped active
    rw [if_neg (by simp [loaded]), if_neg notReleasing, if_neg (by simp [opened]), if_neg (by simp [reached])] at made
    obtain ⟨t, next, pending, parts, others, ended, replied⟩ := hands.onTrips made rfl (.takeDestination _ _ _ _)
      (Chip.unchangedBut_mono Chip.takeDestination_unchangedBut
        (by decide : ∀ x ∈ _, x ∈ [Part.bays, .hoists, .selector, .power, .port])) (by decide)
    refine ⟨t, next, pending, parts, others, fun k notNew notOld => ?_, ?_, fun held => ?_, ?_, ?_, ?_, _, replied, rfl⟩
    · rw [ended.bay, Chip.takeDestination_bay_of_ne _ _ _ _ _ _ _ notNew, Chip.giveUpDestination_bay_of_ne _ _ _ _ _ notOld]
    · rw [ended.bay, Chip.takeDestination_bay_self _ _ _ _ _ _ opened]
    · rw [ended.bay, Chip.takeDestination_bay_old opened held]
    all_goals
      rw [ended.hoist]
      simp only [Chip.keptHoist_phase, Chip.keptHoist_noBay, Chip.keptHoist_active, Chip.takeDestination_hoist_of_kind active]
    rfl
  case refused =>
    obtain ⟨t, next, refused⟩ := hands.command_refusals (retarget h.val b.val s.chip)
    refine ⟨t, next, fun notFaulted notHalted => refused _ (retarget_moving notFaulted notHalted), fun stopped =>
      ⟨fun noTrip => refused _ (retarget_noTrip stopped noTrip), fun active => ?_⟩⟩
    have checks := retarget_of_trip (b := b) stopped active
    refine ⟨fun empty => refused _ ?_, fun loaded => ⟨fun releasing => refused _ ?_, fun notReleasing =>
      ⟨fun notOpen => refused _ ?_, fun opened unreached => refused _ ?_⟩⟩⟩ <;> rw [checks]
    · rw [if_pos empty]
    · rw [if_neg (by simp [loaded]), if_pos releasing]
    · rw [if_neg (by simp [loaded]), if_neg notReleasing, if_pos notOpen]
    · rw [if_neg (by simp [loaded]), if_neg notReleasing, if_neg (by simp [opened]), if_pos unreached]

end Sys2Proof.Machine
end

section
/-! SUPPORT. ABANDON_TRIP (spec/05 R111): the staged trip dropped first, then the active one abandoned or ended by its leg. -/

namespace Sys2Proof.Machine

section
variable {p : Chip} {h : HoistId} {t : Trip}

theorem Chip.massLostAboard_mass_self (m : MassId) :
    (p.massLostAboard m).mass m = { p.mass m with state := .missing, lastBay := none, hoist := none } := by
  rw [Chip.massLostAboard, Chip.notifyOrders_mass, Chip.updMass_mass_self]

theorem Chip.massLostAboard_unchangedBut (m : MassId) : p.unchangedBut (p.massLostAboard m) [.masses, .orders] :=
  Chip.updMass_notifyOrders_unchangedBut _ _ _

/-- The part in which the mass of a loaded trip is lost and its bays are dealt with, before the trip ends (R111). -/
def Chip.loadLost (p : Chip) (h : HoistId) (t : Trip) : Chip :=
  ((p.massLostAboard t.mass).giveUpDestination h .active t.destination).barClearedSource h t.source

theorem Chip.abandonLoaded_eq : p.abandonLoaded h t = (p.loadLost h t).endActive h := rfl

theorem Chip.loadLost_hoist : (p.loadLost h t).hoist h = p.hoist h := by
  have cleared := Chip.barClearedSource_unchangedBut
    (p := (p.massLostAboard t.mass).giveUpDestination h .active t.destination) (h := h) t.source
  have lost : (p.massLostAboard t.mass).hoists = p.hoists := Chip.massLostAboard_unchangedBut t.mass .hoists (by decide)
  rw [Chip.loadLost, Chip.hoist, cleared .hoists (by decide)]
  show Chip.hoist _ h = _
  rw [Chip.giveUpDestination_hoist, Chip.hoist, lost]
  rfl

theorem Chip.abandonLoaded_mass : (p.abandonLoaded h t).mass t.mass =
    { p.mass t.mass with state := .missing, lastBay := none, hoist := none } := by
  have cleared := Chip.barClearedSource_unchangedBut
    (p := (p.massLostAboard t.mass).giveUpDestination h .active t.destination) (h := h) t.source
  have masses : (p.abandonLoaded h t).masses = (p.massLostAboard t.mass).masses := by
    rw [Chip.abandonLoaded_eq, Chip.endActive_masses]
    exact (cleared .masses (by decide)).trans (Chip.giveUpDestination_masses _ _ _ _)
  rw [← Chip.massLostAboard_mass_self]
  unfold Chip.mass
  rw [masses]

/-- Without a staged trip an active one that ends leaves the slots empty, and the hoist IDLE or FAULTED. -/
theorem Chip.endActive_unstaged (unstaged : (p.hoist h).staged = none) :
    ((p.endActive h).hoist h).active = none ∧ ((p.endActive h).hoist h).staged = none ∧
    ((p.endActive h).hoist h).phase = (if (p.hoist h).phase = .faulted then .faulted else .idle) ∧
    ((p.endActive h).hoist h).latchCommand = (p.hoist h).latchCommand := by
  obtain ⟨active, staged, phase⟩ := Chip.activeEnded_unstaged (p.activeEnded_endActive h) unstaged
  exact ⟨active, staged, phase, (p.endActive_hoist_kept h).2 (.inl unstaged)⟩

/-- The phase reply of a FAULTED hoist is kept through the end of its trip (R86, R111). -/
theorem Chip.endActive_phaseReply_of_faulted (faulted : (p.hoist h).phase = .faulted) :
    ((p.endActive h).hoist h).phaseReply = (p.hoist h).phaseReply := by
  rw [p.endActive_of_faulted h faulted, Chip.updHoist_hoist_self]
  rfl

/-- Of a stopped hoist only a HALTED one becomes IDLE by the end of its trip. -/
theorem Phase.ended_of_stopped {phase : Phase} (stopped : phase = .faulted ∨ phase = .halted) :
    (if phase = .faulted then Phase.faulted else .idle) = if phase = .halted then .idle else .faulted := by
  rcases stopped with e | e <;> simp [e]

/-! ### The abandonment, with the staged trip dropped -/

theorem Chip.abandonTrip_of_empty (empty : t.leg = .empty) :
    p.abandonTrip h t = (p.dropStaged h .returned).abandon h .discarded := by simp [Chip.abandonTrip, empty]

theorem Chip.abandonTrip_of_loaded (loaded : t.leg = .loaded) :
    p.abandonTrip h t = (p.dropStaged h .returned).abandonLoaded h t := by simp [Chip.abandonTrip, loaded]

/-- Of the dropped trip's mass no more than the state changes, so that a state given afterwards leaves no trace of the drop. -/
theorem Chip.dropStaged_mass_parked (fate : OrderFate) (m : MassId) :
    (p.dropStaged h fate).mass m = p.mass m ∨ (p.dropStaged h fate).mass m = { p.mass m with state := .parked } := by
  cases staged : (p.hoist h).staged with
  | none => exact .inl (Chip.dropStaged_mass_of_none fate staged m)
  | some x =>
    rw [Chip.dropStaged_mass fate staged]
    split
    · exact .inr rfl
    · exact .inl rfl

theorem Chip.abandonTrip_staged (active : (p.hoist h).active = some t) : ((p.abandonTrip h t).hoist h).staged = none := by
  have unstaged : ((p.dropStaged h .returned).hoist h).staged = none := by rw [Chip.dropStaged_hoist]
  cases leg : t.leg with
  | empty =>
    rw [Chip.abandonTrip_of_empty leg]
    exact Chip.abandon_unstaged .discarded (by rw [Chip.dropStaged_hoist, active]) unstaged
  | loaded =>
    rw [Chip.abandonTrip_of_loaded leg, Chip.abandonLoaded_eq]
    exact (Chip.endActive_unstaged (by rw [Chip.loadLost_hoist, unstaged])).2.1

/-- A loaded trip abandoned loses its mass, and the hoist keeps its latch command (R111). -/
theorem Chip.abandonTrip_loaded (loaded : t.leg = .loaded)
    (stopped : (p.hoist h).phase = .faulted ∨ (p.hoist h).phase = .halted) :
    (p.abandonTrip h t).mass t.mass = { p.mass t.mass with state := .missing, lastBay := none, hoist := none } ∧
    ((p.abandonTrip h t).hoist h).active = none ∧
    ((p.abandonTrip h t).hoist h).latchCommand = (p.hoist h).latchCommand ∧
    ((p.hoist h).phase = .faulted → ((p.abandonTrip h t).hoist h).phaseReply = (p.hoist h).phaseReply) ∧
    ((p.abandonTrip h t).hoist h).phase = (if (p.hoist h).phase = .halted then .idle else .faulted) := by
  have hoist : ((p.dropStaged h .returned).loadLost h t).hoist h = { p.hoist h with staged := none } := by
    rw [Chip.loadLost_hoist, Chip.dropStaged_hoist]
  obtain ⟨active, _, phase, latch⟩ := Chip.endActive_unstaged (p := (p.dropStaged h .returned).loadLost h t) (h := h)
    (by rw [hoist])
  rw [Chip.abandonTrip_of_loaded loaded]
  refine ⟨?_, active, ?_, fun faulted => ?_, ?_⟩
  · rw [Chip.abandonLoaded_mass]
    rcases Chip.dropStaged_mass_parked (p := p) (h := h) .returned t.mass with e | e <;> rw [e]
  · rw [Chip.abandonLoaded_eq, latch, hoist]
  · rw [Chip.abandonLoaded_eq, Chip.endActive_phaseReply_of_faulted (by rw [hoist]; exact faulted), hoist]
  · rw [Chip.abandonLoaded_eq, phase, hoist, Phase.ended_of_stopped stopped]

section
variable (empty : t.leg = .empty) (free : (p.hoist h).withdrawal = .none)
include empty free

/-- A trip in leg EMPTY that need not wait for its latch is abandoned at once (R103, R111). -/
theorem Chip.abandonTrip_at_once (active : (p.hoist h).active = some t) (noWait : (p.hoist h).waitsForLatch = false)
    (stopped : (p.hoist h).phase = .faulted ∨ (p.hoist h).phase = .halted) :
    (p.abandonTrip h t).mass t.mass = { p.mass t.mass with state := .parked } ∧
    ((p.abandonTrip h t).hoist h).active = none ∧
    ((p.abandonTrip h t).hoist h).latchCommand =
      (if (p.hoist h).workPhase = .engage then .opened else (p.hoist h).latchCommand) ∧
    ((p.abandonTrip h t).hoist h).phaseReply = none ∧
    ((p.abandonTrip h t).hoist h).phase = (if (p.hoist h).phase = .halted then .idle else .faulted) := by
  obtain ⟨q, def_q⟩ : ∃ q, q = p.dropStaged h .returned := ⟨_, rfl⟩
  have hoist : q.hoist h = { p.hoist h with staged := none } := by rw [def_q, Chip.dropStaged_hoist]
  have isActive : (q.hoist h).active = some t := by rw [hoist, active]
  have unstaged : (q.hoist h).staged = none := by rw [hoist]
  obtain ⟨ended, reply, latch⟩ := Chip.emptyEnded_completeAbandon .discarded false isActive
  obtain ⟨gone, _, phase⟩ := Chip.activeEnded_unstaged ended unstaged
  rw [Chip.abandonTrip_of_empty empty, ← def_q,
    Chip.abandon_at_once .discarded (by rw [hoist, free]) (by rw [hoist]; exact noWait)]
  refine ⟨?_, gone, ?_, reply, ?_⟩
  · rw [Chip.completeAbandon_mass_eq .discarded isActive, def_q]
    rcases Chip.dropStaged_mass_parked (p := p) (h := h) .returned t.mass with e | e <;> rw [e]
  · rw [latch (.inl unstaged), hoist]
    rfl
  · rw [phase, hoist, Phase.ended_of_stopped stopped]

/-- A trip in leg EMPTY that must wait for its latch opens it, and its abandonment is under way (R103). -/
theorem Chip.abandonTrip_waits (waits : (p.hoist h).waitsForLatch = true) : (p.abandonTrip h t).hoist h =
    { p.hoist h with staged := none, latchCommand := .opened, withdrawal := .abandon .discarded } := by
  rw [Chip.abandonTrip_of_empty empty, Chip.abandon_of_waiting .discarded (by rw [Chip.dropStaged_hoist, free])
    (by rw [Chip.dropStaged_hoist]; exact waits), Chip.updHoist_hoist_self, Chip.dropStaged_hoist]

end

/-! ### The checks (R111) -/

theorem abandonTrip_outOfRange {number : Nat} (far : 3 < number) : (abandonTrip number p).2 = refuse .range := by
  simp [abandonTrip, (hoistOf_eq_none_iff number).mpr far]

theorem abandonTrip_moving (notFaulted : (p.hoist h).phase ≠ .faulted) (notHalted : (p.hoist h).phase ≠ .halted) :
    (abandonTrip h.val p).2 = refuse .state := by
  simp [abandonTrip, hoistOf_val, notFaulted, notHalted]

section
variable (stopped : (p.hoist h).phase = .faulted ∨ (p.hoist h).phase = .halted)
include stopped

theorem abandonTrip_noTrip (noTrip : (p.hoist h).active = none) : (abandonTrip h.val p).2 = refuse .noSuch := by
  have passes : ¬((p.hoist h).phase ≠ .faulted ∧ (p.hoist h).phase ≠ .halted) := by tauto
  simp only [abandonTrip, hoistOf_val, if_neg passes, noTrip]

theorem abandonTrip_of_trip (active : (p.hoist h).active = some t) : abandonTrip h.val p =
    (p.abandonTrip h t, answerDone [BitVec.ofNat 8 h.val, BitVec.ofNat 8 ((p.abandonTrip h t).hoist h).phase.code,
      BitVec.ofNat 8 ((p.abandonTrip h t).hoist h).withdrawal.code]) := by
  have passes : ¬((p.hoist h).phase ≠ .faulted ∧ (p.hoist h).phase ≠ .halted) := by tauto
  simp only [abandonTrip, hoistOf_val, if_neg passes, active]
  rfl

end

end

/-- Settles O39: the staged trip is dropped, then the loaded trip is lost, and the empty one is abandoned or waits for its latch. -/
theorem abandonTripCompletes : Obligations.AbandonTripCompletes := by
  intro s h tr number
  refine ⟨fun hands stopped active => ?abandoned, fun hands far => hands.command_refused (abandonTrip_outOfRange far),
    fun hands => ?refused⟩
  case abandoned =>
    have frame : Chip.TripFrame h s.chip (s.chip.abandonTrip h tr) := .abandonTrip tr
    obtain ⟨t, next, pending, parts, others, ended, replied⟩ := hands.onTrips (abandonTrip_of_trip stopped active) rfl frame
      (Chip.unchangedBut_mono frame.unchangedBut
        (by decide : ∀ x ∈ _, x ∈ [Part.masses, .bays, .hoists, .selector, .orders, .power, .port])) (by decide)
    refine ⟨t, next, pending, parts, others, ?_, fun loaded => ?_, fun empty free noWait => ?_, fun empty free waits => ?_, ?_⟩
    all_goals rw [ended.hoist]
    · exact Chip.abandonTrip_staged active
    · rw [ended.mass]
      exact Chip.abandonTrip_loaded loaded stopped
    · rw [ended.mass]
      exact Chip.abandonTrip_at_once empty free active noWait stopped
    · simp [Chip.abandonTrip_waits empty free waits, active]
    · exact replied
  case refused =>
    obtain ⟨t, next, refused⟩ := hands.command_refusals (abandonTrip h.val s.chip)
    exact ⟨t, next, fun notFaulted notHalted => refused _ (abandonTrip_moving notFaulted notHalted),
      fun stopped noTrip => refused _ (abandonTrip_noTrip stopped noTrip)⟩

end Sys2Proof.Machine
end

section
/-! SUPPORT. CANCEL_ORDER (spec/05 R122): what holds the mass, and what is done about each holder. -/

namespace Sys2Proof.Machine

/-- A command handed over, carried out or refused: what its completion shows of the part that it made. -/
theorem State.Hands.concluded {s : State} {i : Instr} (hands : s.Hands i) {taken : Chip × Answer}
    (port : taken.1.port = s.chip.port) (refused : taken.2.status.isRefusal = true → taken.1 = s.chip) :
    ∃ t, s.command i taken = .next t ∧ t.pending = s.pending ∧ taken.1.ConcludedAs t.chip ∧
      (s.chip.unchangedBut taken.1 [.masses, .bays, .selector, .orders] → taken.1.unchangedBut t.chip [.port]) ∧
      s.chip.repliedWith t.chip taken.2 := by
  obtain ⟨f, inHand⟩ := hands.frame
  cases status : taken.2.status.isRefusal with
  | true =>
    have same : taken.1 = s.chip := refused status
    have replied : taken.1.unchangedBut (s.chip.reply taken.2) [.port] := by
      rw [same]
      exact Chip.reply_unchangedBut _ _
    refine ⟨_, s.command_of_refused i taken hands.handed status, rfl, ⟨Chip.unchangedBut_mono replied (by decide), fun h => ?_⟩,
      fun _ => replied, hands.kept.repliedWith_reply inHand taken.2⟩
    rw [Chip.reply_hoist, same, hands.kept.keptHoist]
  | false =>
    have done := s.command_of_done i taken hands.handed status
    exact ⟨_, done, rfl, (Chip.finish_concludedAs s.chip taken.1).portChanged (Chip.reply_unchangedBut _ _),
      fun quiet => Chip.unchangedBut_trans (hands.kept.finish_unchangedBut quiet) (Chip.reply_unchangedBut _ _),
      Chip.repliedWith_finish_reply inHand port taken.2⟩

/-! ### What holds a mass -/

theorem mem_hoistList : ∀ h : HoistId, h ∈ hoistList := by decide

/-- The first hoist that meets a test is the only one that does. -/
theorem hoistList_find_of_only {test : HoistId → Bool} {h : HoistId} (meets : test h = true)
    (only : ∀ k, test k = true → k = h) : hoistList.find? test = some h := by
  cases found : hoistList.find? test with
  | none => exact absurd meets (List.find?_eq_none.mp found h (mem_hoistList h))
  | some k => rw [only k (List.find?_some found)]

theorem hoistList_find_none {test : HoistId → Bool} (noOne : ∀ k, test k = false) : hoistList.find? test = none :=
  List.find?_eq_none.mpr fun k _ => by simp [noOne k]

theorem names_iff {t : Option Trip} {m : MassId} : names t m = true ↔ ∃ tr, t = some tr ∧ tr.mass = m := by
  cases t <;> simp [names]

theorem names_false_iff {t : Option Trip} {m : MassId} : names t m = false ↔ ∀ tr, t = some tr → tr.mass ≠ m := by
  cases t <;> simp [names]

section
variable {p : Chip} {m : MassId} {h : HoistId} {t : Trip}

theorem Chip.holderOf_queued {k : Nat} {o : Order} (here : p.orders.queue[k]? = some o) (named : o.mass = m)
    (first : ∀ (j : Nat) o', j < k → p.orders.queue[j]? = some o' → o'.mass ≠ m) : p.holderOf m = .queued k := by
  obtain ⟨inside, isHere⟩ := List.getElem?_eq_some_iff.mp here
  have found : p.orders.queue.findIdx? (fun o => decide (o.mass = m)) = some k :=
    List.findIdx?_eq_some_iff_getElem.mpr ⟨inside, by simp [isHere, named], fun j before => by
      simp [first j _ before (List.getElem?_eq_getElem (by omega))]⟩
  simp [Chip.holderOf, found]

section
variable (unqueued : p.queued m = false)
include unqueued

theorem Chip.queue_findIdx_none : p.orders.queue.findIdx? (fun o => decide (o.mass = m)) = none :=
  List.findIdx?_eq_none_iff.mpr fun o inQueue => by simpa using List.any_eq_false.mp unqueued o inQueue

theorem Chip.holderOf_staged (staged : (p.hoist h).staged = some t) (named : t.mass = m)
    (only : ∀ k tr, (p.hoist k).staged = some tr → tr.mass = m → k = h) : p.holderOf m = .staged h := by
  have found : hoistList.find? (fun k => names (p.hoist k).staged m) = some h :=
    hoistList_find_of_only (names_iff.mpr ⟨t, staged, named⟩) fun k meets => by
      obtain ⟨tr, isStaged, isNamed⟩ := names_iff.mp meets
      exact only k tr isStaged isNamed
  simp [Chip.holderOf, Chip.queue_findIdx_none unqueued, found]

variable (unstaged : ∀ k tr, (p.hoist k).staged = some tr → tr.mass ≠ m)
include unstaged

theorem Chip.holderOf_active (active : (p.hoist h).active = some t) (named : t.mass = m)
    (only : ∀ k tr, (p.hoist k).active = some tr → tr.mass = m → k = h) : p.holderOf m = .active h t := by
  have notStaged : hoistList.find? (fun k => names (p.hoist k).staged m) = none :=
    hoistList_find_none fun k => names_false_iff.mpr (unstaged k)
  have found : hoistList.find? (fun k => names (p.hoist k).active m) = some h :=
    hoistList_find_of_only (names_iff.mpr ⟨t, active, named⟩) fun k meets => by
      obtain ⟨tr, isActive, isNamed⟩ := names_iff.mp meets
      exact only k tr isActive isNamed
  simp [Chip.holderOf, Chip.queue_findIdx_none unqueued, notStaged, found, active]

theorem Chip.holderOf_nothing (inactive : ∀ k tr, (p.hoist k).active = some tr → tr.mass ≠ m) :
    p.holderOf m = .nothing := by
  have notStaged : hoistList.find? (fun k => names (p.hoist k).staged m) = none :=
    hoistList_find_none fun k => names_false_iff.mpr (unstaged k)
  have notActive : hoistList.find? (fun k => names (p.hoist k).active m) = none :=
    hoistList_find_none fun k => names_false_iff.mpr (inactive k)
  simp [Chip.holderOf, Chip.queue_findIdx_none unqueued, notStaged, notActive]

end

/-- The trip that the holder of a mass is given with is the active one. -/
theorem Chip.active_of_holderOf (holder : p.holderOf m = .active h t) : (p.hoist h).active = some t := by
  unfold Chip.holderOf at holder
  split at holder
  · cases holder
  · split at holder
    · cases holder
    · split at holder
      · split at holder
        · rename_i active
          obtain ⟨rfl, rfl⟩ := MassHolder.active.inj holder
          exact active
        · cases holder
      · cases holder

/-! ### The orders through a discard (R121, R122) -/

theorem Chip.endHeld_discarded_queue (slot : Slot) : (p.endHeld h slot .discarded).orders.queue = p.orders.queue := by
  unfold Chip.endHeld
  cases p.held h slot <;> simp

theorem Chip.endHeld_discarded_dropped (slot : Slot) : (p.endHeld h slot .discarded).orders.dropped = p.orders.dropped := by
  unfold Chip.endHeld
  cases p.held h slot <;> simp

theorem Chip.dropStaged_discarded :
    (p.dropStaged h .discarded).orders.queue = p.orders.queue ∧ (p.dropStaged h .discarded).orders.dropped = p.orders.dropped := by
  cases staged : (p.hoist h).staged with
  | none => simp [Chip.dropStaged, staged]
  | some x =>
    obtain ⟨q, def_q⟩ : ∃ q, q = (((p.updHoist h fun c => { c with staged := none }).massReleased x.mass).giveUpSource h
        .staged x.source).giveUpDestination h .staged x.destination := ⟨_, rfl⟩
    have orders : q.orders = p.orders := by rw [def_q]; simp
    rw [Chip.dropStaged_of_staged staged, ← def_q, Chip.endHeld_discarded_queue, Chip.endHeld_discarded_dropped, orders]
    exact ⟨rfl, rfl⟩

theorem Chip.abandon_discarded_dropped (active : (p.hoist h).active = some t) :
    (p.abandon h .discarded).orders.dropped = p.orders.dropped := by
  by_cases free : (p.hoist h).withdrawal = .none
  · cases waits : (p.hoist h).waitsForLatch with
    | true => simp [Chip.abandon_of_waiting .discarded free waits]
    | false =>
      rw [Chip.abandon_at_once .discarded free waits, Chip.completeAbandon_of_active .discarded false active,
        Chip.endEmpty_dropped, Chip.endHeld_discarded_dropped, Chip.abandonSettled_orders]
  · rw [Chip.abandon_of_withdrawn .discarded free]

/-! ### The cancellation by the holder -/

theorem cancelOrder_queued {k : Nat} (holder : p.holderOf m = .queued k) : cancelOrder (massNumber m) p =
    (p.removeOrder m, answerDone [0#8, BitVec.ofNat 8 k]) := by
  simp only [cancelOrder, massOf_massNumber, holder]
  rfl

theorem cancelOrder_staged (holder : p.holderOf m = .staged h) : cancelOrder (massNumber m) p =
    (p.cancelStaged h, answerDone [1#8, BitVec.ofNat 8 h.val]) := by
  simp only [cancelOrder, massOf_massNumber, holder]
  rfl

theorem cancelOrder_loaded (holder : p.holderOf m = .active h t) (loaded : t.leg = .loaded) :
    cancelOrder (massNumber m) p = (p, refuse .locked) := by
  simp only [cancelOrder, massOf_massNumber, holder, loaded]

/-- The flag of the reply tells whether the abandonment is under way (R122). -/
theorem cancelOrder_empty {waits : Bool} (holder : p.holderOf m = .active h t) (empty : t.leg = .empty)
    (wait : (decide ((p.hoist h).withdrawal ≠ .none) || (p.hoist h).waitsForLatch) = waits) : cancelOrder (massNumber m) p =
    (p.abandon h .discarded, answerDone [2#8, BitVec.ofNat 8 h.val, BitVec.ofNat 8 (flagCode waits)]) := by
  simp only [cancelOrder, massOf_massNumber, holder, empty, wait]
  rfl

theorem cancelOrder_nothing (holder : p.holderOf m = .nothing) : cancelOrder (massNumber m) p = (p, refuse .noSuch) := by
  simp only [cancelOrder, massOf_massNumber, holder]

/-- The part with the staged trip dropped by a cancellation, but for the selection request that a held order raises. -/
theorem Chip.dropStaged_cancelStaged : (p.dropStaged h .discarded).unchangedBut (p.cancelStaged h) [.selector] := by
  unfold Chip.cancelStaged
  split
  · exact Chip.request_unchangedBut _
  · exact Chip.unchangedBut_refl _ _

theorem Chip.TripFrame.cancelStaged : Chip.TripFrame h p (p.cancelStaged h) := by
  unfold Chip.cancelStaged
  split
  · exact (Chip.TripFrame.dropStaged .discarded).trans .request
  · exact .dropStaged .discarded

/-- A cancellation moves the trips of one hoist at most, refuses without effect, and counts no order as dropped. -/
theorem cancelOrder_scope : p.unchangedBut (cancelOrder (massNumber m) p).1 [.masses, .bays, .hoists, .selector, .orders] ∧
    ((cancelOrder (massNumber m) p).2.status.isRefusal = true → (cancelOrder (massNumber m) p).1 = p) ∧
    (cancelOrder (massNumber m) p).1.orders.dropped = p.orders.dropped := by
  cases holder : p.holderOf m with
  | queued k =>
    rw [cancelOrder_queued holder]
    refine ⟨fun x out => ?_, fun refused => Bool.noConfusion refused, rfl⟩
    cases x <;> simp at out <;> rfl
  | staged h =>
    rw [cancelOrder_staged holder]
    refine ⟨Chip.TripFrame.cancelStaged.unchangedBut, fun refused => Bool.noConfusion refused, ?_⟩
    exact (congrArg OrderQueue.dropped (Chip.dropStaged_cancelStaged (p := p) (h := h) .orders (by decide))).trans
      Chip.dropStaged_discarded.2
  | active h t =>
    cases leg : t.leg with
    | empty =>
      rw [cancelOrder_empty holder leg rfl]
      exact ⟨(Chip.TripFrame.abandon .discarded).unchangedBut, fun refused => Bool.noConfusion refused,
        Chip.abandon_discarded_dropped (Chip.active_of_holderOf holder)⟩
    | loaded =>
      rw [cancelOrder_loaded holder leg]
      exact ⟨p.unchangedBut_refl _, fun _ => rfl, rfl⟩
  | nothing =>
    rw [cancelOrder_nothing holder]
    exact ⟨p.unchangedBut_refl _, fun _ => rfl, rfl⟩

/-- What the cancellation of a staged trip leaves (R103, R122). -/
theorem Chip.cancelStaged_dropped (staged : (p.hoist h).staged = some t) :
    (p.cancelStaged h).hoist h = { p.hoist h with staged := none } ∧
    (p.cancelStaged h).mass t.mass = { p.mass t.mass with state := .parked } ∧
    (p.cancelStaged h).held h .staged = none ∧ (p.cancelStaged h).orders.queue = p.orders.queue := by
  have same := Chip.dropStaged_cancelStaged (p := p) (h := h)
  have orders : (p.cancelStaged h).orders = (p.dropStaged h .discarded).orders := same .orders (by decide)
  have hoists : (p.cancelStaged h).hoists = (p.dropStaged h .discarded).hoists := same .hoists (by decide)
  refine ⟨?_, ?_, ?_, ?_⟩
  · rw [Chip.hoist, hoists]
    exact Chip.dropStaged_hoist .discarded
  · rw [same.mass (by decide), Chip.dropStaged_mass .discarded staged, if_pos rfl]
  · rw [(p.dropStaged h .discarded).held_of_orders orders, Chip.dropStaged_of_staged staged, Chip.endHeld_held,
      if_pos ⟨rfl, rfl⟩]
  · rw [orders, Chip.dropStaged_discarded.1]

end

/-- Settles O32: the first queued order, else the one hoist whose staged trip, else whose active trip, names the mass is acted on. -/
theorem cancelOrderActsOnTheHolder : Obligations.CancelOrderActsOnTheHolder := by
  intro s m hands
  obtain ⟨scope, refused, dropped⟩ := cancelOrder_scope (p := s.chip) (m := m)
  obtain ⟨t, next, pending, ended, quiet, replied⟩ := hands.concluded (taken := cancelOrder (massNumber m) s.chip)
    (scope .port (by decide)) refused
  refine ⟨t, next, pending, Chip.unchangedBut_trans (Chip.unchangedBut_mono scope (by decide))
    (Chip.unchangedBut_mono ended.parts (by decide)), by rw [ended.orders, dropped], fun k o here named first => ?queued,
    fun unqueued => ⟨fun h tr staged named only => ?staged, fun unstaged => ⟨fun h tr active named only => ?active,
      fun inactive => ?nothing⟩⟩⟩
  case queued =>
    rw [cancelOrder_queued (Chip.holderOf_queued here named first)] at quiet replied
    have removed : s.chip.unchangedBut (s.chip.removeOrder m) [.orders, .selector] := fun x out => by
      cases x <;> simp at out <;> rfl
    have portOnly := quiet (Chip.unchangedBut_mono removed (by decide))
    have orders : t.chip.orders = (s.chip.removeOrder m).orders := portOnly .orders (by decide)
    have selector : t.chip.selector = (s.chip.removeOrder m).selector := portOnly .selector (by decide)
    exact ⟨Chip.unchangedBut_append removed portOnly, by rw [orders]; rfl, by rw [selector]; rfl, replied⟩
  case staged =>
    rw [cancelOrder_staged (Chip.holderOf_staged unqueued staged named only)] at ended replied
    obtain ⟨hoist, mass, held, queue⟩ := Chip.cancelStaged_dropped staged
    refine ⟨?_, ?_, ?_, ?_, ?_, replied⟩
    · rw [ended.hoist, Chip.keptHoist_staged, hoist]
    · rw [ended.hoist, Chip.keptHoist_active, hoist]
    · rw [ended.mass, ← named, mass]
    · rw [ended.held, held]
    · rw [ended.orders, queue]
  case active =>
    have holder := Chip.holderOf_active unqueued unstaged active named only
    refine ⟨fun loaded => ?_, fun empty withdrawn => ?_, fun empty free waits => ?_, fun empty free noWait => ?_⟩
    · rwa [cancelOrder_loaded holder loaded] at replied
    · rw [cancelOrder_empty (waits := true) holder empty (by simp [withdrawn]),
        Chip.abandon_of_withdrawn .discarded withdrawn] at quiet replied
      have portOnly := quiet (s.chip.unchangedBut_refl _)
      exact ⟨portOnly .hoists (by decide), portOnly .masses (by decide), replied⟩
    · rw [cancelOrder_empty (waits := true) holder empty (by simp [waits]),
        Chip.abandon_of_waiting .discarded free waits] at ended replied
      refine ⟨?_, ?_, ended.masses, replied⟩
      · rw [ended.hoist, Chip.keptHoist_withdrawal, Chip.updHoist_hoist_self]
      · rw [ended.hoist, Chip.keptHoist_latchCommand, Chip.updHoist_hoist_self]
    · rw [cancelOrder_empty (waits := false) holder empty (by simp [free, noWait]),
        Chip.abandon_at_once .discarded free noWait] at ended replied
      refine ⟨?_, ended.emptyEnded (Chip.emptyEnded_completeAbandon .discarded false active), replied⟩
      rw [ended.mass, ← named, Chip.completeAbandon_mass_eq .discarded active]
  case nothing =>
    rwa [cancelOrder_nothing (Chip.holderOf_nothing unqueued unstaged inactive)] at replied

end Sys2Proof.Machine
end

section
/-! SUPPORT. END_TRIPS_OF_ANOTHER_KIND (spec/05 R134): the staged trip first, then the active one. -/

namespace Sys2Proof.Machine

section
variable {p : Chip} {h : HoistId} {t : Trip} {m : MassId} {mode : PlantMode}

/-! ### The masses through an abandonment -/

theorem Chip.completeAbandon_mass_of_ne (fate : OrderFate) (active : (p.hoist h).active = some t) (ne : m ≠ t.mass) :
    (p.completeAbandon h fate false).mass m = p.mass m := by
  have masses : (p.completeAbandon h fate false).masses = (p.massReleased t.mass).masses := by
    simp [Chip.completeAbandon_of_active fate false active, Chip.abandonSettled]
  rw [Chip.mass, masses]
  exact p.updMass_mass_of_ne t.mass m (fun r => { r with state := .parked }) ne

/-- A PARKED mass stays PARKED through an abandonment. -/
theorem Chip.abandon_parked (fate : OrderFate) (parked : (p.mass m).state = .parked) :
    ((p.abandon h fate).mass m).state = .parked := by
  by_cases free : (p.hoist h).withdrawal = .none
  · cases waits : (p.hoist h).waitsForLatch with
    | true => rwa [Chip.abandon_of_waiting fate free waits]
    | false =>
      rw [Chip.abandon_at_once fate free waits]
      cases active : (p.hoist h).active with
      | none => simpa [Chip.completeAbandon, active] using parked
      | some x =>
        by_cases own : m = x.mass
        · rw [own, Chip.completeAbandon_mass_eq fate active]
        · rwa [Chip.completeAbandon_mass_of_ne fate active own]
  · rwa [Chip.abandon_of_withdrawn fate free]

/-! ### The staged trip -/

/-- The part in which hoist `h`'s staged trip has been dropped if it is of another kind than the mode (R134). -/
def Chip.otherKindDropped (p : Chip) (h : HoistId) (mode : PlantMode) : Chip :=
  match (p.hoist h).staged with
  | some t => if t.ofAnotherKind mode then p.dropStaged h .returned else p
  | none => p

theorem Chip.otherKindDropped_of_other (staged : (p.hoist h).staged = some t) (other : t.ofAnotherKind mode = true) :
    p.otherKindDropped h mode = p.dropStaged h .returned := by simp [Chip.otherKindDropped, staged, other]

theorem Chip.otherKindDropped_of_none (unstaged : (p.hoist h).staged = none) : p.otherKindDropped h mode = p := by
  simp [Chip.otherKindDropped, unstaged]

/-- Of the controller no more than the staged slot changes. -/
theorem Chip.otherKindDropped_hoist : ∃ x, (p.otherKindDropped h mode).hoist h = { p.hoist h with staged := x } := by
  unfold Chip.otherKindDropped
  split
  · split
    · exact ⟨none, Chip.dropStaged_hoist .returned⟩
    · exact ⟨_, rfl⟩
  · exact ⟨_, rfl⟩

/-! ### The active trip -/

theorem Chip.endOtherKind_none (noTrip : (p.hoist h).active = none) : p.endOtherKind h mode = p.otherKindDropped h mode := by
  obtain ⟨x, hoist⟩ := Chip.otherKindDropped_hoist (p := p) (h := h) (mode := mode)
  have noTripLeft : ((p.otherKindDropped h mode).hoist h).active = none := by rw [hoist, noTrip]
  unfold Chip.endOtherKind
  extract_lets q
  have taken : q = p.otherKindDropped h mode := rfl
  simp only [taken, noTripLeft]

theorem Chip.endOtherKind_some (active : (p.hoist h).active = some t) : p.endOtherKind h mode =
    if t.ofAnotherKind mode && decide (t.leg = .empty) then (p.otherKindDropped h mode).abandon h .discarded
    else p.otherKindDropped h mode := by
  obtain ⟨x, hoist⟩ := Chip.otherKindDropped_hoist (p := p) (h := h) (mode := mode)
  have isActive : ((p.otherKindDropped h mode).hoist h).active = some t := by rw [hoist, active]
  unfold Chip.endOtherKind
  extract_lets q
  have taken : q = p.otherKindDropped h mode := rfl
  simp only [taken, isActive]

/-- A staged trip of another kind is dropped, whatever becomes of the active one. -/
theorem Chip.endOtherKind_staged (staged : (p.hoist h).staged = some t) (other : t.ofAnotherKind mode = true) :
    ((p.endOtherKind h mode).hoist h).staged = none ∧ ((p.endOtherKind h mode).mass t.mass).state = .parked := by
  have dropped := Chip.otherKindDropped_of_other staged other
  have unstaged : ((p.dropStaged h .returned).hoist h).staged = none := by rw [Chip.dropStaged_hoist]
  have parked : ((p.dropStaged h .returned).mass t.mass).state = .parked := by
    rw [Chip.dropStaged_mass .returned staged, if_pos rfl]
  cases active : (p.hoist h).active with
  | none =>
    rw [Chip.endOtherKind_none active, dropped]
    exact ⟨unstaged, parked⟩
  | some x =>
    rw [Chip.endOtherKind_some active, dropped]
    split
    · exact ⟨Chip.abandon_unstaged .discarded (by rw [Chip.dropStaged_hoist, active]) unstaged,
        Chip.abandon_parked .discarded parked⟩
    · exact ⟨unstaged, parked⟩

section
variable (active : (p.hoist h).active = some t)
include active

theorem Chip.endOtherKind_kept (keeps : t.ofAnotherKind mode = false ∨ t.leg = .loaded) :
    ((p.endOtherKind h mode).hoist h).active = some t := by
  obtain ⟨x, hoist⟩ := Chip.otherKindDropped_hoist (p := p) (h := h) (mode := mode)
  have keep : ¬(t.ofAnotherKind mode && decide (t.leg = .empty)) = true := by
    rcases keeps with e | e <;> simp [e]
  rw [Chip.endOtherKind_some active, if_neg keep, hoist, active]

variable (other : t.ofAnotherKind mode = true) (empty : t.leg = .empty) (free : (p.hoist h).withdrawal = .none)
include other empty free

theorem Chip.endOtherKind_at_once (noWait : (p.hoist h).waitsForLatch = false) :
    p.endOtherKind h mode = (p.otherKindDropped h mode).completeAbandon h .discarded false := by
  obtain ⟨x, hoist⟩ := Chip.otherKindDropped_hoist (p := p) (h := h) (mode := mode)
  rw [Chip.endOtherKind_some active, if_pos (by simp [other, empty]),
    Chip.abandon_at_once .discarded (by rw [hoist, free]) (by rw [hoist]; exact noWait)]

theorem Chip.endOtherKind_abandoned (noWait : (p.hoist h).waitsForLatch = false) :
    ((p.endOtherKind h mode).mass t.mass).state = .parked ∧
    ((p.hoist h).staged = none → p.emptyEnded (p.endOtherKind h mode) h) := by
  obtain ⟨x, hoist⟩ := Chip.otherKindDropped_hoist (p := p) (h := h) (mode := mode)
  rw [Chip.endOtherKind_at_once active other empty free noWait]
  refine ⟨by rw [Chip.completeAbandon_mass_eq .discarded (by rw [hoist, active])], fun unstaged => ?_⟩
  rw [Chip.otherKindDropped_of_none unstaged]
  exact Chip.emptyEnded_completeAbandon .discarded false active

theorem Chip.endOtherKind_waits (waits : (p.hoist h).waitsForLatch = true) :
    ((p.endOtherKind h mode).hoist h).active = some t ∧
    ((p.endOtherKind h mode).hoist h).withdrawal = .abandon .discarded ∧
    ((p.endOtherKind h mode).hoist h).latchCommand = .opened := by
  obtain ⟨x, hoist⟩ := Chip.otherKindDropped_hoist (p := p) (h := h) (mode := mode)
  rw [Chip.endOtherKind_some active, if_pos (by simp [other, empty]),
    Chip.abandon_of_waiting .discarded (by rw [hoist, free]) (by rw [hoist]; exact waits), Chip.updHoist_hoist_self, hoist]
  exact ⟨active, rfl, rfl⟩

end

/-! ### The mode change request -/

/-- The part in which the mode change requests that wait at hoist `h` are these. -/
def Chip.withModeRequests (p : Chip) (h : HoistId) (requests : List PlantMode) : Chip :=
  { p with power := { p.power with modeRequests := p.power.modeRequests.set h requests } }

theorem Chip.withModeRequests_unchangedBut (requests : List PlantMode) :
    p.unchangedBut (p.withModeRequests h requests) [.power] := by
  intro x out
  cases x <;> simp at out <;> rfl

theorem Chip.takeModeRequest_of_waiting {rest : List PlantMode} (waits : p.power.modeRequests.get h = mode :: rest) :
    p.takeModeRequest h = (p.withModeRequests h rest).endOtherKind h mode := by
  unfold Chip.takeModeRequest
  rw [waits]
  rfl

/-- The trips described from the part with the request taken are those of the part before it. -/
theorem Chip.withModeRequests_sameTrips (requests : List PlantMode) : Chip.SameTrips h p (p.withModeRequests h requests) :=
  ⟨rfl, rfl, rfl, rfl, rfl, rfl, fun _ => rfl⟩

end

/-- Settles O36: of the hoist's trips those of the mode's kind, and a loaded one, are kept. -/
theorem endTripsOfAnotherKindCompletes : Obligations.EndTripsOfAnotherKindCompletes := by
  intro s h mode rest kept waits
  obtain ⟨p, def_p⟩ : ∃ p, p = s.chip.withModeRequests h rest := ⟨_, rfl⟩
  have hoist : p.hoist h = s.chip.hoist h := by rw [def_p]; rfl
  have same : Chip.SameTrips h s.chip p := by rw [def_p]; exact Chip.withModeRequests_sameTrips rest
  have first : s.chip.unchangedBut p [.power] := by rw [def_p]; exact Chip.withModeRequests_unchangedBut rest
  have frame : Chip.TripFrame h p (p.endOtherKind h mode) := .endOtherKind mode
  have next : exec (.endTripsOfAnotherKind h) s = .next { s with chip := s.chip.finish (p.endOtherKind h mode) } := by
    show s.event _ _ = _
    rw [State.event_of _ _ _ (by simp [waits]), Chip.takeModeRequest_of_waiting waits, ← def_p]
  have ended := Chip.finish_concludedAs s.chip (p.endOtherKind h mode)
  refine ⟨_, next, rfl, Chip.unchangedBut_trans (Chip.unchangedBut_mono (Chip.unchangedBut_append first frame.unchangedBut)
    (by decide)) (Chip.unchangedBut_mono ended.parts (by decide)), ?_, fun tr staged other => ?_, fun tr active keeps => ?_,
    fun tr active other empty free noWait => ?_, fun tr active other empty free waiting => ?_⟩
  · rw [Chip.finish_modeRequests, frame.power, def_p]
    exact Quad.get_set_self _ _ _
  · rw [← hoist] at staged
    rw [ended.hoist, ended.mass]
    exact Chip.endOtherKind_staged staged other
  · rw [← hoist] at active
    rw [ended.hoist]
    exact Chip.endOtherKind_kept active keeps
  · rw [← hoist] at active free noWait
    obtain ⟨parked, emptyEnded⟩ := Chip.endOtherKind_abandoned active other empty free noWait
    refine ⟨by rw [ended.mass]; exact parked, fun unstaged => ended.emptyEnded ?_⟩
    exact same.emptyEnded (by rw [hoist]) (by rw [hoist]) (emptyEnded (by rw [hoist, unstaged]))
  · rw [← hoist] at active free waiting
    rw [ended.hoist]
    exact Chip.endOtherKind_waits active other empty free waiting

end Sys2Proof.Machine
end

section
/-! SUPPORT. RESTART at a Hoist Controller (spec/05 R113; spec/10 R189): what it makes of the hoist's trips, what it tallies, and the reply that the
last of the six owners sends. -/

namespace Sys2Proof.Machine

/-! ### What the end of a trip leaves of the accepted level and the late-approach count -/

section
variable {p : Chip} {h : HoistId} {t : Trip}

theorem Chip.endActive_lateApproach : ((p.endActive h).hoist h).lateApproach = (p.hoist h).lateApproach := by
  rcases p.endActive_cases h with ⟨_, e⟩ | ⟨_, _, e⟩ | ⟨t, _, _, e⟩ <;> rw [e]
  · simp [HoistCtl.cleared]
  · simp [Chip.enterPhase, HoistCtl.cleared]
  · rw [Chip.promote_hoist]
    unfold Chip.promoted
    simp only [Chip.updHoist_hoist_self]
    split
    · rfl
    · split <;> rfl

theorem Chip.completeAbandon_lateApproach (fate : OrderFate) (mismatch : Bool) :
    ((p.completeAbandon h fate mismatch).hoist h).lateApproach = (p.hoist h).lateApproach := by
  cases active : (p.hoist h).active with
  | none => simp [Chip.completeAbandon, active]
  | some t =>
    rw [Chip.completeAbandon_of_active fate mismatch active, Chip.endEmpty, Chip.endActive_lateApproach,
      Chip.updHoist_hoist_self, Chip.endHeld_hoist, Chip.abandonSettled_hoist]

/-! ### An abandonment asked for by RESTART -/

theorem Chip.abandon_keeps (fate : OrderFate) : ((p.abandon h fate).hoist h).latchLevel = (p.hoist h).latchLevel ∧
    ((p.abandon h fate).hoist h).lateApproach = (p.hoist h).lateApproach := by
  by_cases free : (p.hoist h).withdrawal = .none
  · cases waits : (p.hoist h).waitsForLatch with
    | true =>
      rw [Chip.abandon_of_waiting fate free waits, Chip.updHoist_hoist_self]
      exact ⟨rfl, rfl⟩
    | false =>
      rw [Chip.abandon_at_once fate free waits]
      exact ⟨p.completeAbandon_latchLevel h fate false, Chip.completeAbandon_lateApproach fate false⟩
  · rw [Chip.abandon_of_withdrawn fate free]
    exact ⟨rfl, rfl⟩

theorem Chip.abandon_discarded_queue (active : (p.hoist h).active = some t) :
    (p.abandon h .discarded).orders.queue = p.orders.queue := by
  by_cases free : (p.hoist h).withdrawal = .none
  · cases waits : (p.hoist h).waitsForLatch with
    | true => simp [Chip.abandon_of_waiting .discarded free waits]
    | false =>
      rw [Chip.abandon_at_once .discarded free waits, Chip.completeAbandon_of_active .discarded false active,
        Chip.endEmpty_queue, Chip.endHeld_discarded_queue, Chip.abandonSettled_orders]
  · rw [Chip.abandon_of_withdrawn .discarded free]

/-- Of the controller no more than the withdrawal changes where the fate of the order becomes a discard. -/
theorem Chip.discardAtCompletion_hoist : ∃ x, (p.discardAtCompletion h).hoist h = { p.hoist h with withdrawal := x } ∧
    (∀ fate, (p.hoist h).withdrawal = .abandon fate → x = .abandon .discarded) ∧
    ((p.hoist h).withdrawal = .none ∨ (p.hoist h).withdrawal = .mismatch → x = (p.hoist h).withdrawal) := by
  rw [Chip.discardAtCompletion, Chip.updHoist_hoist_self]
  refine ⟨_, rfl, fun fate e => by simp only [e], ?_⟩
  rintro (e | e) <;> simp only [e]

/-! ### A loaded trip halted by RESTART -/

theorem Chip.restartLoaded_of_moving (moving : (p.hoist h).phase = .travel ∨ (p.hoist h).phase = .dwell ∨
    (p.hoist h).phase = .approach ∨ (p.hoist h).phase = .release) :
    p.restartLoaded h = p.haltHoist h .restart (p.hoist h).phase := by
  rcases moving with e | e | e | e <;> simp only [Chip.restartLoaded, e]

theorem Chip.restartLoaded_of_halted (halted : (p.hoist h).phase = .halted) :
    p.restartLoaded h = p.updActive h fun t => { t with haltCause := some .restart } := by
  simp only [Chip.restartLoaded, halted]

theorem Chip.restartLoaded_of_standing (phase : (p.hoist h).phase = .idle ∨ (p.hoist h).phase = .engage ∨
    (p.hoist h).phase = .faulted) : p.restartLoaded h = p := by
  rcases phase with e | e | e <;> simp only [Chip.restartLoaded, e]

theorem Chip.haltHoist_keeps (cause : HaltCause) (resume : Phase) :
    ((p.haltHoist h cause resume).hoist h).staged = (p.hoist h).staged ∧
    ((p.haltHoist h cause resume).hoist h).latchLevel = (p.hoist h).latchLevel ∧
    ((p.haltHoist h cause resume).hoist h).lateApproach = (p.hoist h).lateApproach ∧
    (p.haltHoist h cause resume).orders = p.orders := by
  simp [Chip.haltHoist, Chip.updActive, Chip.stopRef, Chip.enterPhase]

theorem Chip.restartLoaded_keeps : ((p.restartLoaded h).hoist h).staged = (p.hoist h).staged ∧
    ((p.restartLoaded h).hoist h).latchLevel = (p.hoist h).latchLevel ∧
    ((p.restartLoaded h).hoist h).lateApproach = (p.hoist h).lateApproach ∧ (p.restartLoaded h).orders = p.orders := by
  cases phase : (p.hoist h).phase with
  | travel | dwell | approach | release =>
    rw [Chip.restartLoaded_of_moving (by simp [phase])]
    exact Chip.haltHoist_keeps _ _
  | halted =>
    rw [Chip.restartLoaded_of_halted phase]
    simp [Chip.updActive]
  | idle | engage | faulted =>
    rw [Chip.restartLoaded_of_standing (by simp [phase])]
    exact ⟨rfl, rfl, rfl, rfl⟩

/-! ### What RESTART does to the trips -/

/-- The order that the active trip holds is not the staged trip's. -/
theorem Chip.dropStaged_held_active (fate : OrderFate) : (p.dropStaged h fate).held h .active = p.held h .active := by
  cases staged : (p.hoist h).staged with
  | none => simp [Chip.dropStaged, staged]
  | some x =>
    rw [Chip.dropStaged_of_staged staged, Chip.endHeld_held, if_neg (by simp)]
    exact p.held_of_orders (by simp) h .active

theorem Chip.restartTrips_none (noTrip : (p.hoist h).active = none) : p.restartTrips h = p.dropStaged h .discarded := by
  have gone : ((p.dropStaged h .discarded).hoist h).active = none := by rw [Chip.dropStaged_hoist, noTrip]
  simp only [Chip.restartTrips, gone]

section
variable (active : (p.hoist h).active = some t)
include active

theorem Chip.restartTrips_empty (empty : t.leg = .empty) :
    p.restartTrips h = ((p.dropStaged h .discarded).abandon h .discarded).discardAtCompletion h := by
  have isActive : ((p.dropStaged h .discarded).hoist h).active = some t := by rw [Chip.dropStaged_hoist, active]
  simp only [Chip.restartTrips, isActive, empty]

theorem Chip.restartTrips_loaded (loaded : t.leg = .loaded) :
    p.restartTrips h = (p.dropStaged h .discarded).restartLoaded h := by
  have isActive : ((p.dropStaged h .discarded).hoist h).active = some t := by rw [Chip.dropStaged_hoist, active]
  simp only [Chip.restartTrips, isActive, loaded]

end

theorem Chip.TripFrame.discardAtCompletion : Chip.TripFrame h p (p.discardAtCompletion h) := .updHoist _

theorem Chip.TripFrame.restartTrips : Chip.TripFrame h p (p.restartTrips h) := by
  have first : Chip.TripFrame h p (p.dropStaged h .discarded) := .dropStaged .discarded
  cases active : (p.hoist h).active with
  | none =>
    rw [Chip.restartTrips_none active]
    exact first
  | some t =>
    cases leg : t.leg with
    | empty =>
      rw [Chip.restartTrips_empty active leg]
      exact (first.trans (.abandon .discarded)).trans .discardAtCompletion
    | loaded =>
      rw [Chip.restartTrips_loaded active leg]
      exact first.trans .restartLoaded

/-- What RESTART leaves of the hoist and the orders whatever its trips: no staged trip, the level and the count as they were, and no order
back in the list nor counted as dropped (R113, R136). -/
theorem Chip.restartTrips_keeps : ((p.restartTrips h).hoist h).staged = none ∧
    ((p.restartTrips h).hoist h).latchLevel = (p.hoist h).latchLevel ∧
    ((p.restartTrips h).hoist h).lateApproach = (p.hoist h).lateApproach ∧
    (p.restartTrips h).orders.queue = p.orders.queue ∧ (p.restartTrips h).orders.dropped = p.orders.dropped := by
  obtain ⟨d, def_d⟩ : ∃ d, d = p.dropStaged h .discarded := ⟨_, rfl⟩
  have hoist : d.hoist h = { p.hoist h with staged := none } := by rw [def_d, Chip.dropStaged_hoist]
  obtain ⟨queue, dropped⟩ : d.orders.queue = p.orders.queue ∧ d.orders.dropped = p.orders.dropped := by
    rw [def_d]
    exact Chip.dropStaged_discarded
  have unstaged : (d.hoist h).staged = none := by rw [hoist]
  cases active : (p.hoist h).active with
  | none =>
    rw [Chip.restartTrips_none active, ← def_d, hoist]
    exact ⟨rfl, rfl, rfl, queue, dropped⟩
  | some t =>
    have isActive : (d.hoist h).active = some t := by rw [hoist, active]
    cases leg : t.leg with
    | empty =>
      obtain ⟨latch, late⟩ := Chip.abandon_keeps (p := d) (h := h) .discarded
      obtain ⟨x, discard, _⟩ := Chip.discardAtCompletion_hoist (p := d.abandon h .discarded) (h := h)
      have orders : ((d.abandon h .discarded).discardAtCompletion h).orders = (d.abandon h .discarded).orders := rfl
      rw [Chip.restartTrips_empty active leg, ← def_d, discard, orders]
      refine ⟨Chip.abandon_unstaged .discarded isActive unstaged, latch.trans ?_, late.trans ?_,
        (Chip.abandon_discarded_queue isActive).trans queue, (Chip.abandon_discarded_dropped isActive).trans dropped⟩ <;>
        rw [hoist]
    | loaded =>
      obtain ⟨staged, latch, late, orders⟩ := Chip.restartLoaded_keeps (p := d) (h := h)
      rw [Chip.restartTrips_loaded active leg, ← def_d, staged, latch, late, orders, hoist]
      exact ⟨rfl, rfl, rfl, queue, dropped⟩

/-! ### The part in which a Hoist Controller has taken RESTART -/

/-- The part in which hoist `h` has taken RESTART, but for the tallies (R113). -/
def Chip.restarted (p : Chip) (h : HoistId) : Chip := (p.restartTrips h).restartItems h (p.hoist h).phase

theorem Chip.restarted_hoist : (p.restarted h).hoist h = { (p.restartTrips h).hoist h with
    holdMode := .none
    noBay := ((p.restartTrips h).hoist h).noBay &&
      decide ((p.hoist h).phase = .halted ∧ ((p.restartTrips h).hoist h).phase = .halted) } := by
  rw [Chip.restarted, Chip.restartItems, Chip.updHoist_hoist_self]

theorem Chip.TripFrame.restarted : Chip.TripFrame h p (p.restarted h) :=
  Chip.TripFrame.trans .restartTrips (by unfold Chip.restarted Chip.restartItems; exact .updHoist _)

/-- The end of a trip is described alike with another hold mode and with NO_BAY no. -/
theorem Chip.emptyEnded_of_items {q r : Chip} {mode : HoldMode} (ended : p.emptyEnded q h)
    (hoist : r.hoist h = { q.hoist h with holdMode := mode, noBay := false }) (orders : r.orders = q.orders) :
    p.emptyEnded r h := by
  obtain ⟨⟨withdrawal, speed, _, trips⟩, reply, latch⟩ := ended
  unfold Chip.emptyEnded Chip.activeEnded
  simp only [hoist, q.held_of_orders orders]
  exact ⟨⟨withdrawal, speed, trivial, trips⟩, reply, latch⟩

section
variable (active : (p.hoist h).active = some t)
include active

/-- A loaded trip under way is HALTED with cause RESTART, to resume in its phase (R113). -/
theorem Chip.restarted_moving (loaded : t.leg = .loaded) (moving : (p.hoist h).phase = .travel ∨ (p.hoist h).phase = .dwell ∨
    (p.hoist h).phase = .approach ∨ (p.hoist h).phase = .release) :
    ((p.restarted h).hoist h).phase = .halted ∧ ((p.restarted h).hoist h).speedRef = 0 ∧ ((p.restarted h).hoist h).active =
      some { t with resumePhase := some (p.hoist h).phase, haltCause := some .restart } := by
  have hoist := Chip.dropStaged_hoist (p := p) (h := h) .discarded
  rw [Chip.restarted_hoist, Chip.restartTrips_loaded active loaded, Chip.restartLoaded_of_moving (by rw [hoist]; exact moving),
    Chip.haltHoist_hoist _ _ t _ _ (by rw [hoist, active]), hoist]
  exact ⟨rfl, rfl, rfl⟩

/-- A loaded trip HALTED before takes the cause, and keeps its NO_BAY indication (R113). -/
theorem Chip.restarted_halted (loaded : t.leg = .loaded) (halted : (p.hoist h).phase = .halted) :
    ((p.restarted h).hoist h).phase = .halted ∧
    ((p.restarted h).hoist h).active = some { t with haltCause := some .restart } ∧
    ((p.restarted h).hoist h).noBay = (p.hoist h).noBay := by
  have trips : (p.restartTrips h).hoist h =
      { p.hoist h with staged := none, active := some { t with haltCause := some .restart } } := by
    have hoist := Chip.dropStaged_hoist (p := p) (h := h) .discarded
    rw [Chip.restartTrips_loaded active loaded, Chip.restartLoaded_of_halted (by rw [hoist, halted]), Chip.updActive,
      Chip.updHoist_hoist_self, hoist, active]
    rfl
  rw [Chip.restarted_hoist, trips]
  simp [halted]

section
variable (empty : t.leg = .empty)
include empty

/-- A trip in leg EMPTY that need not wait for its latch is abandoned at once (R103, R113). -/
theorem Chip.restarted_at_once (free : (p.hoist h).withdrawal = .none) (noWait : (p.hoist h).waitsForLatch = false) :
    ((p.restarted h).mass t.mass).state = .parked ∧ ((p.hoist h).staged = none → p.emptyEnded (p.restarted h) h) ∧
    ((p.restarted h).hoist h).active = none := by
  obtain ⟨d, def_d⟩ : ∃ d, d = p.dropStaged h .discarded := ⟨_, rfl⟩
  have hoist : d.hoist h = { p.hoist h with staged := none } := by rw [def_d, Chip.dropStaged_hoist]
  have isActive : (d.hoist h).active = some t := by rw [hoist, active]
  have ended : d.emptyEnded (d.completeAbandon h .discarded false) h := Chip.emptyEnded_completeAbandon .discarded false isActive
  have trips : p.restartTrips h = (d.completeAbandon h .discarded false).discardAtCompletion h := by
    rw [Chip.restartTrips_empty active empty, ← def_d,
      Chip.abandon_at_once .discarded (by rw [hoist, free]) (by rw [hoist]; exact noWait)]
  obtain ⟨⟨withdrawal, _, noBay, _⟩, _⟩ := id ended
  obtain ⟨x, discard, _, same⟩ := Chip.discardAtCompletion_hoist (p := d.completeAbandon h .discarded false) (h := h)
  have after : (p.restarted h).hoist h = { (d.completeAbandon h .discarded false).hoist h with holdMode := .none, noBay := false } := by
    rw [Chip.restarted_hoist, trips, discard, same (.inl withdrawal), noBay, Bool.false_and]
  refine ⟨?_, fun unstaged => ?_, ?_⟩
  · have masses : (p.restarted h).mass t.mass = (d.completeAbandon h .discarded false).mass t.mass := by
      rw [Chip.restarted, trips]
      rfl
    rw [masses, Chip.completeAbandon_mass_eq .discarded isActive]
  · have noDrop : d = p := by simp [def_d, Chip.dropStaged, unstaged]
    rw [noDrop] at ended after trips
    exact Chip.emptyEnded_of_items ended after (by rw [Chip.restarted, trips]; rfl)
  · rw [after]
    exact (Chip.activeEnded_unstaged ended.1 (by rw [hoist])).1

/-- A trip in leg EMPTY that must wait for its latch waits with its order to be discarded (R103, R113, R136). -/
theorem Chip.restarted_waits (free : (p.hoist h).withdrawal = .none) (waits : (p.hoist h).waitsForLatch = true) :
    ((p.restarted h).hoist h).active = some t ∧ ((p.restarted h).hoist h).phase = (p.hoist h).phase ∧
    ((p.restarted h).hoist h).latchCommand = .opened ∧ ((p.restarted h).hoist h).withdrawal = .abandon .discarded ∧
    (p.restarted h).held h .active = p.held h .active := by
  obtain ⟨d, def_d⟩ : ∃ d, d = p.dropStaged h .discarded := ⟨_, rfl⟩
  have hoist : d.hoist h = { p.hoist h with staged := none } := by rw [def_d, Chip.dropStaged_hoist]
  have held : d.held h .active = p.held h .active := by rw [def_d, Chip.dropStaged_held_active]
  obtain ⟨a, def_a⟩ : ∃ a, a = d.updHoist h fun c => { c with latchCommand := .opened, withdrawal := .abandon .discarded } :=
    ⟨_, rfl⟩
  have waiting : a.hoist h = { p.hoist h with staged := none, latchCommand := .opened, withdrawal := .abandon .discarded } := by
    rw [def_a, Chip.updHoist_hoist_self, hoist]
  have trips : p.restartTrips h = a.discardAtCompletion h := by
    rw [Chip.restartTrips_empty active empty, ← def_d,
      Chip.abandon_of_waiting .discarded (by rw [hoist, free]) (by rw [hoist]; exact waits), ← def_a]
  obtain ⟨x, discard, fate, _⟩ := Chip.discardAtCompletion_hoist (p := a) (h := h)
  have orders : (p.restarted h).orders = d.orders := by
    rw [Chip.restarted, trips, def_a]
    rfl
  rw [d.held_of_orders orders, Chip.restarted_hoist, trips, discard, waiting, fate .discarded (by rw [waiting])]
  exact ⟨active, rfl, rfl, rfl, held⟩

/-- A withdrawal under way stays one, an abandonment with its order to be discarded (R100, R113, R136). -/
theorem Chip.restarted_withdrawn (withdrawn : (p.hoist h).withdrawal ≠ .none) :
    ((p.restarted h).hoist h).active = some t ∧
    (∀ fate, (p.hoist h).withdrawal = .abandon fate → ((p.restarted h).hoist h).withdrawal = .abandon .discarded) ∧
    ((p.hoist h).withdrawal = .mismatch → ((p.restarted h).hoist h).withdrawal = .mismatch) := by
  have hoist := Chip.dropStaged_hoist (p := p) (h := h) .discarded
  obtain ⟨x, discard, fate, same⟩ := Chip.discardAtCompletion_hoist (p := p.dropStaged h .discarded) (h := h)
  rw [hoist] at fate same
  rw [Chip.restarted_hoist, Chip.restartTrips_empty active empty, Chip.abandon_of_withdrawn .discarded (by rw [hoist]; exact withdrawn),
    discard, hoist]
  exact ⟨active, fate, fun mismatch => (same (.inr mismatch)).trans mismatch⟩

end

end

end

/-! ### The tallies (R189) -/

section
variable (p : Chip) (h : HoistId) (w : RestartWork)

theorem RestartWork.complete_iff :
    w.complete = true ↔ w.queueDue = false ∧ w.powerDue = false ∧ ∀ k, w.hoistDue.get k = false := by
  have all : (∀ k ∈ hoistList, w.hoistDue.get k = false) ↔ ∀ k, w.hoistDue.get k = false :=
    ⟨fun each k => each k (mem_hoistList k), fun each k _ => each k⟩
  simp [RestartWork.complete, and_assoc, ← all]

/-- What the reply counts at a hoist, by the controller's items. -/
theorem Chip.restartTally_eq {empty : Bool} (isEmpty : empty = (p.hoist h).active.any fun t => decide (t.leg = .empty)) :
    p.restartTally h w = { w with
      hoistDue := w.hoistDue.set h false
      stagedDropped := w.stagedDropped + (if (p.hoist h).staged = none then 0 else 1)
      abandoned := w.abandoned + (if empty = true then 1 else 0)
      waiting := w.waiting + (if empty = true ∧ ((p.hoist h).withdrawal ≠ .none ∨ (p.hoist h).waitsForLatch = true) then 1 else 0)
      halted := w.halted + (if (p.hoist h).loaded = true ∧ ((p.hoist h).phase = .travel ∨ (p.hoist h).phase = .dwell ∨
        (p.hoist h).phase = .approach ∨ (p.hoist h).phase = .release ∨ (p.hoist h).phase = .halted) then 1 else 0) } := by
  subst isEmpty
  unfold Chip.restartTally
  cases active : (p.hoist h).active <;> cases staged : (p.hoist h).staged <;> simp [flagCode, active, staged]

/-- The RESTART under way has every owner taken but `h`, or waits for another. -/
theorem RestartWork.complete_set_iff (v : RestartWork) (queue : v.queueDue = w.queueDue) (power : v.powerDue = w.powerDue)
    (hoists : v.hoistDue = w.hoistDue.set h false) :
    v.complete = true ↔ w.queueDue = false ∧ w.powerDue = false ∧ ∀ k, k ≠ h → w.hoistDue.get k = false := by
  rw [RestartWork.complete_iff, queue, power, hoists]
  refine and_congr_right fun _ => and_congr_right fun _ => ⟨fun each k ne => ?_, fun each k => ?_⟩
  · have taken := each k
    rwa [Quad.get_set, if_neg ne] at taken
  · rw [Quad.get_set]
    split
    · rfl
    · exact each k ‹_›

/-! ### The reply of RESTART (R189, R195) -/

/-- A field of one byte. -/
theorem Chip.field_byte (v : Nat) : ∃ x, p.field 1 v = [x] ∧ (v < 256 → x = BitVec.ofNat 8 v) := by
  obtain ⟨x, one⟩ := List.length_eq_one_iff.mp (p.field_length 1 v)
  refine ⟨x, one, fun fits => ?_⟩
  rw [Chip.field, if_pos (by simpa using fits)] at one
  have read := Frame.number_bigEndian 1 v (by simpa using fits)
  rw [one] at read
  have value : x.toNat = v := by simpa [Frame.number, Frame.byte] using read
  rw [← value, BitVec.ofNat_toNat, BitVec.setWidth_eq]

theorem standsAt_of_byte {r : Frame} {i v : Nat} {x : Byte} (there : r.bytes.getD i 0 = x)
    (fits : v < 256 → x = BitVec.ofNat 8 v) : standsAt r i 1 v :=
  fun small => standsAt_byte (there.trans (fits (by simpa using small))) small

/-- The five tallies stand in the reply, each in its byte. -/
theorem Chip.restartResult_laidOut : standsAt (replyAt (resultBytes (p.restartResult w))) 6 1 w.discarded ∧
    standsAt (replyAt (resultBytes (p.restartResult w))) 7 1 w.stagedDropped ∧
    standsAt (replyAt (resultBytes (p.restartResult w))) 8 1 w.abandoned ∧
    standsAt (replyAt (resultBytes (p.restartResult w))) 9 1 w.waiting ∧
    standsAt (replyAt (resultBytes (p.restartResult w))) 10 1 w.halted ∧
    ∀ i ∈ List.range' 11 19, (replyAt (resultBytes (p.restartResult w))).byte i = 0 := by
  obtain ⟨a, discarded, isDiscarded⟩ := p.field_byte w.discarded
  obtain ⟨b, dropped, isDropped⟩ := p.field_byte w.stagedDropped
  obtain ⟨c, abandoned, isAbandoned⟩ := p.field_byte w.abandoned
  obtain ⟨d, waiting, isWaiting⟩ := p.field_byte w.waiting
  obtain ⟨e, halted, isHalted⟩ := p.field_byte w.halted
  simp only [Chip.restartResult, discarded, dropped, abandoned, waiting, halted]
  refine ⟨standsAt_of_byte rfl isDiscarded, standsAt_of_byte rfl isDropped, standsAt_of_byte rfl isAbandoned,
    standsAt_of_byte rfl isWaiting, standsAt_of_byte rfl isHalted, fun i within => ?_⟩
  obtain ⟨low, high⟩ := List.mem_range'_1.mp within
  interval_cases i <;> rfl

end

section
variable {p : Chip} {w : RestartWork} (underWay : p.port.restart = some w)
include underWay

theorem Chip.answerRestart_incomplete (waits : w.complete = false) : p.answerRestart = p := by
  simp [Chip.answerRestart, underWay, waits]

theorem Chip.answerRestart_complete (complete : w.complete = true) : p.answerRestart =
    ({ p with port := { p.port with restart := none } } : Chip).reply (answerDone (p.restartResult w)) := by
  simp [Chip.answerRestart, underWay, complete]

/-- With the last owner's taking the reply of RESTART is sent to the frame in hand. -/
theorem Chip.restartAnswered_answerRestart {before : Chip} (inHand : p.port.inHand = before.port.inHand)
    (complete : w.complete = true) : before.restartAnswered p.answerRestart w := by
  rw [Chip.answerRestart_complete underWay complete]
  refine ⟨Chip.reply_restart _ _, fun f isInHand => ⟨resultBytes (p.restartResult w), ?_, p.restartResult_laidOut w⟩⟩
  rw [Chip.reply_of_some { p with port := { p.port with restart := none } } _ f (inHand.trans isInHand)]
  rfl

end

theorem Chip.answerRestart_unchangedBut (p : Chip) : p.unchangedBut p.answerRestart [.port] := by
  unfold Chip.answerRestart
  split
  · exact p.unchangedBut_refl _
  · split
    · refine Chip.unchangedBut_trans (parts := [.port]) (fun x out => ?_) (Chip.reply_unchangedBut _ _)
      cases x <;> simp at out <;> rfl
    · exact p.unchangedBut_refl _

theorem Chip.updRestart_unchangedBut (p : Chip) (f : RestartWork → RestartWork) : p.unchangedBut (p.updRestart f) [.port] := by
  intro x out
  cases x <;> simp at out <;> rfl

/-- A Hoist Controller that has still to take RESTART takes it. -/
theorem State.restartPart_taken {s : State} {h : HoistId} {w : RestartWork} (underWay : s.chip.port.restart = some w)
    (due : w.hoistDue.get h = true) : exec (.restartHoist h) s =
      .next { s with chip := (s.chip.finish (s.chip.restartHoist h)).answerRestart } := by
  show s.restartPart (fun w => w.hoistDue.get h) (s.chip.restartHoist h) = _
  simp only [State.restartPart, underWay, due]
  rfl

/-- Settles O46: the trips by their legs and phases, and the reply where no other owner has still to take RESTART. -/
theorem restartHoistCompletes : Obligations.RestartHoistCompletes := by
  intro s h w kept underWay due
  obtain ⟨q, def_q⟩ : ∃ q, q = s.chip.restarted h := ⟨_, rfl⟩
  obtain ⟨e, def_e⟩ : ∃ e, e = s.chip.finish (s.chip.restartHoist h) := ⟨_, rfl⟩
  have frame : Chip.TripFrame h s.chip q := by rw [def_q]; exact .restarted
  have taken : s.chip.restartHoist h = q.updRestart (s.chip.restartTally h) := by rw [def_q]; rfl
  have concluded : q.ConcludedAs e := by
    rw [def_e, taken]
    exact ⟨Chip.unchangedBut_mono (Chip.unchangedBut_append (q.updRestart_unchangedBut _) (Chip.finish_unchangedBut _ _)) (by decide),
      fun k => Chip.finish_hoist _ _ k⟩
  have ended : q.ConcludedAs e.answerRestart := concluded.portChanged e.answerRestart_unchangedBut
  obtain ⟨unstaged, level, late, queue, dropped⟩ := Chip.restartTrips_keeps (p := s.chip) (h := h)
  have shown : e.answerRestart.hoist h = q.keptHoist h := ended.hoist h
  have next := State.restartPart_taken underWay due
  rw [← def_e] at next
  have items : q.hoist h = { (s.chip.restartTrips h).hoist h with
      holdMode := .none
      noBay := ((s.chip.restartTrips h).hoist h).noBay &&
        decide ((s.chip.hoist h).phase = .halted ∧ ((s.chip.restartTrips h).hoist h).phase = .halted) } := by
    rw [def_q, Chip.restarted_hoist]
  have orders : e.answerRestart.orders = (s.chip.restartTrips h).orders := by
    rw [ended.orders, def_q]
    rfl
  refine ⟨_, next, rfl, Chip.unchangedBut_trans (Chip.unchangedBut_mono frame.unchangedBut (by decide))
    (Chip.unchangedBut_mono ended.parts (by decide)), fun k ne => ?_, ?_, ?_, by rw [orders, dropped], by rw [orders, queue],
    ?_, ?_, fun tr active loaded moving => ?_, fun tr active loaded halted => ?_, fun tr active empty free noWait => ?_,
    fun tr active empty free waits => ?_, fun tr fate active empty withdrawn => ?_, fun tr active empty mismatch => ?_,
    fun empty now isEmpty isNow => ?_⟩
  · rw [ended.hoist, ← Chip.finish_hoist s.chip q]
    exact kept.finish_others_of_frame frame k ne
  · rw [shown, Chip.keptHoist_staged, items, unstaged]
  · rw [shown, Chip.keptHoist_holdMode, items]
  · rw [shown, Chip.keptHoist_latchLevel, items, level]
  · rw [shown, Chip.keptHoist_lateApproach, items, late]
  · obtain ⟨phase, speed, trip⟩ := Chip.restarted_moving active loaded moving
    rw [← def_q] at phase speed trip
    rw [shown]
    exact ⟨phase, Chip.brakeLaw_of_standing q h (by simp [phase]) (by simp [phase]), Chip.keptHoist_speedRef_zero q h speed, trip⟩
  · rw [shown, def_q]
    exact Chip.restarted_halted active loaded halted
  · obtain ⟨parked, emptyEnded, gone⟩ := Chip.restarted_at_once active empty free noWait
    rw [← def_q] at parked emptyEnded gone
    rw [ended.mass, shown]
    exact ⟨parked, fun unstaged => ended.emptyEnded (emptyEnded unstaged), gone⟩
  · rw [ended.held, shown, def_q]
    exact Chip.restarted_waits active empty free waits
  · obtain ⟨trip, discarded, _⟩ := Chip.restarted_withdrawn active empty (by simp [withdrawn])
    rw [shown, def_q]
    exact ⟨trip, discarded fate withdrawn⟩
  · obtain ⟨trip, _, kept⟩ := Chip.restarted_withdrawn active empty (by simp [mismatch])
    rw [shown, def_q]
    exact ⟨trip, kept mismatch⟩
  · have tally : e.port.restart = some now := by
      rw [def_e, Chip.finish_restart, taken, isNow, ← Chip.restartTally_eq s.chip h w isEmpty]
      show q.port.restart.map _ = _
      rw [frame.port, underWay]
      rfl
    have sending : e.port.sending = s.chip.port.sending := by
      rw [def_e, Chip.finish_sending, taken]
      show q.port.sending = _
      rw [frame.port]
    have inHand : e.port.inHand = s.chip.port.inHand := by
      rw [def_e, Chip.finish_inHand, taken]
      show q.port.inHand = _
      rw [frame.port]
    have complete := RestartWork.complete_set_iff h w now (by rw [isNow]) (by rw [isNow]) (by rw [isNow])
    refine ⟨fun waits => ?_, fun queue power others =>
      Chip.restartAnswered_answerRestart tally inHand (complete.mpr ⟨queue, power, others⟩)⟩
    have incomplete : now.complete = false := by
      rw [← Bool.not_eq_true, complete]
      rintro ⟨queue, power, others⟩
      rcases waits with due | due | ⟨k, ne, due⟩
      · simp [queue] at due
      · simp [power] at due
      · simp [others k ne] at due
    rw [Chip.answerRestart_incomplete tally incomplete]
    exact ⟨sending, tally⟩

end Sys2Proof.Machine
end

section
/-! SUPPORT. The expiries of a hoist's timers (spec/05 R96, R109): the timeout fault, and the re-target of a dwelling trip. -/

namespace Sys2Proof.Machine

section
variable {p : Chip} {h : HoistId} {t : Trip}

theorem Phase.timeoutCause_eq {phase : Phase} {cause : FaultCause} (timed : phase = .engage ∧ cause = .timeoutEngage ∨
    phase = .release ∧ cause = .timeoutRelease ∨ phase = .approach ∧ cause = .timeoutApproach) :
    phase.timeoutCause = some cause ∧ phase ≠ .faulted ∧ phase ≠ .halted := by
  rcases timed with ⟨rfl, rfl⟩ | ⟨rfl, rfl⟩ | ⟨rfl, rfl⟩ <;> exact ⟨rfl, by decide, by decide⟩

/-- The work phase of a hoist that is neither stopped nor faulted is its phase. -/
theorem HoistCtl.workPhase_of_working {c : HoistCtl} (notFaulted : c.phase ≠ .faulted) (notHalted : c.phase ≠ .halted) :
    c.workPhase = c.phase := by
  unfold HoistCtl.workPhase
  split
  · exact absurd ‹_› notHalted
  · exact absurd ‹_› notFaulted
  · rfl

theorem Chip.takeFault_hoist_of_working (cause : FaultCause) (detail : Option Nat) (notFaulted : (p.hoist h).phase ≠ .faulted)
    (notHalted : (p.hoist h).phase ≠ .halted) : (p.takeFault h cause detail).hoist h = { p.hoist h with
      phase := .faulted, staged := none, phaseReply := none, phaseTimer := none, dwellTimer := none, speedRef := 0
      active := (p.hoist h).active.map fun t => { t with resumePhase := none, haltCause := none }
      fault := { first := some cause, detail := detail, phaseAt := some (p.hoist h).phase, further := some 0,
                 count := satInc 255 (p.hoist h).fault.count } } := by
  rw [Chip.takeFault_hoist, HoistCtl.faultTaken, if_neg notFaulted, HoistCtl.workPhase_of_working notFaulted notHalted]

theorem Chip.ableLaw_of_faulted (faulted : (p.hoist h).phase = .faulted) : p.ableLaw h = false := by
  simp [Chip.ableLaw, faulted]

/-- A FAULTED hoist is a condition of the attention after the event (R187). -/
theorem Chip.finish_faultedHoist (before : Chip) (faulted : (p.hoist h).phase = .faulted) :
    (before.finish p).port.attention.faultedHoist = true := by
  rw [Chip.finish_attention, Chip.finish_conditions]
  exact List.any_eq_true.mpr ⟨h, mem_hoistList h, by simp [faulted]⟩

/-! ### The dwelling trip re-targeted (R96, R106) -/

section
variable (active : (p.hoist h).active = some t)
include active

theorem Chip.expireDwell_noBay (noBay : p.retargetBay h (p.unit h).elevation = none) : p.expireDwell h =
    (p.setNoBay h).updHoist h fun c => { c with dwellTimer := startTimer p.params.dwellLimit } := by
  simp [Chip.expireDwell, active, Chip.retargetFrom, noBay]

section
variable {b : BayId} (picked : p.retargetBay h (p.unit h).elevation = some b)
include picked

/-- In STANDBY the hoist travels on; in CHARGE and DISCHARGE it dwells on, with the timer started anew (R96). -/
theorem Chip.expireDwell_taken : p.expireDwell h =
    if p.power.mode = .standby then
      (p.takeDestination h t (p.unit h).elevation b p.power.mode.retargetKind).enterPhase h .travel
    else (p.takeDestination h t (p.unit h).elevation b p.power.mode.retargetKind).updHoist h fun c =>
      { c with dwellTimer := startTimer p.params.dwellLimit } := by
  have power := (Chip.TripFrame.takeDestination (h := h) (p := p) t (p.unit h).elevation b p.power.mode.retargetKind).power
  simp only [Chip.expireDwell, active, Chip.retargetFrom, picked, Option.map_some, power]
  cases p.power.mode <;> rfl

theorem Chip.expireDwell_bay : (p.expireDwell h).bay b =
    { p.bay b with state := .inbound, occupant := none, holder := some (h, .active) } := by
  rw [← Chip.takeDestination_bay_self p h t (p.unit h).elevation b p.power.mode.retargetKind (p.retargetBay_opened h b picked),
    Chip.expireDwell_taken active picked]
  split <;> rfl

/-- The controller after the re-target, but for the phase and the timer that the mode decides. -/
theorem Chip.expireDwell_trip : ((p.expireDwell h).hoist h).active = some (p.retargeted t (p.unit h).elevation b) ∧
    ((p.expireDwell h).hoist h).noBay = false := by
  rw [Chip.expireDwell_taken active picked]
  split
  · simp [Chip.enterPhase, Chip.takeDestination_hoist p h t _ b active]
  · simp [Chip.takeDestination_hoist p h t _ b active]

theorem Chip.expireDwell_standby (standby : p.power.mode = .standby) :
    ((p.expireDwell h).hoist h).phase = .travel ∧ ((p.expireDwell h).hoist h).dwellTimer = none := by
  rw [Chip.expireDwell_taken active picked, if_pos standby]
  simp [Chip.enterPhase]

theorem Chip.expireDwell_dwells (running : p.power.mode ≠ .standby) :
    ((p.expireDwell h).hoist h).phase = (p.hoist h).phase ∧
    ((p.expireDwell h).hoist h).dwellTimer = startTimer p.params.dwellLimit := by
  rw [Chip.expireDwell_taken active picked, if_neg running]
  simp [Chip.takeDestination_hoist p h t _ b active]

end

theorem Chip.expireDwell_unchangedBut : p.unchangedBut (p.expireDwell h) [.bays, .hoists, .selector] := by
  cases picked : p.retargetBay h (p.unit h).elevation with
  | none =>
    rw [Chip.expireDwell_noBay active picked, Chip.setNoBay]
    exact Chip.unchangedBut_mono (Chip.unchangedBut_append (Chip.updHoist_unchangedBut _ h _) (Chip.updHoist_unchangedBut _ h _))
      (by decide)
  | some b =>
    rw [Chip.expireDwell_taken active picked]
    split <;> exact Chip.unchangedBut_mono
      (Chip.unchangedBut_append Chip.takeDestination_unchangedBut (Chip.updHoist_unchangedBut _ h _)) (by decide)

end

/-- The kind of a re-targeted trip is the mode's (R106). -/
theorem Chip.retargeted_kind {mode : PlantMode} (zr : Nat) (b : BayId) (isMode : p.power.mode = mode) :
    (p.retargeted t zr b).kind = mode.retargetKind := by
  rw [← isMode]
  rfl

end

/-- Settles O60: a phase timer that has run out faults the hoist; a dwell timer that has run out re-targets its trip. -/
theorem timerExpiriesComplete : Obligations.TimerExpiriesComplete := by
  intro s h kept
  refine ⟨fun x cause timer out timed => ?phaseTimer, fun x tr timer out dwells active => ?dwellTimer⟩
  case phaseTimer =>
    obtain ⟨isCause, notFaulted, notHalted⟩ := Phase.timeoutCause_eq timed
    have next : exec (.phaseTimerExpiry h) s = .next { s with chip := s.chip.finish (s.chip.takeFault h cause none) } := by
      show s.event _ _ = _
      rw [State.event_of _ _ _ (by simp [expired, timer, out]), Chip.expirePhaseTimer, isCause]
    have frame : Chip.TripFrame h s.chip (s.chip.takeFault h cause none) := .takeFault cause none
    have hoist := Chip.takeFault_hoist_of_working cause none notFaulted notHalted
    have faulted : ((s.chip.takeFault h cause none).hoist h).phase = .faulted := by rw [hoist]
    have ended := Chip.finish_concludedAs s.chip (s.chip.takeFault h cause none)
    refine ⟨_, next, rfl, Chip.unchangedBut_trans (Chip.unchangedBut_mono frame.unchangedBut (by decide))
      (Chip.unchangedBut_mono ended.parts (by decide)), kept.finish_others_of_frame frame, ?_, ?_, ?_, ?_, ?_, ?_,
      Chip.stagedDropped_finish s.chip (s.chip.stagedDropped_takeFault cause none notFaulted), ?_, ?_, fun tr active => ?_,
      Chip.finish_faultedHoist s.chip faulted⟩
    all_goals rw [ended.hoist]
    · exact faulted
    · rw [Chip.keptHoist_fault, hoist]
    · rw [Chip.keptHoist_phaseTimer, hoist]
    · exact Chip.keptHoist_speedRef_zero _ h (by rw [hoist])
    · exact Chip.brakeLaw_of_standing _ h (by simp [faulted]) (by simp [faulted])
    · exact Chip.ableLaw_of_faulted faulted
    · rw [Chip.keptHoist_latchCommand, hoist]
    · rw [Chip.keptHoist_withdrawal, hoist]
    · rw [Chip.keptHoist_active, hoist, active]
      rfl
  case dwellTimer =>
    have next : exec (.dwellLimitExpiry h) s = .next { s with chip := s.chip.finish (s.chip.expireDwell h) } := by
      show s.event _ _ = _
      rw [State.event_of _ _ _ (by simp [expired, timer, out])]
    have frame : Chip.TripFrame h s.chip (s.chip.expireDwell h) := .expireDwell
    have ended := Chip.finish_concludedAs s.chip (s.chip.expireDwell h)
    refine ⟨_, next, rfl, Chip.unchangedBut_trans (Chip.unchangedBut_mono (Chip.expireDwell_unchangedBut active) (by decide))
      (Chip.unchangedBut_mono ended.parts (by decide)), kept.finish_others_of_frame frame,
      s.chip.retargetRule_retargetBay h _, fun noBay => ?_, fun b picked => ?_⟩
    · have hoist : (s.chip.expireDwell h).hoist h =
          { s.chip.hoist h with noBay := true, dwellTimer := startTimer s.chip.params.dwellLimit } := by
        rw [Chip.expireDwell_noBay active noBay, Chip.updHoist_hoist_self, Chip.setNoBay, Chip.updHoist_hoist_self]
      have bays : (s.chip.expireDwell h).bays = s.chip.bays := by
        rw [Chip.expireDwell_noBay active noBay]
        rfl
      rw [ended.hoist, ended.bays, bays]
      simp [hoist, active, dwells]
    · obtain ⟨trip, noBay⟩ := Chip.expireDwell_trip active picked
      rw [ended.hoist, ended.bay, Chip.expireDwell_bay active picked]
      refine ⟨rfl, rfl, noBay, ⟨_, trip, rfl, rfl, rfl, rfl, Chip.retargeted_kind _ b,
        Chip.retargeted_kind _ b, Chip.retargeted_kind _ b⟩, fun standby =>
        Chip.expireDwell_standby active picked standby, fun running => ?_⟩
      obtain ⟨phase, timer⟩ := Chip.expireDwell_dwells active picked running
      exact ⟨phase.trans dwells, timer⟩

end Sys2Proof.Machine
end

section
/-! SUPPORT. RESUME of one hoist (spec/05 R108): the phase re-entered, with the destination held or re-targeted first, and what its
reply tells. -/

namespace Sys2Proof.Machine

/-! ### The phase re-entered -/

/-- The phase in which a trip with this resume phase is resumed (R108). -/
def Phase.reentered (resume : Phase) : Phase :=
  match resume with
  | .engage => .engage
  | .release => .release
  | _ => .travel

/-- The phase timer with which a trip is resumed (R108). -/
def Phase.reentryTimer (resume : Phase) (x : PlantParams) : Option Timer :=
  match resume with
  | .engage => startTimer x.engageTo
  | .release => startTimer x.releaseTo
  | _ => none

section
variable {p : Chip} {h : HoistId} {t : Trip} {resume : Phase} {zr : Nat} {b : BayId}

theorem Phase.reentered_ne_halted : resume.reentered ≠ .halted := by cases resume <;> decide

theorem Chip.reenter_hoist : (p.reenter h resume).hoist h = { p.hoist h with
    phase := resume.reentered, phaseReply := none, phaseTimer := resume.reentryTimer p.params, dwellTimer := none
    active := (p.hoist h).active.map fun t => { t with resumePhase := none, haltCause := none } } := by
  cases resume <;> simp [Chip.reenter, Chip.enterPhase, Chip.updActive, Phase.reentered, Phase.reentryTimer]

theorem Chip.reenter_unchangedBut : p.unchangedBut (p.reenter h resume) [.hoists] := by
  intro x out
  cases resume <;> cases x <;> simp at out <;> rfl

theorem Chip.reenter_bay (k : BayId) : (p.reenter h resume).bay k = p.bay k :=
  Chip.reenter_unchangedBut.bay (by decide) k

/-- The re-entry of a phase is as the statements describe it, also where a destination has been taken before it. -/
theorem Chip.reentered_of_hoist {q : Chip} (latch : (q.hoist h).latchCommand = (p.hoist h).latchCommand)
    (reply : (q.hoist h).phaseReply = none) (phase : (q.hoist h).phase = resume.reentered)
    (timer : (q.hoist h).phaseTimer = resume.reentryTimer p.params) : p.reentered q h resume := by
  refine ⟨latch, reply, ?_, ?_, ?_⟩
  · rintro (rfl | rfl | rfl) <;> exact ⟨phase, timer⟩
  · rintro rfl
    exact ⟨phase, timer⟩
  · rintro rfl
    exact ⟨phase, timer⟩

/-- The re-entry of a phase shows at the end as the statements describe it. -/
theorem Chip.ConcludedAs.reentered {q d r : Chip} (ended : q.ConcludedAs r) (resumed : q = d.reenter h resume)
    (latch : (d.hoist h).latchCommand = (p.hoist h).latchCommand) (params : d.params = p.params) : p.reentered r h resume := by
  apply Chip.reentered_of_hoist <;> rw [ended.hoist, resumed]
  · rw [Chip.keptHoist_latchCommand, Chip.reenter_hoist, latch]
  · rw [Chip.keptHoist_phaseReply, Chip.reenter_hoist]
  · rw [Chip.keptHoist_phase, Chip.reenter_hoist]
  · rw [Chip.keptHoist_phaseTimer, Chip.reenter_hoist, params]

/-! ### One hoist resumed -/

theorem Chip.referenceElevation_eq :
    p.referenceElevation h t = if t.leg = .loaded then (p.unit h).elevation else p.elevationOf t.source := by
  unfold Chip.referenceElevation
  cases t.leg <;> rfl

section
variable (active : (p.hoist h).active = some t)
include active

theorem Chip.resumeHoist_held (stored : t.resumePhase = some resume)
    (held : p.holdsDestination h .active t.destination = true) : p.resumeHoist h = p.reenter h resume := by
  simp [Chip.resumeHoist, active, stored, held]

variable (unheld : p.holdsDestination h .active t.destination = false)
include unheld

theorem Chip.resumeHoist_retargeted (stored : t.resumePhase = some resume)
    (picked : p.retargetBay h (p.referenceElevation h t) = some b) : p.resumeHoist h =
      (p.takeDestination h t (p.referenceElevation h t) b p.power.mode.retargetKind).reenter h resume := by
  simp [Chip.resumeHoist, active, stored, unheld, Chip.retargetFrom, picked]

theorem Chip.resumeHoist_noBay (none_left : p.retargetBay h (p.referenceElevation h t) = none) :
    p.resumeHoist h = (p.setNoBay h).updActive h fun t => { t with haltCause := some .noBay } := by
  simp [Chip.resumeHoist, active, unheld, Chip.retargetFrom, none_left]

omit active in
/-- A destination taken where the trip held none changes no other bay. -/
theorem Chip.takeDestination_otherBaysSame (kind : TripKind) : p.otherBaysSame (p.takeDestination h t zr b kind) b := by
  intro k ne
  rw [Chip.takeDestination_bay_of_ne _ _ _ _ _ _ _ ne, Chip.giveUpDestination_of_not _ _ _ _ unheld]

end

/-- A resumption leaves the hoist HALTED with the cause NO_BAY, or neither HALTED nor with a halt cause. -/
theorem Chip.resumeHoist_haltCauseOf (active : (p.hoist h).active = some t) (stored : t.resumePhase = some resume)
    (halted : (p.hoist h).phase = .halted) :
    ((p.resumeHoist h).hoist h).phase = .halted ∧ (p.resumeHoist h).haltCauseOf h = some .noBay ∨
    ((p.resumeHoist h).hoist h).phase ≠ .halted ∧ (p.resumeHoist h).haltCauseOf h = none := by
  have reenters : ∀ {d : Chip} {x : Trip}, (d.hoist h).active = some x →
      ((d.reenter h resume).hoist h).phase ≠ .halted ∧ (d.reenter h resume).haltCauseOf h = none := fun isActive =>
    ⟨by rw [Chip.reenter_hoist]; exact Phase.reentered_ne_halted, by simp [Chip.haltCauseOf, Chip.reenter_hoist, isActive]⟩
  cases held : p.holdsDestination h .active t.destination with
  | true =>
    rw [Chip.resumeHoist_held active stored held]
    exact .inr (reenters active)
  | false =>
    cases picked : p.retargetBay h (p.referenceElevation h t) with
    | some b =>
      rw [Chip.resumeHoist_retargeted active held stored picked]
      exact .inr (reenters (by rw [Chip.takeDestination_hoist _ _ _ _ _ active]))
    | none =>
      rw [Chip.resumeHoist_noBay active held picked]
      exact .inl (by simp [Chip.haltCauseOf, Chip.updActive, Chip.setNoBay, active, halted])

theorem Chip.resumeHoist_unchangedBut : p.unchangedBut (p.resumeHoist h) [.bays, .hoists, .selector] := by
  unfold Chip.resumeHoist
  split
  · exact p.unchangedBut_refl _
  · extract_lets resume
    split
    · exact Chip.unchangedBut_mono Chip.reenter_unchangedBut (by decide)
    · split
      · rename_i taken
        obtain ⟨b, _, rfl⟩ := Option.map_eq_some_iff.mp taken
        exact Chip.unchangedBut_mono (Chip.unchangedBut_append Chip.takeDestination_unchangedBut Chip.reenter_unchangedBut)
          (by decide)
      · exact Chip.unchangedBut_mono
          (Chip.unchangedBut_append (Chip.updHoist_unchangedBut p h _) (Chip.updHoist_unchangedBut _ h _)) (by decide)

/-! ### The reply of RESUME (R195) -/

theorem HaltCause.code_lt (x : HaltCause) : x.code < 256 := by cases x <;> decide

theorem Phase.code_lt (x : Phase) : x.code < 256 := by cases x <;> decide

/-- A mask of the hoists in which one bit at most stands. -/
theorem maskOf_only (h : HoistId) (test : HoistId → Bool) :
    maskOf (hoistList.map fun k => decide (k = h) && test k) = if test h = true then 2 ^ h.val else 0 := by
  match h with
  | 0 | 1 | 2 | 3 => simp [hoistList, maskOf, flagCode]

/-- The reply to RESUME of one hoist: the bit of the hoist acted on, that of one that is left with a halt cause, its phase and its cause. -/
theorem Chip.resumeResult_one (q : Chip) (h : HoistId) {r : Frame}
    (isReply : r = replyAt (answerDone (q.resumeResult fun k => decide (k = h))).result) :
    r.byte 6 = 2 ^ h.val ∧ r.byte 7 = (if (q.haltCauseOf h).isSome = true then 2 ^ h.val else 0) ∧
    r.byte (8 + 2 * h.val) = (q.hoist h).phase.code ∧
    r.byte (9 + 2 * h.val) = ((q.haltCauseOf h).map HaltCause.code).getD 0 := by
  have phase := (q.hoist h).phase.code_lt
  have cause : ((q.haltCauseOf h).map HaltCause.code).getD 0 < 256 := by
    cases q.haltCauseOf h with
    | none => decide
    | some x => exact x.code_lt
  subst isReply
  refine ⟨?_, ?_, ?_⟩
  · match h with
    | 0 | 1 | 2 | 3 => rfl
  · have mask := maskOf_only h fun k => (q.haltCauseOf k).isSome
    show (BitVec.ofNat 8 (maskOf (hoistList.map fun k => decide (k = h) && (q.haltCauseOf k).isSome))).toNat = _
    rw [mask, BitVec.toNat_ofNat, Nat.mod_eq_of_lt]
    have small : 2 ^ h.val ≤ 2 ^ 3 := Nat.pow_le_pow_right (by decide) (by omega)
    split <;> omega
  · match h with
    | 0 | 1 | 2 | 3 => exact ⟨Nat.mod_eq_of_lt phase, Nat.mod_eq_of_lt cause⟩

/-- RESUME of a HALTED hoist with its link UP and the interlock closed is carried out. -/
theorem resume_one (closed : p.interlock = .closed) (resumable : p.resumable h = true) : Machine.resume h.val p =
    (p.resumeHoist h, answerDone ((p.resumeHoist h).resumeResult fun k => decide (k = h))) := by
  have passes : ¬(p.interlock = .opened ∨ p.resumable h = false) := by simp [closed, resumable]
  simp only [Machine.resume, hoistOrAllOf_val, if_neg passes]

end

/-- Settles O38: with the destination held or taken anew the phase is re-entered; without a bay the hoist stays HALTED with NO_BAY. -/
theorem resumeCompletes : Obligations.ResumeCompletes := by
  intro s h tr resume hands closed halted up active stored
  obtain ⟨q, def_q⟩ : ∃ q, q = s.chip.resumeHoist h := ⟨_, rfl⟩
  have made := resume_one closed (Chip.resumable_iff.mpr ⟨halted, up⟩)
  rw [← def_q] at made
  have change : s.chip.unchangedBut q [.bays, .hoists, .selector] := by rw [def_q]; exact Chip.resumeHoist_unchangedBut
  obtain ⟨t, next, pending, parts, others, ended, replied⟩ := hands.onTrips made rfl (by rw [def_q]; exact .resumeHoist)
    (Chip.unchangedBut_mono change (by decide : ∀ x ∈ _, x ∈ [Part.bays, .hoists, .selector, .power, .port])) (by decide)
  have zr_eq := Chip.referenceElevation_eq (p := s.chip) (h := h) (t := tr)
  obtain ⟨acted, left, phaseByte, causeByte⟩ := Chip.resumeResult_one q h rfl
  have outcome := Chip.resumeHoist_haltCauseOf active stored halted
  rw [← def_q] at outcome
  have shown : t.chip.hoist h = q.keptHoist h := ended.hoist h
  refine ⟨t, _, next, pending, parts, others, fun held => ?held, fun unheld zr isRef => ⟨s.chip.retargetRule_retargetBay h zr,
    fun b picked => ?taken, fun none_left => ?noBay⟩, replied, rfl, acted, ?_, fun stays => ?stays, fun leaves => ?leaves⟩
  case held =>
    have resumed : q = s.chip.reenter h resume := by rw [def_q, Chip.resumeHoist_held active stored held]
    refine ⟨?_, ended.reentered resumed rfl rfl, ?_⟩
    · rw [ended.bays, resumed]
      exact Chip.reenter_unchangedBut .bays (by decide)
    · rw [shown, Chip.keptHoist_active, resumed, Chip.reenter_hoist, active]
      rfl
  case taken =>
    rw [isRef, ← zr_eq] at picked ⊢
    obtain ⟨d, def_d⟩ : ∃ d, d = s.chip.takeDestination h tr (s.chip.referenceElevation h tr) b s.chip.power.mode.retargetKind :=
      ⟨_, rfl⟩
    have hoist : d.hoist h =
        { s.chip.hoist h with active := some (s.chip.retargeted tr (s.chip.referenceElevation h tr) b), noBay := false } := by
      rw [def_d, Chip.takeDestination_hoist _ _ _ _ _ active]
    have params : d.params = s.chip.params := by
      rw [def_d]
      exact (Chip.TripFrame.takeDestination _ _ _ _).params
    have resumed : q = d.reenter h resume := by
      rw [def_q, def_d, Chip.resumeHoist_retargeted active unheld stored picked]
    have bays : ∀ k, t.chip.bay k = d.bay k := fun k => by rw [ended.bay, resumed, Chip.reenter_bay]
    refine ⟨⟨?_, ?_⟩, fun k ne => ?_, ended.reentered resumed (by rw [hoist]) params, ?_⟩
    · rw [bays, def_d, Chip.takeDestination_bay_self _ _ _ _ _ _ (s.chip.retargetBay_opened h b picked)]
    · rw [shown, Chip.keptHoist_noBay, resumed, Chip.reenter_hoist, hoist]
    · rw [bays, def_d, Chip.takeDestination_otherBaysSame unheld _ k ne]
    · rw [shown, Chip.keptHoist_active, resumed, Chip.reenter_hoist, hoist]
      rfl
  case noBay =>
    rw [isRef, ← zr_eq] at none_left
    have resumed := Chip.resumeHoist_noBay active unheld none_left
    rw [← def_q] at resumed
    have hoist : q.hoist h = { s.chip.hoist h with noBay := true, active := some { tr with haltCause := some .noBay } } := by
      simp [resumed, Chip.updActive, Chip.setNoBay, active]
    refine ⟨?_, ?_, ?_, ?_⟩
    · rw [ended.bays, resumed]
      rfl
    all_goals rw [shown]
    · rw [Chip.keptHoist_phase, hoist, halted]
    · rw [Chip.keptHoist_noBay, hoist]
    · rw [Chip.keptHoist_active, hoist]
  case stays =>
    have cause : q.haltCauseOf h = some .noBay := by
      rcases outcome with ⟨_, cause⟩ | ⟨moves, _⟩
      · exact cause
      · exact absurd (by rwa [shown] at stays) moves
    rw [left, causeByte, cause]
    exact ⟨rfl, rfl⟩
  case leaves =>
    have cause : q.haltCauseOf h = none := by
      rcases outcome with ⟨stays, _⟩ | ⟨_, cause⟩
      · exact absurd (by rw [shown]; exact stays) leaves
      · exact cause
    rw [left, cause]
    rfl
  · rw [shown, Chip.keptHoist_phase, phaseByte]

end Sys2Proof.Machine
end

section
/-! SUPPORT. The phase tests (spec/05 R94 to R96) by themselves, and as a segment event makes them on a hoist that its checks leave
without a fault. -/

namespace Sys2Proof.Machine

section
variable {p : Chip} {h : HoistId} {t : Trip} {previous : Int}

/-! ### The tests phase by phase -/

theorem Chip.targetDistance_eq : p.targetDistance h t =
    apart (p.elevationOf (if t.leg = .empty then t.source else t.destination)) (p.unit h).elevation := by
  unfold Chip.targetDistance Trip.target
  cases t.leg <;> rfl

theorem TripKind.automatic_iff (kind : TripKind) : kind.automatic = true ↔ kind ≠ .directed := by cases kind <;> decide

/-- The controller that has stopped at the target of its leg (R95, R97, R101). -/
def HoistCtl.AtTarget (c : HoistCtl) (x : PlantParams) (t : Trip) : Prop :=
  c.speedRef = 0 ∧ c.phaseReply = none ∧
  (t.leg = .empty → c.phase = .engage ∧ c.latchCommand = .closed ∧ c.phaseTimer = startTimer x.engageTo) ∧
  (t.leg = .loaded → c.phase = .release ∧ c.latchCommand = .opened ∧ c.phaseTimer = startTimer x.releaseTo)

theorem Chip.approachTest_atTarget (near : p.targetDistance h t ≤ p.params.stopTol) :
    ((p.approachTest h t).hoist h).AtTarget p.params t := by
  rw [Chip.approachTest, if_pos near]
  cases leg : t.leg with
  | empty => simp [HoistCtl.AtTarget, Chip.enterEngage, Chip.enterPhase, Chip.stopRef, leg]
  | loaded => simp [HoistCtl.AtTarget, Chip.enterRelease, Chip.enterPhase, Chip.stopRef, leg]

theorem Chip.approachTest_away (far : p.params.stopTol < p.targetDistance h t) : p.approachTest h t = p := by
  rw [Chip.approachTest, if_neg (Nat.not_le.mpr far)]

theorem Chip.enterApproach_hoist : ((p.enterApproach h).hoist h).phase = .approach ∧
    ((p.enterApproach h).hoist h).phaseTimer = startTimer p.params.approachTo := by
  simp [Chip.enterApproach, Chip.enterPhase]

theorem Chip.enterDwell_hoist : ((p.enterDwell h).hoist h).phase = .dwell ∧
    ((p.enterDwell h).hoist h).dwellTimer = startTimer p.params.dwellLimit := by
  simp [Chip.enterDwell, Chip.enterPhase]

section
variable (active : (p.hoist h).active = some t)
include active

theorem Chip.phaseTest_of_approach (phase : (p.hoist h).phase = .approach) : p.phaseTest h previous = p.approachTest h t := by
  simp only [Chip.phaseTest, active, phase]

theorem Chip.phaseTest_of_dwell (phase : (p.hoist h).phase = .dwell) :
    p.phaseTest h previous = if p.power.share.get h ≠ 0 then p.enterPhase h .travel else p := by
  simp only [Chip.phaseTest, active, phase]

theorem Chip.phaseTest_of_standing (notTravel : (p.hoist h).phase ≠ .travel) (notApproach : (p.hoist h).phase ≠ .approach)
    (notDwell : (p.hoist h).phase ≠ .dwell) : p.phaseTest h previous = p := by
  cases phase : (p.hoist h).phase <;> simp_all [Chip.phaseTest]

section
variable (phase : (p.hoist h).phase = .travel)
include phase

theorem Chip.phaseTest_near (near : p.targetDistance h t ≤ p.params.approachDist) :
    p.phaseTest h previous = (p.enterApproach h).approachTest h t := by
  simp only [Chip.phaseTest, active, phase, Chip.travelTest, if_pos near]

theorem Chip.phaseTest_far (far : p.params.approachDist < p.targetDistance h t) : p.phaseTest h previous =
    if t.kind.automatic = true ∧ t.leg = .loaded ∧ p.power.share.get h = 0 ∧ p.referenceFor h previous .travel = 0 then
      p.enterDwell h else p := by
  simp only [Chip.phaseTest, active, phase, Chip.travelTest, if_neg (Nat.not_le.mpr far)]

end

/-- The phase tests do what R94 to R96 say. -/
theorem Chip.phaseMoved_phaseTest : p.phaseMoved h t (p.targetDistance h t)
    (decide (p.referenceFor h previous .travel = 0)) ((p.phaseTest h previous).hoist h) := by
  refine ⟨fun travel near away => ?_, fun tested near => ?_, fun travel far kind loaded share stopped => ?_, fun dwell share => ?_⟩
  · have stays : (p.enterApproach h).approachTest h t = p.enterApproach h := Chip.approachTest_away away
    rw [Chip.phaseTest_near active travel near, stays]
    exact Chip.enterApproach_hoist
  · rcases tested with approach | ⟨travel, inRange⟩
    · rw [Chip.phaseTest_of_approach active approach]
      exact Chip.approachTest_atTarget near
    · rw [Chip.phaseTest_near active travel inRange]
      exact Chip.approachTest_atTarget (p := p.enterApproach h) near
  · rw [Chip.phaseTest_far active travel far,
      if_pos ⟨(TripKind.automatic_iff _).mpr kind, loaded, share, of_decide_eq_true stopped⟩]
    exact Chip.enterDwell_hoist
  · rw [Chip.phaseTest_of_dwell active dwell, if_pos share]
    simp [Chip.enterPhase]

/-- Where R94 to R96 give no move the tests change nothing. -/
theorem Chip.phaseTest_of_phaseStays (stays : p.phaseStays h t (p.targetDistance h t)
    (decide (p.referenceFor h previous .travel = 0))) : p.phaseTest h previous = p := by
  unfold Chip.phaseStays at stays
  cases phase : (p.hoist h).phase with
  | travel =>
    rw [phase] at stays
    obtain ⟨far, noDwell⟩ := stays
    rw [Chip.phaseTest_far active phase far, if_neg]
    rintro ⟨automatic, loaded, share, stopped⟩
    rcases noDwell with directed | empty | shared | moving
    · exact (TripKind.automatic_iff _).mp automatic directed
    · exact absurd (empty.symm.trans loaded) (by decide)
    · exact shared share
    · exact of_decide_eq_false moving stopped
  | approach =>
    rw [phase] at stays
    rw [Chip.phaseTest_of_approach active phase, Chip.approachTest_away stays]
  | dwell =>
    rw [phase] at stays
    rw [Chip.phaseTest_of_dwell active phase, if_neg (not_not.mpr stays)]
  | idle | engage | release | halted | faulted =>
    exact Chip.phaseTest_of_standing active (by simp [phase]) (by simp [phase]) (by simp [phase])

end

/-! ### The reference 0 of a trip without a share (R148, R150) -/

/-- The ramp reaches 0 from within a step of it. -/
theorem ramp_zero_iff (step : Nat) (r : Int) : ramp step false r 0 = 0 ↔ r.natAbs ≤ step := by
  by_cases still : r = 0
  · simp [ramp, still]
  · have moving : 0 < r.natAbs := Int.natAbs_pos.mpr still
    have value : ramp step false r 0 = r.sign * ((r.natAbs - step : Nat) : Int) := by simp [ramp, moving]
    rw [value, mul_eq_zero, Int.sign_eq_zero_iff_zero, Int.natCast_eq_zero, Nat.sub_eq_zero_iff_le]
    simp [still]

/-- An automatic loaded trip without a share has the target speed 0 (R148). -/
theorem Chip.referenceFor_unshared (active : (p.hoist h).active = some t) (kind : t.kind ≠ .directed) (loaded : t.leg = .loaded)
    (share : p.power.share.get h = 0) : p.referenceFor h previous .travel =
      if p.brakeIn h .travel = .set then 0 else ramp (p.hp h).aStep false previous 0 := by
  have speed : p.travelSpeed h t = 0 := by
    cases e : t.kind <;> simp_all [Chip.travelSpeed, speedFromShare]
  simp only [Chip.referenceFor, active, speed]
  simp

/-! ### The checks of a segment event that leave no fault -/

theorem Chip.atHeight_from (p : Chip) (h : HoistId) : Chip.SegmentStep h p (p.atHeight h) :=
  ((p.atMarkers_step h).trans (p.atOverspeed_step h)).trans (p.atHeight_step h)

/-- The controller of a hoist that the checks of its segment event leave without a fault. -/
theorem Chip.atHeight_of_notFaulted (notFaulted : ((p.atHeight h).hoist h).phase ≠ .faulted) :
    p.linkFaults h = false ∧ (p.atHeight h).hoist h =
      { (p.hoist h).segmentTaken with checkSpeed := p.checkNow h, overspeedRun := p.runNow h } := by
  have height := p.atHeight_hoist h
  rw [height] at notFaulted ⊢
  have checked : p.atOverspeed h = p.speedChecked h := by
    rw [p.atOverspeed_eq]
    split
    · rename_i both
      obtain ⟨first, second⟩ := both
      exact absurd (by rw [p.atOverspeed_hoist_of_fault h first second, HoistCtl.faultTaken_phase]) notFaulted
    · rfl
  rw [checked, p.speedChecked_hoist] at notFaulted ⊢
  have marked : (p.atMarkers h).hoist h = (p.atClosed h).hoist h := by
    rcases p.atMarkers_hoist h with same | ⟨zb, _, _, fault⟩
    · exact same
    · exact absurd (by rw [fault]; exact HoistCtl.faultTaken_phase _ _ _) notFaulted
  rw [marked] at notFaulted ⊢
  cases faults : p.linkFaults h with
  | true => exact absurd (by rw [p.atClosed_hoist, if_pos faults]; exact HoistCtl.faultTaken_phase _ _ _) notFaulted
  | false =>
    rw [p.atClosed_hoist, if_neg (by simp [faults])]
    exact ⟨rfl, rfl⟩

/-- A link that is UP and not at its timeout is UP after the closing of the segment (R157, R159). -/
theorem LinkPort.atSegment_up {l : LinkPort} {timeout : Nat} (up : l.state = .up)
    (few : ¬(l.segmentReply = false ∧ timeout ≤ satInc 255 l.missed ∧ l.closedAhead = false)) :
    (l.atSegment timeout).state = .up := by
  unfold LinkPort.atSegment
  split
  · exact up
  · rename_i notAhead
    cases reply : l.segmentReply with
    | true => simp [LinkPort.closeSegment, LinkPort.leaveDown, up, reply]
    | false =>
      have below : ¬timeout ≤ satInc 255 l.missed := fun enough => few ⟨reply, enough, by simpa using notAhead⟩
      simp [LinkPort.closeSegment, LinkPort.leaveDown, LinkPort.closedMissed, LinkPort.raiseMissed, up, reply, below]

/-- A hoist in TRAVEL that moved before the event has its brake released at the tests (R93, R152). -/
theorem Chip.Kept.atHeight_released (kept : p.Kept) (travel : (p.hoist h).phase = .travel)
    (moving : (p.hoist h).speedRef ≠ 0) (notFaulted : ((p.atHeight h).hoist h).phase ≠ .faulted) :
    (p.atHeight h).brakeIn h .travel ≠ .set := by
  obtain ⟨noLink, hoist⟩ := Chip.atHeight_of_notFaulted notFaulted
  have released : p.brakeIn h .travel ≠ .set := fun set =>
    moving (kept.stopped h (by rw [kept.brake, Chip.brakeLaw, travel, set]))
  have conditions : (p.link h).state = .up ∧ p.interlock = .closed ∧
      ((p.hoist h).loaded = true ∨ (p.hoist h).latchLevel = some .opened) := by
    by_contra no
    exact released (by simp [Chip.brakeIn, no])
  obtain ⟨up, closed, carries⟩ := conditions
  have timely : p.timeoutReached h = false := by simpa [Chip.linkFaults, travel] using noLink
  have step := p.atHeight_from h
  have link : ((p.atHeight h).link h).state = .up := by
    rw [p.atHeight_link, p.atOverspeed_link, p.atMarkers_link, p.atClosed_link]
    exact LinkPort.atSegment_up up (by simpa [Chip.timeoutReached, up] using timely)
  have interlock : (p.atHeight h).interlock = .closed := by
    rw [Chip.interlock, step.parts .sensors (by decide)]
    exact closed
  have stillCarries : ((p.atHeight h).hoist h).loaded = true ∨ ((p.atHeight h).hoist h).latchLevel = some .opened := by
    rw [hoist, HoistCtl.segmentTaken_eq]
    exact carries
  simp [Chip.brakeIn, link, interlock, stillCarries]

/-! ### The tests read off from another part, and for the controller at the end of the event -/

/-- That a hoist stopped counts for a trip that may dwell only (R96). -/
theorem Chip.phaseMoved_congr {q : Chip} {d : Nat} {stopped stopped' : Bool} {c c' : HoistCtl} (moved : q.phaseMoved h t d stopped' c')
    (phase : (q.hoist h).phase = (p.hoist h).phase) (params : q.params = p.params) (power : q.power = p.power)
    (same : (p.hoist h).phase = .travel → t.kind ≠ .directed → t.leg = .loaded → p.power.share.get h = 0 →
      stopped' = stopped)
    (items : c.phase = c'.phase ∧ c.phaseTimer = c'.phaseTimer ∧ c.dwellTimer = c'.dwellTimer ∧
      c.phaseReply = c'.phaseReply ∧ c.latchCommand = c'.latchCommand)
    (still : c.phase ≠ .travel → c.phase ≠ .approach → c.speedRef = 0) : p.phaseMoved h t d stopped c := by
  obtain ⟨itsPhase, phaseTimer, dwellTimer, reply, latch⟩ := items
  obtain ⟨approaches, stops, dwells, leaves⟩ := moved
  simp only [phase, params, power, ← itsPhase, ← phaseTimer, ← dwellTimer, ← reply, ← latch] at approaches stops dwells leaves
  refine ⟨approaches, fun tested near => ?_, fun travel far kind loaded share isStopped => ?_, leaves⟩
  · obtain ⟨_, noReply, engages, releases⟩ := stops tested near
    refine ⟨?_, noReply, engages, releases⟩
    cases leg : t.leg with
    | empty => exact still (by simp [engages leg]) (by simp [engages leg])
    | loaded => exact still (by simp [releases leg]) (by simp [releases leg])
  · exact dwells travel far kind loaded share ((same travel kind loaded share).trans isStopped)

theorem Chip.phaseStays_congr {q : Chip} {d : Nat} {stopped stopped' : Bool} (stays : p.phaseStays h t d stopped)
    (phase : (q.hoist h).phase = (p.hoist h).phase) (params : q.params = p.params) (power : q.power = p.power)
    (same : (p.hoist h).phase = .travel → t.kind ≠ .directed → t.leg = .loaded → p.power.share.get h = 0 →
      stopped' = stopped) : q.phaseStays h t d stopped' := by
  unfold Chip.phaseStays at stays ⊢
  rw [phase, params, power]
  cases isPhase : (p.hoist h).phase with
  | idle | approach | dwell | engage | release | halted | faulted =>
    rw [isPhase] at stays
    exact stays
  | travel =>
    rw [isPhase] at stays
    obtain ⟨far, noDwell⟩ := stays
    refine ⟨far, ?_⟩
    by_cases mayDwell : t.kind ≠ .directed ∧ t.leg = .loaded ∧ p.power.share.get h = 0
    · obtain ⟨kind, loaded, share⟩ := mayDwell
      rwa [same isPhase kind loaded share]
    · have empty_of : t.leg ≠ .loaded → t.leg = .empty := by cases t.leg <;> decide
      tauto

theorem Chip.referenceFor_of_standing {phase : Phase} (notTravel : phase ≠ .travel) (notApproach : phase ≠ .approach) :
    p.referenceFor h previous phase = 0 :=
  p.referenceFor_of_set h previous phase (by simp [Chip.brakeIn, notTravel, notApproach])

/-- Without a share the reference of the tests is 0 exactly where the reference before was within a step of it (R150, R152). -/
theorem Chip.Kept.atHeight_stopped (kept : p.Kept) (active : (p.hoist h).active = some t)
    (notFaulted : ((p.atHeight h).hoist h).phase ≠ .faulted) (travel : (p.hoist h).phase = .travel) (kind : t.kind ≠ .directed)
    (loaded : t.leg = .loaded) (share : p.power.share.get h = 0) :
    (p.atHeight h).referenceFor h (p.hoist h).speedRef .travel = 0 ↔ (p.hoist h).speedRef.natAbs ≤ (p.hp h).aStep := by
  obtain ⟨_, hoist⟩ := Chip.atHeight_of_notFaulted notFaulted
  have step := p.atHeight_from h
  have isActive : ((p.atHeight h).hoist h).active = some t := by rw [hoist, HoistCtl.segmentTaken_eq, active]
  rw [Chip.referenceFor_unshared isActive kind loaded (by rw [step.power, share]), step.hp]
  by_cases still : (p.hoist h).speedRef = 0
  · simp [still, ramp]
  · rw [if_neg (kept.atHeight_released travel still notFaulted), ramp_zero_iff]

/-- What a segment event that leaves the hoist without a fault makes of its phase. -/
theorem Chip.Kept.afterSegment_phase (kept : p.Kept) (active : (p.hoist h).active = some t)
    (notFaulted : ((p.afterSegment h).hoist h).phase ≠ .faulted) {d : Nat} {stopped : Bool}
    (distance : d = apart (p.elevationOf (if t.leg = .empty then t.source else t.destination)) ((p.afterSegment h).unit h).elevation)
    (isStopped : stopped = decide ((p.hoist h).speedRef.natAbs ≤ (p.hp h).aStep)) :
    p.phaseMoved h t d stopped ((p.afterSegment h).hoist h) ∧
    (p.phaseStays h t d stopped → ((p.afterSegment h).hoist h).phase = (p.hoist h).phase ∧
      ((p.afterSegment h).hoist h).phaseTimer = (p.hoist h).phaseTimer ∧
      ((p.afterSegment h).hoist h).dwellTimer = (p.hoist h).dwellTimer ∧
      ((p.afterSegment h).hoist h).latchCommand = (p.hoist h).latchCommand) := by
  have step := p.atHeight_from h
  have checked : ((p.atHeight h).hoist h).phase ≠ .faulted := fun faulted =>
    notFaulted ((p.afterSegment_stays h).phase (by rwa [← p.atHeight_hoist]))
  obtain ⟨_, hoist⟩ := Chip.atHeight_of_notFaulted checked
  rw [HoistCtl.segmentTaken_eq] at hoist
  have isActive : ((p.atHeight h).hoist h).active = some t := by rw [hoist, active]
  have phase : ((p.atHeight h).hoist h).phase = (p.hoist h).phase := by rw [hoist]
  have isDistance : (p.atHeight h).targetDistance h t = d := by
    rw [Chip.targetDistance_eq, distance, step.elevationOf, p.atHeight_unit, p.atOverspeed_unit, p.afterSegment_unit]
  have same : (p.hoist h).phase = .travel → t.kind ≠ .directed → t.leg = .loaded → p.power.share.get h = 0 →
      decide ((p.atHeight h).referenceFor h (p.hoist h).speedRef .travel = 0) = stopped := fun travel kind loaded share => by
    rw [isStopped, decide_eq_decide]
    exact kept.atHeight_stopped active checked travel kind loaded share
  have moved := Chip.phaseMoved_phaseTest (previous := (p.hoist h).speedRef) isActive
  rw [isDistance] at moved
  refine ⟨Chip.phaseMoved_congr moved phase step.params step.power same ?_ fun notTravel notApproach => ?_, fun stays => ?_⟩
  · rw [p.afterSegment_hoist]
    exact ⟨rfl, rfl, rfl, rfl, rfl⟩
  · rw [p.afterSegment_hoist] at notTravel notApproach ⊢
    exact Chip.referenceFor_of_standing notTravel notApproach
  · have unmoved : p.atPhase h = p.atHeight h := Chip.phaseTest_of_phaseStays isActive
      (by rw [isDistance]; exact Chip.phaseStays_congr stays phase step.params step.power same)
    rw [p.afterSegment_hoist, unmoved, hoist]
    exact ⟨rfl, rfl, rfl, rfl⟩

end

/-- Settles O51: the tests by themselves, and at a segment event those of the part that its checks leave. -/
theorem phaseTestsMoveTheHoist : Obligations.PhaseTestsMoveTheHoist := by
  refine ⟨fun p h tr previous d stopped active distance isStopped => ?alone, fun s h tr kept due active => ?event⟩
  case alone =>
    rw [← Chip.targetDistance_eq] at distance
    rw [distance, isStopped]
    exact ⟨Chip.phaseMoved_phaseTest active, Chip.phaseTest_of_phaseStays active⟩
  case event =>
    have next : exec (.segmentEvent h) s = .next { s with chip := s.chip.afterSegment h } := by
      show s.event _ _ = _
      rw [State.event_of _ _ _ due]
      rfl
    exact ⟨_, next, fun d stopped notFaulted distance isStopped => kept.afterSegment_phase active notFaulted distance isStopped⟩

end Sys2Proof.Machine
end

section
/-! SUPPORT. The try of the Trip Selector (spec/06 R127 to R132): the directed and the automatic choice, and what a staging leaves. -/

namespace Sys2Proof.Machine

/-! ### The choices -/

/-- An element that comes before every other is the first. -/
theorem firstBy_of_best {α : Type} {before : α → α → Bool} {l : List α} {a : α} (inList : a ∈ l)
    (best : ∀ x ∈ l, x ≠ a → before a x = true ∧ before x a = false) : firstBy before l = some a := by
  induction l with
  | nil => exact absurd inList List.not_mem_nil
  | cons x rest ih =>
    have bestRest : ∀ y ∈ rest, y ≠ a → before a y = true ∧ before y a = false := fun y isIn =>
      best y (List.mem_cons_of_mem _ isIn)
    by_cases later : a ∈ rest
    · rw [firstBy, ih later bestRest]
      by_cases own : x = a
      · simp [own]
      · simp [(best x List.mem_cons_self own).1]
    · obtain rfl : a = x := (List.mem_cons.mp inList).resolve_right later
      cases found : firstBy before rest with
      | none => simp [firstBy, found]
      | some y =>
        have inRest := firstBy_mem before rest y found
        have other : y ≠ a := fun same => later (same ▸ inRest)
        simp [firstBy, found, (bestRest y inRest other).2]

theorem firstBy_nil_of_empty {α : Type} (before : α → α → Bool) {l : List α} (empty : ∀ x, x ∉ l) :
    firstBy before l = none := by
  rw [List.eq_nil_iff_forall_not_mem.mpr empty]
  rfl

section
variable {p : Chip} {h : HoistId} {m : MassId} {b : BayId} {o : Order}

/-- The oldest order that fits leaves the list. -/
theorem removeFirst_of_first {fits : Order → Bool} {older younger : List Order} (notBefore : ∀ x ∈ older, fits x = false)
    (here : fits o = true) : removeFirst fits (older ++ o :: younger) = older ++ younger := by
  induction older with
  | nil => simp [removeFirst, here]
  | cons x xs ih =>
    have notFirst : fits x = false := notBefore x List.mem_cons_self
    simp [removeFirst, notFirst, ih fun y isIn => notBefore y (List.mem_cons_of_mem _ isIn)]

theorem Chip.directedChoice_of_first {older younger : List Order} (queue : p.orders.queue = older ++ o :: younger)
    (notBefore : ∀ x ∈ older, p.orderFits h x = false) (here : p.orderFits h o = true) (inBay : (p.mass o.mass).bay = some b) :
    p.directedChoice h = some (o, b) := by
  have found : p.orders.queue.find? (p.orderFits h) = some o := by
    rw [queue, List.find?_append, List.find?_eq_none.mpr fun x isIn => by simp [notBefore x isIn]]
    simp [here]
  simp [Chip.directedChoice, found, inBay]

theorem Chip.directedChoice_none (noneFits : ∀ o ∈ p.orders.queue, p.orderFits h o = false) : p.directedChoice h = none := by
  have found : p.orders.queue.find? (p.orderFits h) = none := List.find?_eq_none.mpr fun x isIn => by simp [noneFits x isIn]
  simp [Chip.directedChoice, found]

theorem Chip.mem_loadBays : (m, b) ∈ p.loadBays h ↔ p.mayLoad h m b := by
  have unnamed : p.queued m = false ↔ ∀ o ∈ p.orders.queue, o.mass ≠ m := by simp [Chip.queued]
  have listed : (m, b) ∈ p.loadBays h ↔ p.candidateLoad h m = true ∧ (p.mass m).bay = some b := by
    simp only [Chip.loadBays, List.mem_filterMap, List.mem_filter, Option.map_eq_some_iff, Prod.mk.injEq]
    constructor
    · rintro ⟨_, ⟨_, candidate⟩, _, inBay, rfl, rfl⟩
      exact ⟨candidate, inBay⟩
    · rintro ⟨candidate, inBay⟩
      exact ⟨m, ⟨by simp [massList], candidate⟩, b, inBay, rfl, rfl⟩
  rw [listed, Chip.mayLoad, ← unnamed]
  constructor
  · rintro ⟨candidate, inBay⟩
    simp only [Chip.candidateLoad, inBay, Bool.and_eq_true, decide_eq_true_eq, Bool.not_eq_true', Chip.nonService_iff] at candidate
    tauto
  · rintro ⟨parked, free, notQueued, inBay, occupied, service, reached⟩
    refine ⟨?_, inBay⟩
    simp only [Chip.candidateLoad, inBay, Bool.and_eq_true, decide_eq_true_eq, Bool.not_eq_true', Chip.nonService_iff]
    tauto

theorem Chip.mem_destinations : b ∈ bayList.filter (p.candidateDestination h) ↔ p.mayReceive h b := by
  simp [bayList, Chip.candidateDestination, Chip.mayReceive, Chip.nonService_iff, and_assoc]

/-- The order of R131 on bays is strict. -/
theorem Chip.bayBefore_of_chosenBefore {lowFirst : Bool} {k : BayId} (first : p.chosenBefore lowFirst b k) :
    p.bayBefore lowFirst b k = true ∧ p.bayBefore lowFirst k b = false := by
  unfold Chip.chosenBefore at first
  cases lowFirst
  all_goals
    simp only [Chip.bayBefore, Bool.false_eq_true, if_false, if_true, Bool.or_eq_true, Bool.and_eq_true, decide_eq_true_eq,
      Bool.or_eq_false_iff, Bool.and_eq_false_iff, decide_eq_false_iff_not, Fin.lt_def] at first ⊢
    omega

/-- The pair on which the automatic choice falls, and the trip that it gives where the lift suffices (R131). -/
theorem Chip.automaticIn_of_pair {source destination : BayId} {charging : Bool} (load : p.mayLoad h m source)
    (bestLoad : ∀ m' b, p.mayLoad h m' b → m' ≠ m → p.chosenBefore charging source b) (place : p.mayReceive h destination)
    (bestPlace : ∀ b, p.mayReceive h b → b ≠ destination → p.chosenBefore (!charging) destination b) :
    p.automaticIn h charging =
      if p.elevationOf (if charging then source else destination) + p.params.minLift ≤
          p.elevationOf (if charging then destination else source) then
        some
          { kind := if charging then .charge else .discharge, mass := m, source := source, destination := destination
            leg := .empty, direction := if charging then .up else .down, orderTag := none, measured := none
            retargets := 0, resumePhase := none, haltCause := none }
      else none := by
  have first : firstBy (fun x y => p.bayBefore charging x.2 y.2) (p.loadBays h) = some (m, source) := by
    refine firstBy_of_best (Chip.mem_loadBays.mpr load) ?_
    rintro ⟨m', b⟩ isIn other
    have mayLoad := Chip.mem_loadBays.mp isIn
    refine Chip.bayBefore_of_chosenBefore (bestLoad m' b mayLoad ?_)
    rintro rfl
    obtain ⟨_, _, _, inSource, _⟩ := load
    obtain ⟨_, _, _, inBay, _⟩ := mayLoad
    exact other (by rw [Option.some.inj (inBay.symm.trans inSource)])
  have last : firstBy (p.bayBefore (!charging)) (bayList.filter (p.candidateDestination h)) = some destination :=
    firstBy_of_best (Chip.mem_destinations.mpr place) fun b isIn other =>
      Chip.bayBefore_of_chosenBefore (bestPlace b (Chip.mem_destinations.mp isIn) other)
  simp only [Chip.automaticIn, first, last]

theorem Chip.automaticIn_none {charging : Bool} (wanting : (∀ m b, ¬p.mayLoad h m b) ∨ ∀ b, ¬p.mayReceive h b) :
    p.automaticIn h charging = none := by
  rcases wanting with noLoad | noPlace
  · have none_listed := firstBy_nil_of_empty (fun x y => p.bayBefore charging x.2 y.2) (l := p.loadBays h)
      fun x isIn => noLoad x.1 x.2 (Chip.mem_loadBays.mp isIn)
    simp [Chip.automaticIn, none_listed]
  · have none_listed := firstBy_nil_of_empty (p.bayBefore (!charging)) (l := bayList.filter (p.candidateDestination h))
      fun b isIn => noPlace b (Chip.mem_destinations.mp isIn)
    simp [Chip.automaticIn, none_listed]

theorem Chip.automaticChoice_none (wanting : p.power.mode = .standby ∨ (∀ m b, ¬p.mayLoad h m b) ∨ ∀ b, ¬p.mayReceive h b) :
    p.automaticChoice h = none := by
  unfold Chip.automaticChoice
  rcases wanting with standby | wanting
  · rw [standby]
  · cases p.power.mode with
    | charge => exact Chip.automaticIn_none wanting
    | discharge => exact Chip.automaticIn_none wanting
    | standby => rfl

/-- The automatic choice in CHARGE and DISCHARGE, by the mode (R131). -/
theorem Chip.automaticChoice_of_pair {source destination : BayId} (running : p.power.mode ≠ .standby)
    (pair : p.automaticPair h m source destination) : p.automaticChoice h =
      if p.elevationOf (if p.power.mode = .charge then source else destination) + p.params.minLift ≤
          p.elevationOf (if p.power.mode = .charge then destination else source) then
        some
          { kind := if p.power.mode = .charge then .charge else .discharge, mass := m, source := source
            destination := destination, leg := .empty, direction := if p.power.mode = .charge then .up else .down
            orderTag := none, measured := none, retargets := 0, resumePhase := none, haltCause := none }
      else none := by
  obtain ⟨load, bestLoad, place, bestPlace⟩ := pair
  unfold Chip.automaticChoice
  cases mode : p.power.mode with
  | charge =>
    simp only [mode] at bestLoad bestPlace
    simpa using Chip.automaticIn_of_pair (charging := true) load bestLoad place bestPlace
  | discharge =>
    simp only [mode] at bestLoad bestPlace
    simpa using Chip.automaticIn_of_pair (charging := false) load bestLoad place bestPlace
  | standby => exact absurd mode running

end

/-! ### The staging (R90, R91, R132) -/

section
variable {p before : Chip} {h : HoistId} {t : Trip}

/-- The part in which the pointer, the mass, both bays and the order if any are the trip's, before it enters its slot (R132). -/
def Chip.reserve (p : Chip) (h : HoistId) (slot : Slot) (t : Trip) (o : Option Order) : Chip :=
  let q := ((({ p with selector := { p.selector with pointer := h } } : Chip).massAssigned t.mass).holdSource h slot
    t.source).holdDestination h slot t.destination
  match o with
  | some _ => q.setHeld h slot o
  | none => q

theorem Chip.stage_idle (o : Option Order) (idle : (p.hoist h).phase = .idle) : p.stage h t o =
    (((p.reserve h .active t o).updHoist h fun c => { c with active := some t }).activate h none).request := by
  simp only [Chip.stage, idle, if_true]
  cases o <;> rfl

theorem Chip.stage_busy (o : Option Order) (busy : (p.hoist h).phase ≠ .idle) : p.stage h t o =
    (p.reserve h .staged t o).updHoist h fun c => { c with staged := some t } := by
  simp only [Chip.stage, busy, if_false]
  cases o <;> rfl

section
variable (slot : Slot) (o : Option Order)

theorem Chip.reserve_unchangedBut : p.unchangedBut (p.reserve h slot t o) [.masses, .bays, .selector, .orders] := by
  intro x out
  cases o <;> cases slot <;> cases x <;> simp at out <;> rfl

theorem Chip.reserve_hoist (k : HoistId) : (p.reserve h slot t o).hoist k = p.hoist k :=
  congrArg (Quad.get · k) (Chip.reserve_unchangedBut slot o .hoists (by decide))

theorem Chip.reserve_mass (m : MassId) :
    (p.reserve h slot t o).mass m = if m = t.mass then { p.mass t.mass with state := .assigned } else p.mass m := by
  have assigned : (p.reserve h slot t o).mass m = (p.updMass t.mass fun r => { r with state := .assigned }).mass m := by
    cases o <;> cases slot <;> rfl
  rw [assigned, Chip.updMass_mass]

theorem Chip.reserve_bay (b : BayId) : (p.reserve h slot t o).bay b =
    ((p.updBay t.source fun r => { r with state := .outbound, holder := some (h, slot) }).updBay t.destination fun r =>
      { r with state := .inbound, occupant := none, holder := some (h, slot) }).bay b := by
  cases o <;> cases slot <;> rfl

theorem Chip.reserve_selector : (p.reserve h slot t o).selector = { p.selector with pointer := h } := by
  cases o <;> cases slot <;> rfl

theorem Chip.reserve_elevationOf (b : BayId) : (p.reserve h slot t o).elevationOf b = p.elevationOf b := by
  have elevation : ((p.reserve h slot t o).bay b).elevation = (p.bay b).elevation := by
    rw [Chip.reserve_bay, Chip.updBay_bay, Chip.updBay_bay, Chip.updBay_bay]
    split
    · rename_i own
      rw [own]
      split
      · rename_i same
        rw [same]
      · rfl
    · split
      · rename_i own
        rw [own]
      · rfl
  rw [Chip.elevationOf, elevation]
  rfl

theorem Chip.reserve_queue : (p.reserve h slot t o).orders.queue = p.orders.queue := by
  cases o <;> cases slot <;> rfl

theorem Chip.reserve_held (x : Order) : (p.reserve h slot t (some x)).held h slot = some x :=
  (Chip.setHeld_held _ h h slot slot (some x)).trans (if_pos ⟨rfl, rfl⟩)

end

/-- A trip that becomes active on a hoist that is not HALTED is entered as R91 says, beside the staged slot. -/
theorem Chip.tripEntered_activate (halt : Option HaltCause) (active : (p.hoist h).active = some t)
    (notHalted : (p.hoist h).phase ≠ .halted) : ((p.activate h halt).hoist h).active = some t ∧
    ((p.activate h halt).hoist h).staged = (p.hoist h).staged ∧ p.tripEntered h t ((p.activate h halt).hoist h) := by
  simp only [Chip.activate, active, if_neg notHalted, Chip.tripEntered]
  by_cases near : p.atSource h t = true
  · have close : apart (p.unit h).elevation (p.elevationOf t.source) ≤ p.params.stopTol := of_decide_eq_true near
    simp [near, close, Chip.enterEngage, Chip.enterPhase, Chip.stopRef, active]
  · have far : ¬apart (p.unit h).elevation (p.elevationOf t.source) ≤ p.params.stopTol := fun c =>
      near (decide_eq_true c)
    simp [near, far, Chip.enterTravelEmpty, Chip.enterPhase, active]

/-- What a staging leaves beside the controllers and the selection request. -/
theorem Chip.stage_reserve (o : Option Order) : ∃ slot, slot = (if (p.hoist h).phase = .idle then Slot.active else .staged) ∧
    (p.reserve h slot t o).unchangedBut (p.stage h t o) [.hoists, .selector] ∧
    (p.stage h t o).selector.pointer = h ∧ (p.stage h t o).selector.serving = p.selector.serving := by
  refine ⟨_, rfl, ?_⟩
  by_cases idle : (p.hoist h).phase = .idle
  · have activated := Chip.activate_unchangedBut ((p.reserve h .active t o).updHoist h fun c => { c with active := some t }) h none
    have selector := activated .selector (by decide)
    rw [if_pos idle, Chip.stage_idle o idle]
    refine ⟨Chip.unchangedBut_mono (Chip.unchangedBut_append (Chip.updHoist_unchangedBut _ h _)
      (Chip.unchangedBut_append activated (Chip.request_unchangedBut _))) (by decide), ?_, ?_⟩
    · exact (congrArg Selector.pointer selector).trans (by rw [Chip.updHoist_selector, Chip.reserve_selector])
    · exact (congrArg Selector.serving selector).trans (by rw [Chip.updHoist_selector, Chip.reserve_selector])
  · rw [if_neg idle, Chip.stage_busy o idle]
    refine ⟨Chip.unchangedBut_mono (Chip.updHoist_unchangedBut _ h _) (by decide), ?_, ?_⟩
    · rw [Chip.updHoist_selector, Chip.reserve_selector]
    · rw [Chip.updHoist_selector, Chip.reserve_selector]

section
variable {slot : Slot} {o : Option Order} (distinct : t.source ≠ t.destination)

theorem Chip.reserve_bay_destination : (p.reserve h slot t o).bay t.destination = if t.destination = t.source then
      { p.bay t.source with state := .inbound, occupant := none, holder := some (h, slot) }
    else { p.bay t.destination with state := .inbound, occupant := none, holder := some (h, slot) } := by
  rw [Chip.reserve_bay, Chip.updBay_bay_self, Chip.updBay_bay]
  split <;> rfl

include distinct

/-- The two held bays of a staged trip (R132). -/
theorem Chip.reserve_bays : (p.reserve h slot t o).bay t.source = { p.bay t.source with state := .outbound, holder := some (h, slot) } ∧
    (p.reserve h slot t o).bay t.destination =
      { p.bay t.destination with state := .inbound, occupant := none, holder := some (h, slot) } := by
  refine ⟨?_, by rw [Chip.reserve_bay_destination, if_neg distinct.symm]⟩
  rw [Chip.reserve_bay, Chip.updBay_bay_of_ne _ _ _ _ distinct, Chip.updBay_bay_self]

end

/-- A staging leaves the trip as the statements describe it. -/
theorem Chip.Kept.tripStaged_stage (kept : before.Kept) (view : before.unchangedBut p [.selector, .orders]) (o : Option Order)
    (distinct : t.source ≠ t.destination) : p.tripStaged (before.finish (p.stage h t o)) h t := by
  obtain ⟨slot, isSlot, reserved, pointer, _⟩ := Chip.stage_reserve (p := p) (h := h) (t := t) o
  have bays : ∀ k, (before.finish (p.stage h t o)).bay k = (p.reserve h slot t o).bay k := fun k => by
    rw [Chip.finish_bay, reserved.bay (by decide)]
  have masses : ∀ m, (before.finish (p.stage h t o)).mass m = (p.reserve h slot t o).mass m := fun m => by
    rw [Chip.finish_mass, reserved.mass (by decide)]
  obtain ⟨source, destination⟩ := Chip.reserve_bays (p := p) (h := h) (slot := slot) (o := o) distinct
  refine ⟨by rw [masses, Chip.reserve_mass, if_pos rfl], fun m ne => by rw [masses, Chip.reserve_mass, if_neg ne], pointer,
    fun k notSource notDestination => ?_, fun idle => ?_, fun busy => ?_⟩
  · rw [bays, Chip.reserve_bay, Chip.updBay_bay_of_ne _ _ _ _ notDestination, Chip.updBay_bay_of_ne _ _ _ _ notSource]
  · rw [if_pos idle] at isSlot
    rw [bays, bays, source, destination, isSlot]
    obtain ⟨q, def_q⟩ : ∃ q, q = (p.reserve h .active t o).updHoist h fun c => { c with active := some t } := ⟨_, rfl⟩
    have hoist : q.hoist h = { p.hoist h with active := some t } := by
      rw [def_q, Chip.updHoist_hoist_self, Chip.reserve_hoist]
    have change := Chip.reserve_unchangedBut (p := p) (h := h) (t := t) .active o
    have unit : q.unit h = p.unit h := by
      rw [def_q]
      exact congrArg (Quad.get · h) (change .units (by decide))
    have params : q.params = p.params := by
      rw [def_q]
      exact change .params (by decide)
    have elevation : q.elevationOf t.source = p.elevationOf t.source := by
      rw [def_q, Chip.updHoist_elevationOf, Chip.reserve_elevationOf]
    obtain ⟨active, staged, entered⟩ := Chip.tripEntered_activate (p := q) (h := h) (t := t) none (by rw [hoist])
      (by rw [hoist]; simp [idle])
    have enteredHere : p.tripEntered h t ((q.activate h none).request.hoist h) := by
      unfold Chip.tripEntered at entered ⊢
      rwa [unit, params, elevation] at entered
    rw [Chip.stage_idle o idle, ← def_q]
    refine ⟨Chip.finish_request_of _ _ rfl, ?_, ?_, Chip.tripEntered_finish before enteredHere, rfl, rfl⟩
    · rw [Chip.finish_hoist, Chip.keptHoist_active, Chip.request_hoist, active]
    · rw [Chip.finish_hoist, Chip.keptHoist_staged, Chip.request_hoist, staged, hoist]
  · rw [if_neg busy] at isSlot
    rw [bays, bays, source, destination, isSlot]
    refine ⟨?_, rfl, rfl⟩
    obtain ⟨q, def_q⟩ : ∃ q, q = (p.reserve h .staged t o).updHoist h fun c => { c with staged := some t } := ⟨_, rfl⟩
    have same : before.hoist h = p.hoist h := (congrArg (Quad.get · h) (view .hoists (by decide))).symm
    have hoist : q.hoist h = { before.hoist h with staged := some t } := by
      rw [def_q, Chip.updHoist_hoist_self, Chip.reserve_hoist, same]
    have change : before.unchangedBut q [.masses, .bays, .hoists, .selector, .orders] := by
      rw [def_q]
      exact Chip.unchangedBut_mono (Chip.unchangedBut_append view (Chip.unchangedBut_append
        (Chip.reserve_unchangedBut (p := p) (h := h) (t := t) .staged o) (Chip.updHoist_unchangedBut _ h _))) (by decide)
    have interlock : q.interlock = before.interlock := by
      unfold Chip.interlock
      rw [change .sensors (by decide)]
    have link : q.link h = before.link h := congrArg (Quad.get · h) (change .links (by decide))
    have law : q.brakeLaw h = before.brakeLaw h :=
      Chip.brakeLaw_congr (by rw [link]) interlock (by rw [hoist]) (by rw [hoist]) (by rw [hoist])
    have unable : q.ableLaw h = false := by simp [Chip.ableLaw, hoist]
    rw [Chip.stage_busy o busy, ← def_q, kept.finish_hoist_of_brakeLaw law (by rw [hoist]) (by rw [hoist]), unable, hoist, same]

end

/-! ### The try -/

/-- The part in which hoist `h` has left the serving list. -/
def Chip.served (p : Chip) (rest : List HoistId) : Chip := { p with selector := { p.selector with serving := rest } }

section
variable {p : Chip} {h : HoistId} {rest : List HoistId} {t : Trip}

theorem Chip.served_unchangedBut : p.unchangedBut (p.served rest) [.selector] := by
  intro x out
  cases x <;> simp at out <;> rfl

theorem Chip.nextTry_eq (serving : p.selector.serving = h :: rest) :
    p.nextTry = if (p.hoist h).able = true then (p.served rest).tryFor h else p.served rest := by
  unfold Chip.nextTry
  rw [serving]
  rfl

theorem Chip.TripFrame.nextTry (serving : p.selector.serving = h :: rest) : Chip.TripFrame h p p.nextTry := by
  rw [Chip.nextTry_eq serving]
  have first : Chip.TripFrame h p (p.served rest) := .selector _
  split
  · exact first.trans .tryFor
  · exact first

theorem Chip.tryFor_serving : (p.tryFor h).selector.serving = p.selector.serving := by
  unfold Chip.tryFor
  split
  · obtain ⟨_, _, _, _, serving⟩ := Chip.stage_reserve (h := h) (p := { p with orders := { p.orders with
      queue := removeFirst (p.orderFits h) p.orders.queue } }) (t := p.tripOfOrder _ _) (some _)
    exact serving
  · split
    · obtain ⟨_, _, _, _, serving⟩ := Chip.stage_reserve (h := h) (p := p) (t := _) none
      exact serving
    · rfl

/-- A try that stages nothing changes the serving list only. -/
theorem Chip.Kept.finish_served (kept : p.Kept) : p.unchangedBut (p.finish (p.served rest)) [.selector, .port] ∧
    p.portReported (p.finish (p.served rest)) ∧
    (p.finish (p.served rest)).selector = { p.selector with serving := rest } := by
  have finished := Chip.finish_quiet (p := p.served rest) kept rfl rfl (fun _ => rfl) rfl
  refine ⟨Chip.unchangedBut_append Chip.served_unchangedBut (kept.finish_unchangedBut
    (Chip.unchangedBut_mono Chip.served_unchangedBut (by decide))), ?_, by rw [finished]; rfl⟩
  unfold Chip.portReported
  rw [Chip.finish_conditions, finished]
  rfl

end

/-- Settles O48: the oldest order that fits is staged, else the automatic pair where the lift suffices, else nothing. -/
theorem tryStagesTheOldestFittingOrder : Obligations.TryStagesTheOldestFittingOrder := by
  intro s h rest kept serving
  obtain ⟨p, def_p⟩ : ∃ p, p = s.chip.served rest := ⟨_, rfl⟩
  have next : exec .tryHoist s = .next { s with chip := s.chip.finish s.chip.nextTry } := by
    show s.event _ _ = _
    rw [State.event_of _ _ _ (by simp [serving])]
  have frame : Chip.TripFrame h s.chip s.chip.nextTry := .nextTry serving
  have tries := Chip.nextTry_eq serving
  rw [← def_p] at tries
  have passed : s.chip.nextTry = p → s.chip.unchangedBut (s.chip.finish s.chip.nextTry) [.selector, .port] ∧
      s.chip.portReported (s.chip.finish s.chip.nextTry) ∧
      (s.chip.finish s.chip.nextTry).selector = { s.chip.selector with serving := rest } := fun same => by
    rw [same, def_p]
    exact kept.finish_served
  refine ⟨_, next, rfl, ?_, Chip.unchangedBut_trans (Chip.unchangedBut_mono frame.unchangedBut (by decide))
    (Chip.unchangedBut_mono (Chip.finish_unchangedBut _ _) (by decide)), kept.finish_others_of_frame frame,
    fun unable => passed (by rw [tries, if_neg (by simp [unable])]),
    fun older o younger source able queue notBefore here inBay => ?directed, fun able noneFits => ?automatic⟩
  · rw [Chip.finish_serving, tries]
    split
    · rw [Chip.tryFor_serving, def_p]
      rfl
    · rw [def_p]
      rfl
  case directed =>
    have chosen : p.directedChoice h = some (o, source) := by
      rw [def_p]
      exact Chip.directedChoice_of_first (p := s.chip) queue notBefore here inBay
    obtain ⟨q, def_q⟩ : ∃ q : Chip, q = { p with orders := { p.orders with queue := older ++ younger } } := ⟨_, rfl⟩
    have taken : s.chip.nextTry = q.stage h (p.tripOfOrder o source) (some o) := by
      have removed : removeFirst (p.orderFits h) p.orders.queue = older ++ younger := by
        rw [def_p]
        exact (congrArg (removeFirst (s.chip.orderFits h)) queue).trans (removeFirst_of_first notBefore here)
      rw [tries, if_pos able, Chip.tryFor, chosen, def_q, ← removed]
    have view : s.chip.unchangedBut q [.selector, .orders] := fun x out => by
      rw [def_q, def_p]
      cases x <;> simp at out <;> rfl
    have distinct : (p.tripOfOrder o source).source ≠ (p.tripOfOrder o source).destination := by
      obtain ⟨occupied, opened⟩ := Chip.directedChoice_bays chosen
      rintro same
      have sameBay : source = o.destination := same
      rw [sameBay, opened] at occupied
      exact absurd occupied (by decide)
    obtain ⟨slot, isSlot, reserved, _⟩ := Chip.stage_reserve (p := q) (h := h) (t := p.tripOfOrder o source) (some o)
    have orders : (s.chip.finish s.chip.nextTry).orders = (q.reserve h slot (p.tripOfOrder o source) (some o)).orders := by
      rw [Chip.finish_orders, taken, reserved .orders (by decide)]
    have itsSlot : (if (s.chip.hoist h).phase = .idle then Slot.active else .staged) = slot := by
      rw [isSlot, def_q, def_p]
      rfl
    refine ⟨?_, ?_, ?_⟩
    · rw [orders, Chip.reserve_queue, def_q]
    · rw [itsSlot, Chip.held_of_orders orders, Chip.reserve_held]
    · rw [taken]
      have staged := kept.tripStaged_stage view (some o) distinct (h := h)
      rw [def_q, def_p] at staged ⊢
      exact staged
  case automatic =>
    have noOrder : p.directedChoice h = none := by
      rw [def_p]
      exact Chip.directedChoice_none (p := s.chip) noneFits
    have unchosen : p.automaticChoice h = none → s.chip.nextTry = p := fun none_chosen => by
      rw [tries, if_pos able, Chip.tryFor, noOrder, none_chosen]
    refine ⟨fun wanting => passed (unchosen ?_), fun m source destination low high running pair isLow isHigh =>
      ⟨fun short => passed (unchosen ?_), fun lifts => ?_⟩⟩
    · rw [def_p]
      exact Chip.automaticChoice_none (p := s.chip) wanting
    · have choice := Chip.automaticChoice_of_pair running pair
      rw [← isLow, ← isHigh, if_neg (by omega)] at choice
      rw [def_p]
      exact choice
    · have choice := Chip.automaticChoice_of_pair running pair
      rw [← isLow, ← isHigh, if_pos lifts] at choice
      obtain ⟨t, def_t⟩ : ∃ t : Trip, t = { kind := if s.chip.power.mode = .charge then .charge else .discharge, mass := m
                                            source := source, destination := destination, leg := .empty
                                            direction := if s.chip.power.mode = .charge then .up else .down
                                            orderTag := none, measured := none, retargets := 0, resumePhase := none
                                            haltCause := none } := ⟨_, rfl⟩
      rw [← def_t] at choice ⊢
      have chosen : p.automaticChoice h = some t := by
        rw [def_p]
        exact choice
      have taken : s.chip.nextTry = p.stage h t none := by
        rw [tries, if_pos able, Chip.tryFor, noOrder]
        simp only [chosen]
      have distinct : t.source ≠ t.destination := by
        obtain ⟨occupied, opened⟩ := Chip.automaticChoice_bays chosen
        intro same
        rw [same, opened] at occupied
        exact absurd occupied (by decide)
      have view : s.chip.unchangedBut p [.selector, .orders] := by
        rw [def_p]
        exact Chip.unchangedBut_mono Chip.served_unchangedBut (by decide)
      obtain ⟨slot, _, reserved, _⟩ := Chip.stage_reserve (p := p) (h := h) (t := t) none
      refine ⟨?_, ?_⟩
      · rw [Chip.finish_orders, taken, reserved .orders (by decide), def_p]
        cases slot <;> rfl
      · rw [taken]
        have staged := kept.tripStaged_stage view none distinct (h := h)
        rw [def_p] at staged ⊢
        exact staged

end Sys2Proof.Machine
end

section
/-! SUPPORT. ORDER_MOVE (spec/06 R117 to R119): its checks as the statements list them, and the order added at the tail. -/

namespace Sys2Proof.Machine

section
variable {p : Chip} {m : MassId} {d : BayId} {h : Option HoistId}

/-- The reason of the first check that fails, read check by check. -/
theorem firstFailing_cons (c : Bool × Reason) (l : List (Bool × Reason)) :
    ((c :: l).find? fun c => c.1).map Prod.snd = if c.1 = true then some c.2 else (l.find? fun c => c.1).map Prod.snd := by
  obtain ⟨fails, reason⟩ := c
  cases fails <;> rfl

/-- The checks on the mass's bay: a mass that is in none is reached by no hoist (R118, checks 5 and 6). -/
theorem Chip.orderReach_eq : p.orderReach m d h =
    if (p.mass m).bay = some d then some .conflict
    else if (!(hoistList.any fun k => decide (h = none ∨ h = some k) && p.reaches k d &&
      ((p.mass m).bay.any fun source => p.reaches k source))) = true then some .unreachable
    else none := by
  unfold Chip.orderReach Chip.someHoistReaches
  cases (p.mass m).bay with
  | none => simp
  | some source =>
    simp only [Option.any_some, Option.some.injEq, eq_comm (a := d), Bool.and_right_comm, Bool.not_eq_true']
    split
    · rfl
    · generalize hoistList.any _ = reached
      cases reached <;> rfl

/-- ORDER_MOVE is refused by the first check of the list that fails (R117, R118). -/
theorem Chip.orderRefusal_eq_find :
    p.orderRefusal m d h = ((p.orderChecks m d h).find? fun c => c.1).map Prod.snd := by
  have named : (p.queued m = true ∨ p.heldOrders.any (fun o => decide (o.mass = m)) = true) ↔
      (p.orders.queue ++ p.heldOrders).any (fun o => decide (o.mass = m)) = true := by
    rw [List.any_append, Bool.or_eq_true]
    rfl
  have unable : hoistList.all (fun k => !(p.hoist k).able) = true ↔ ∀ k, (p.hoist k).able = false := by
    simp [mem_hoistList]
  simp only [Chip.orderRefusal, Chip.orderChecks, Chip.orderReach_eq, firstFailing_cons, List.find?_nil, Option.map_none,
    decide_eq_true_eq, named, unable]
  split_ifs <;> rfl

/-- With no check failed there is room for the order (R116). -/
theorem Chip.orderPlaces_lt_of_orderRefusal (passes : p.orderRefusal m d h = none) : p.queueLength + p.heldCount < 16 := by
  rw [Chip.orderRefusal_eq_find, Option.map_eq_none_iff, List.find?_eq_none] at passes
  have room := passes (decide (16 ≤ p.queueLength + p.heldCount), .full) (by simp [Chip.orderChecks])
  simpa using room

end

theorem hoistOrAllOf_eq_none {n : Nat} (far : 3 < n) (notAny : n ≠ 255) : hoistOrAllOf n = none := by
  simp [hoistOrAllOf, notAny, (hoistOf_eq_none_iff n).mpr far]

theorem orderMove_outOfRange {mass destination n : Nat} {p : Chip}
    (bad : mass = 0 ∨ 96 < mass ∨ 63 < destination ∨ 3 < n ∧ n ≠ 255) :
    (orderMove mass destination n p).2 = refuse .range := by
  have wrong : massOf mass = none ∨ bayOf destination = none ∨ hoistOrAllOf n = none := by
    rw [massOf_eq_none_iff, bayOf_eq_none_iff]
    rcases bad with zero | far | far | ⟨far, notAny⟩
    · exact .inl (.inl zero)
    · exact .inl (.inr far)
    · exact .inr (.inl far)
    · exact .inr (.inr (hoistOrAllOf_eq_none far notAny))
  unfold orderMove
  split
  · rename_i isMass isBay isHoist
    simp [isMass, isBay, isHoist] at wrong
  · rfl

section
variable {p : Chip} {m : MassId} {d : BayId} {n : Nat} {h : Option HoistId} (admitted : hoistOrAllOf n = some h)
include admitted

theorem orderMove_refused {reason : Reason} (fails : p.orderRefusal m d h = some reason) :
    orderMove (massNumber m) d.val n p = (p, refuse reason) := by
  simp only [orderMove, massOf_massNumber, bayOf_val, admitted, fails]

/-- An order is counted in the reply as the tail of the list; fewer than 16 places taken fit their bytes. -/
theorem orderMove_added (passes : p.orderRefusal m d h = none) : orderMove (massNumber m) d.val n p =
    (p.addOrder { mass := m, destination := d, hoist := h, tag := p.frameTag },
      answerDone [BitVec.ofNat 8 p.queueLength, BitVec.ofNat 8 (p.queueLength + 1), BitVec.ofNat 8 p.heldCount]) := by
  obtain ⟨q, def_q⟩ : ∃ q, q = p.addOrder { mass := m, destination := d, hoist := h, tag := p.frameTag } := ⟨_, rfl⟩
  have room := Chip.orderPlaces_lt_of_orderRefusal passes
  have queue : q.queueLength = p.queueLength + 1 := by
    rw [def_q]
    exact List.length_append
  have held : q.heldCount = p.heldCount := by
    rw [def_q]
    rfl
  have byte : ∀ (r : Chip) (v : Nat), v < 256 → r.field 1 v = [BitVec.ofNat 8 v] := fun r v fits => by
    obtain ⟨x, one, value⟩ := r.field_byte v
    rw [one, value fits]
  simp only [orderMove, massOf_massNumber, bayOf_val, admitted, passes, ← def_q, queue, held]
  rw [byte _ _ (by omega), byte _ _ (by omega), byte _ _ (by omega)]
  rfl

end

theorem Chip.addOrder_unchangedBut (p : Chip) (o : Order) : p.unchangedBut (p.addOrder o) [.orders, .selector] :=
  Chip.unchangedBut_append (p.orders_unchangedBut _) (Chip.request_unchangedBut _)

/-- Settles O30: the operands' ranges, then the list of checks in its order. -/
theorem orderMoveRefusesInOrder : Obligations.OrderMoveRefusesInOrder := by
  intro s mass destination m d n h reason
  refine ⟨fun hands bad => hands.command_refused (orderMove_outOfRange bad), fun hands admitted fails => ?_⟩
  have refused : s.chip.orderRefusal m d h = some reason := by
    rw [Chip.orderRefusal_eq_find, fails]
    rfl
  exact hands.command_refused (congrArg Prod.snd (orderMove_refused admitted refused))

/-- Settles O31: with no check failed the order joins the list with the tag of the frame in hand. -/
theorem orderMoveCompletes : Obligations.OrderMoveCompletes := by
  intro s m d n h f hands admitted inHand passes
  have unrefused : s.chip.orderRefusal m d h = none := by
    rw [Chip.orderRefusal_eq_find, List.find?_eq_none.mpr fun c listed => by simp [passes c listed]]
    rfl
  have tag : s.chip.frameTag = BitVec.ofNat 8 (f.byte 3) := by
    unfold Chip.frameTag
    rw [inHand]
  obtain ⟨p, def_p⟩ : ∃ p, p = s.chip.addOrder { mass := m, destination := d, hoist := h, tag := s.chip.frameTag } := ⟨_, rfl⟩
  have change : s.chip.unchangedBut p [.orders, .selector] := def_p ▸ Chip.addOrder_unchangedBut _ _
  obtain ⟨t, next, pending, portOnly, replied⟩ := hands.command_done (Chip.unchangedBut_mono change (by decide)) _
  have orders : t.chip.orders = p.orders := portOnly .orders (by decide)
  have selector : t.chip.selector = p.selector := portOnly .selector (by decide)
  refine ⟨t, ?_, pending, Chip.unchangedBut_append change portOnly, ?_, ?_, replied⟩
  · show s.command _ (orderMove (massNumber m) d.val n s.chip) = _
    rw [orderMove_added admitted unrefused, ← def_p]
    exact next
  · rw [orders, def_p, ← tag]
    rfl
  · rw [selector, def_p]
    rfl

end Sys2Proof.Machine
end

section
/-! SUPPORT. Queued and held orders together (spec/06 R116): every operation but ORDER_MOVE leaves no more of them than it found. An order
that is staged has left the list, one that returns to the list is held no longer, and one that is promoted leaves its staged slot. -/

namespace Sys2Proof.Machine

/-! ### The places taken -/

/-- The orders held for one kind of trip slot, over the four hoists. -/
def heldIn (slots : Quad (Option Order)) : Nat := hoistList.countP fun h => (slots.get h).isSome

/-- The places that queued and held orders take (R116). -/
def OrderQueue.places (x : OrderQueue) : Nat := x.queue.length + (heldIn x.heldActive + heldIn x.heldStaged)

theorem Chip.heldCount_eq (p : Chip) : p.heldCount = heldIn p.orders.heldActive + heldIn p.orders.heldStaged := by
  rw [Chip.heldCount, Chip.heldOrders, List.length_append, List.length_filterMap_eq_countP, List.length_filterMap_eq_countP]
  rfl

theorem Chip.orderPlaces_iff (p : Chip) : p.OrderPlaces ↔ p.orders.places ≤ 16 := by
  rw [Chip.OrderPlaces, Chip.heldCount_eq]
  rfl

/-- A slot filled or emptied counts for itself alone. -/
theorem heldIn_set (slots : Quad (Option Order)) (h : HoistId) (o : Option Order) :
    heldIn (slots.set h o) + flagCode (slots.get h).isSome = heldIn slots + flagCode o.isSome := by
  have count : ∀ s : Quad (Option Order), heldIn s =
      flagCode s.h0.isSome + flagCode s.h1.isSome + flagCode s.h2.isSome + flagCode s.h3.isSome := fun s => by
    simp only [heldIn, hoistList, List.countP_cons, List.countP_nil, Quad.get, flagCode]
    omega
  rw [count, count]
  fin_cases h <;> simp only [Quad.set, Quad.get] <;> omega

theorem Chip.setHeld_places (p : Chip) (h : HoistId) (slot : Slot) (o : Option Order) :
    (p.setHeld h slot o).orders.places + flagCode (p.held h slot).isSome = p.orders.places + flagCode o.isSome := by
  cases slot
  · have active := heldIn_set p.orders.heldActive h o
    simp only [Chip.setHeld, Chip.held, OrderQueue.places]
    omega
  · have staged := heldIn_set p.orders.heldStaged h o
    simp only [Chip.setHeld, Chip.held, OrderQueue.places]
    omega

theorem removeFirst_length {fits : Order → Bool} {l : List Order} {o : Order} (found : l.find? fits = some o) :
    (removeFirst fits l).length + 1 = l.length := by
  induction l with
  | nil => simp at found
  | cons x xs ih =>
    cases here : fits x with
    | true => simp [removeFirst, here]
    | false => simp [removeFirst, here, ih (by simpa [here] using found)]

/-- From `p` to `q` no place has been taken beyond those taken before. -/
def Chip.AddsNoOrder (p q : Chip) : Prop := q.orders.places ≤ p.orders.places

namespace Chip.AddsNoOrder

variable {p q r : Chip} {h : HoistId} {slot : Slot}

theorem of_same (orders : q.orders = p.orders) : AddsNoOrder p q := by
  unfold AddsNoOrder
  rw [orders]

theorem of_frame {parts : List Part} (frame : p.unchangedBut q parts) (apart : .orders ∉ parts) : AddsNoOrder p q :=
  of_same (frame .orders apart)

theorem refl (p : Chip) : AddsNoOrder p p := of_same rfl

theorem trans (first : AddsNoOrder p q) (second : AddsNoOrder q r) : AddsNoOrder p r := Nat.le_trans second first

theorem foldl {α : Type} (f : Chip → α → Chip) (each : ∀ q x, AddsNoOrder q (f q x)) (l : List α) :
    AddsNoOrder p (l.foldl f p) := by
  induction l generalizing p with
  | nil => exact refl p
  | cons x _ ih => exact (each p x).trans ih

theorem updMass (m : MassId) (f : MassRecord → MassRecord) : AddsNoOrder p (p.updMass m f) := of_same rfl

theorem updHoist (f : HoistCtl → HoistCtl) : AddsNoOrder p (p.updHoist h f) := of_same rfl

theorem updUnit (f : PositionUnit → PositionUnit) : AddsNoOrder p (p.updUnit h f) := of_same rfl

theorem updLink (f : LinkPort → LinkPort) : AddsNoOrder p (p.updLink h f) := of_same rfl

theorem request : AddsNoOrder p p.request := of_same rfl

theorem port (x : PlantPort) : AddsNoOrder p { p with port := x } := of_same rfl

/-- A list that is not longer, beside the same held orders. -/
theorem queue {l : List Order} (n : Nat) (shorter : l.length ≤ p.orders.queue.length) :
    AddsNoOrder p { p with orders := { p.orders with queue := l, dropped := n } } :=
  Nat.add_le_add_right shorter _

/-! ### Orders held, returned and dropped (spec/01 R4, spec/06 R120, R121) -/

theorem setHeld_none : AddsNoOrder p (p.setHeld h slot none) :=
  Nat.le.intro (p.setHeld_places h slot none)

theorem endHeld (fate : OrderFate) : AddsNoOrder p (p.endHeld h slot fate) := by
  cases held : p.held h slot with
  | none => exact of_same (by simp [Chip.endHeld, held])
  | some o =>
    have freed : (p.setHeld h slot none).orders.places + 1 = p.orders.places := by
      simpa [held, flagCode] using p.setHeld_places h slot none
    simp only [Chip.endHeld, held]
    cases fate with
    | returned =>
      show (o :: (p.setHeld h slot none).orders.queue).length + _ ≤ p.orders.places
      rw [← freed, List.length_cons, Nat.add_right_comm]
      exact Nat.le_refl _
    | discarded => exact setHeld_none
    | counted => exact setHeld_none

theorem notifyOrders (m : MassId) : AddsNoOrder p (p.notifyOrders m) := by
  unfold Chip.notifyOrders
  split
  · exact queue _ (List.length_filter_le _ _)
  · exact refl p

theorem massLostFromBay (m : MassId) : AddsNoOrder p (p.massLostFromBay m) := (updMass m _).trans (notifyOrders m)

theorem massAbsent (m : MassId) : AddsNoOrder p (p.massAbsent m) := by
  unfold Chip.massAbsent
  simp only
  split
  · exact ((updMass m _).trans (notifyOrders m)).trans request
  · exact (updMass m _).trans (notifyOrders m)

/-! ### The trip machine (spec/05) -/

/-- The held order of a promoted trip passes from the staged slot to the active one (R91). -/
theorem promote (t : Trip) (halt : Option HaltCause) : AddsNoOrder p (p.promote h t halt) := by
  have active := heldIn_set p.orders.heldActive h (p.held h .staged)
  have staged : heldIn (p.orders.heldStaged.set h none) + flagCode (p.held h .staged).isSome = heldIn p.orders.heldStaged :=
    heldIn_set p.orders.heldStaged h none
  simp only [AddsNoOrder, Chip.promote_orders, OrderQueue.places]
  omega

theorem endActive : AddsNoOrder p (p.endActive h) := by
  rcases p.endActive_cases h with ⟨_, e⟩ | ⟨_, _, e⟩ | ⟨t, _, _, e⟩ <;> rw [e]
  · exact updHoist _
  · exact (updHoist _).trans (updHoist _)
  · exact (updHoist _).trans (promote t _)

theorem endEmpty : AddsNoOrder p (p.endEmpty h) := (updHoist _).trans endActive

theorem giveUpDestination (b : BayId) : AddsNoOrder p (p.giveUpDestination h slot b) :=
  of_same (p.giveUpDestination_orders h b slot)

theorem dropStaged (fate : OrderFate) : AddsNoOrder p (p.dropStaged h fate) := by
  cases staged : (p.hoist h).staged with
  | none => exact of_same (by simp [Chip.dropStaged, staged])
  | some t =>
    rw [Chip.dropStaged_of_staged staged]
    exact (of_same (by simp)).trans (endHeld fate)

theorem completeAbandon (fate : OrderFate) (mismatch : Bool) : AddsNoOrder p (p.completeAbandon h fate mismatch) := by
  cases active : (p.hoist h).active with
  | none => exact of_same (by simp [Chip.completeAbandon, active])
  | some t =>
    rw [Chip.completeAbandon_of_active fate mismatch active]
    exact ((of_same (Chip.abandonSettled_orders _)).trans (endHeld fate)).trans endEmpty

theorem abandon (fate : OrderFate) : AddsNoOrder p (p.abandon h fate) := by
  unfold Chip.abandon
  simp only
  split
  · exact refl p
  · split
    · exact updHoist _
    · exact completeAbandon fate false

theorem completeWithdrawal : AddsNoOrder p (p.completeWithdrawal h) := by
  unfold Chip.completeWithdrawal
  split
  · exact refl p
  · exact completeAbandon _ _
  · exact completeAbandon _ _

theorem loseSource : AddsNoOrder p (p.loseSource h slot) := by
  unfold Chip.loseSource
  split
  · split
    · exact refl p
    · exact ((updHoist _).trans (giveUpDestination _)).trans (endHeld _)
  · split
    · exact refl p
    · exact ((giveUpDestination _).trans (endHeld _)).trans endEmpty

theorem takeDestination (t : Trip) (zr : Nat) (b : BayId) (kind : TripKind) :
    AddsNoOrder p (p.takeDestination h t zr b kind) := of_frame Chip.takeDestination_unchangedBut (by decide)

theorem retargetFrom {t : Trip} {zr : Nat} (taken : p.retargetFrom h t zr = some q) : AddsNoOrder p q := by
  obtain ⟨b, _, rfl⟩ := Option.map_eq_some_iff.mp taken
  exact takeDestination t zr b _

theorem loseDestination : AddsNoOrder p (p.loseDestination h slot) := by
  unfold Chip.loseDestination
  split
  · exact dropStaged _
  · split
    · exact refl p
    · split
      · split
        · exact retargetFrom ‹_›
        · exact (updHoist _).trans (abandon _)
      · split
        case h_1 | h_2 =>
          split
          · exact retargetFrom ‹_›
          · exact of_same rfl
        all_goals exact of_same rfl

theorem takeFault (cause : FaultCause) (detail : Option Nat) : AddsNoOrder p (p.takeFault h cause detail) := by
  unfold Chip.takeFault
  simp only
  split
  · exact updHoist _
  · exact (dropStaged _).trans (of_same rfl)

theorem takePositionFault (cause : FaultCause) (detail : Option Nat) :
    AddsNoOrder p (p.takePositionFault h cause detail) := (updUnit _).trans (takeFault cause detail)

theorem engageTest : AddsNoOrder p (p.engageTest h) := by
  unfold Chip.engageTest
  split
  · exact refl p
  · split
    · exact refl p
    · split
      · exact (of_same rfl).trans ((setHeld_none (h := h) (slot := .active)).trans (of_same rfl))
      · exact of_same rfl

theorem completeRelease (t : Trip) : AddsNoOrder p (p.completeRelease h t) := by
  have delivered : AddsNoOrder p (p.delivered h t) := of_frame (p.delivered_unchangedBut h t) (by decide)
  unfold Chip.completeRelease
  simp only
  split
  · exact ((delivered.trans (updHoist _)).trans (dropStaged _)).trans endActive
  · exact delivered.trans endActive

theorem releaseTest : AddsNoOrder p (p.releaseTest h) := by
  unfold Chip.releaseTest
  split
  · exact refl p
  · split
    · exact completeRelease _
    · exact refl p

theorem completionTest : AddsNoOrder p (p.completionTest h) := by
  unfold Chip.completionTest
  split
  · exact engageTest
  · exact releaseTest
  · exact refl p

/-! ### Links, motion and timers (spec/05, spec/07, spec/08) -/

theorem closeSegment : AddsNoOrder p (p.closeSegment h) := by
  unfold Chip.closeSegment
  simp only
  split
  · exact (updLink _).trans (takeFault _ _)
  · exact updLink _

theorem closeIfOpen : AddsNoOrder p (p.closeIfOpen h) := by
  unfold Chip.closeIfOpen
  split
  · exact updLink _
  · exact closeSegment

theorem driveChecks (x : DriveReply) : AddsNoOrder p (p.driveChecks h x) := by
  unfold Chip.driveChecks
  split
  · exact takeFault _ _
  · split
    · exact takeFault _ _
    · exact refl p

theorem takeReply (x : DriveReply) : AddsNoOrder p (p.takeReply h x) := by
  unfold Chip.takeReply
  simp only
  split
  · exact refl p
  · split
    · exact updLink _
    · exact (updLink _).trans (((driveChecks _).trans (updHoist _)).trans completionTest)

theorem completeReply (byte : Byte) : AddsNoOrder p (p.completeReply h byte) := by
  unfold Chip.completeReply
  split
  · exact (updLink _).trans (takeReply _)
  · exact of_same rfl

theorem checkMarkers (zBefore : Nat) : AddsNoOrder p (p.checkMarkers h zBefore) := by
  unfold Chip.checkMarkers
  simp only
  split
  · split
    · exact (updUnit _).trans (takePositionFault _ _)
    · exact updUnit _
  · exact refl p

theorem overspeedCheck : AddsNoOrder p (p.overspeedCheck h) := by
  unfold Chip.overspeedCheck
  extract_lets
  split
  · exact (updHoist _).trans (takeFault _ _)
  · exact updHoist _

theorem approachTest (t : Trip) : AddsNoOrder p (p.approachTest h t) := by
  unfold Chip.approachTest
  split
  · split <;> exact of_same rfl
  · exact refl p

theorem phaseTest (previous : Int) : AddsNoOrder p (p.phaseTest h previous) := by
  unfold Chip.phaseTest
  split
  · exact refl p
  · split
    · unfold Chip.travelTest
      split
      · exact (of_same rfl : AddsNoOrder p (p.enterApproach h)).trans (approachTest _)
      · split <;> exact of_same rfl
    · exact approachTest _
    · split <;> exact of_same rfl
    · exact refl p

theorem segment : AddsNoOrder p (p.segment h) :=
  ((((((updHoist _).trans closeIfOpen).trans ((updUnit _).trans (checkMarkers _))).trans overspeedCheck).trans
    (of_frame (Chip.clearHeightCheck_unchangedBut h _) (by decide))).trans (phaseTest _)).trans (of_same rfl)

theorem expirePhaseTimer : AddsNoOrder p (p.expirePhaseTimer h) := by
  unfold Chip.expirePhaseTimer
  split
  · exact takeFault _ _
  · exact updHoist _

theorem expireDwell : AddsNoOrder p (p.expireDwell h) := by
  cases active : (p.hoist h).active with
  | none => exact of_same (by simp [Chip.expireDwell, active])
  | some t => exact of_frame (Chip.expireDwell_unchangedBut active) (by decide)

/-! ### The lines of the shaft (spec/02, section 2.5; spec/03; spec/04) -/

theorem takePulse : AddsNoOrder p (p.takePulse h) := by
  unfold Chip.takePulse
  simp only
  split
  · exact of_same rfl
  · split
    case h_4 => exact (updUnit _).trans (takePositionFault _ _)
    all_goals exact of_same rfl

theorem encoderEdge (levels : Channels) : AddsNoOrder p (p.encoderEdge h levels) := by
  unfold Chip.encoderEdge
  simp only
  split
  · exact (updUnit _).trans (takePositionFault _ _)
  · exact updUnit _

theorem reconcile (b : BayId) (level : Occupancy) : AddsNoOrder p (p.reconcile b level) := by
  have lost : ∀ m, AddsNoOrder p ((p.barBay b .lost).massLostFromBay m) := fun m =>
    (of_same rfl : AddsNoOrder p (p.barBay b .lost)).trans (massLostFromBay m)
  unfold Chip.reconcile
  simp only
  split
  case h_5 =>
    split
    · exact refl p
    · split
      · exact releaseTest
      · split
        · exact (of_same rfl : AddsNoOrder p (p.barBay b .foreign)).trans loseDestination
        · exact refl p
  case h_6 =>
    split
    · exact refl p
    · split
      · exact (massAbsent _).trans (of_same rfl)
      · exact lost _
  case h_7 =>
    split
    · exact of_same rfl
    · split
      · exact lost _
      · exact (lost _).trans loseSource
  all_goals exact of_same rfl

theorem actOnLatch (level : Latch) : AddsNoOrder p (p.actOnLatch h level) := by
  unfold Chip.actOnLatch
  simp only
  split
  · exact completionTest
  · split
    · exact completeWithdrawal
    · split
      · exact takeFault _ _
      · exact completionTest

theorem finish {before : Chip} : AddsNoOrder p (Chip.finish before p) := of_same (Chip.finish_orders _ _)

theorem reply (a : Answer) : AddsNoOrder p (p.reply a) := of_same (p.reply_orders a)

theorem sampleBay (levels : BitVec 64) (b : BayId) : AddsNoOrder p (Chip.sampleBay levels p b) := by
  have recorded : ∀ bank level, AddsNoOrder p ((p.withSensors bank).updBay b fun r => { r with sensor := some level }) :=
    fun _ _ => of_same rfl
  rw [Chip.sampleBay_eq]
  split
  · exact of_same rfl
  · exact recorded _ _
  · exact ((recorded _ _).trans (reconcile b _)).trans finish

theorem sampleLatch (levels : BitVec 4) (k : HoistId) : AddsNoOrder p (Chip.sampleLatch levels p k) := by
  have recorded : ∀ bank level, AddsNoOrder p ((p.withSensors bank).updHoist k fun c => { c with latchLevel := some level }) :=
    fun _ _ => of_same rfl
  rw [Chip.sampleLatch_eq]
  split
  · exact of_same rfl
  · exact recorded _ _
  · exact ((recorded _ _).trans (actOnLatch _)).trans finish

theorem sampleInstant (sample : GroupSample) : AddsNoOrder p (p.sampleInstant sample) := by
  cases sample with
  | bay levels =>
    exact (of_same rfl : AddsNoOrder p p.bayInstantTaken).trans (foldl _ (fun _ => sampleBay levels) _)
  | latch levels =>
    exact (of_same rfl : AddsNoOrder p p.latchInstantTaken).trans (foldl _ (fun _ => sampleLatch levels) _)

theorem interlockHalt : AddsNoOrder p (p.interlockHalt h) := by
  unfold Chip.interlockHalt
  simp only
  split <;> exact of_same rfl

/-! ### The Trip Selector (spec/06) -/

/-- A staging takes one place at most, for the order it is given. -/
theorem stage_places (t : Trip) (o : Option Order) :
    (p.stage h t o).orders.places ≤ p.orders.places + flagCode o.isSome := by
  obtain ⟨slot, _, reserved, _⟩ := Chip.stage_reserve (p := p) (h := h) (t := t) o
  rw [reserved .orders (by decide)]
  cases o with
  | none => exact Nat.le_add_right _ _
  | some o =>
    have held : (p.reserve h slot t (some o)).orders = (p.setHeld h slot (some o)).orders := by cases slot <;> rfl
    rw [held]
    exact Nat.le.intro (p.setHeld_places h slot (some o))

/-- The order of a directed trip leaves the list as it becomes held (R129, R132). -/
theorem tryFor : AddsNoOrder p (p.tryFor h) := by
  unfold Chip.tryFor
  split
  · rename_i o source chosen
    have fewer : (removeFirst (p.orderFits h) p.orders.queue).length + 1 = p.orders.queue.length := by
      unfold Chip.directedChoice at chosen
      split at chosen
      · exact absurd chosen (by simp)
      · exact removeFirst_length ‹_›
    refine Nat.le_trans (stage_places _ _) ?_
    show (removeFirst (p.orderFits h) p.orders.queue).length + _ + 1 ≤ _
    rw [Nat.add_right_comm, fewer]
    exact Nat.le_refl _
  · split
    · exact stage_places _ none
    · exact refl p

theorem nextTry : AddsNoOrder p p.nextTry := by
  cases serving : p.selector.serving with
  | nil => exact of_same (by simp [Chip.nextTry, serving])
  | cons h rest =>
    rw [Chip.nextTry_eq serving]
    split
    · exact (of_same rfl : AddsNoOrder p (p.served rest)).trans tryFor
    · exact of_same rfl

/-! ### The Power Allocator (spec/05 R134, spec/07) -/

theorem reevaluate : AddsNoOrder p (p.reevaluate h) := by
  unfold Chip.reevaluate
  simp only
  split <;> exact of_same rfl

theorem endOtherKind (m : PlantMode) : AddsNoOrder p (p.endOtherKind h m) := by
  have staged : AddsNoOrder p (match (p.hoist h).staged with
      | some t => if t.ofAnotherKind m then p.dropStaged h .returned else p
      | none => p) := by
    split
    · split
      · exact dropStaged _
      · exact refl p
    · exact refl p
  unfold Chip.endOtherKind
  extract_lets q
  split
  · split
    · exact staged.trans (abandon _)
    · exact staged
  · exact staged

theorem takeModeRequest : AddsNoOrder p (p.takeModeRequest h) := by
  unfold Chip.takeModeRequest
  split
  · exact refl p
  · exact trans (of_same rfl) (endOtherKind _)

/-! ### The Plant Link Port and RESTART (spec/10) -/

theorem takeFrame (f : Frame) : AddsNoOrder p (p.takeFrame f) := by
  unfold Chip.takeFrame
  simp only
  split
  · exact (port _).trans (reply _)
  · exact port _

theorem completeFrame (byte : Byte) : AddsNoOrder p (p.completeFrame byte) := by
  unfold Chip.completeFrame Chip.placeFrame
  simp only
  split
  · split
    · exact (port _).trans (takeFrame _)
    · exact port _
    · exact port _
  · exact port _

theorem settleGap : AddsNoOrder p p.settleGap := by
  unfold Chip.settleGap
  split <;> exact of_same rfl

theorem receiveByte (byte : Byte) : AddsNoOrder p (p.receiveByte byte) := by
  unfold Chip.receiveByte
  split <;> exact of_same rfl

theorem endReply : AddsNoOrder p p.endReply := by
  unfold Chip.endReply
  simp only
  split
  · exact (port _).trans (takeFrame _)
  · exact port _

theorem answerRestart : AddsNoOrder p p.answerRestart := of_frame p.answerRestart_unchangedBut (by decide)

theorem restartQueue : AddsNoOrder p p.restartQueue := (queue _ (Nat.zero_le _)).trans (port _)

theorem restartPower : AddsNoOrder p p.restartPower :=
  (of_frame (p.setSetpoint_unchangedBut 0) (by decide)).trans (port _)

theorem restartHoist : AddsNoOrder p (p.restartHoist h) := by
  have loaded : ∀ q : Chip, AddsNoOrder q (q.restartLoaded h) := fun q => by
    unfold Chip.restartLoaded
    split <;> exact of_same rfl
  have trips : AddsNoOrder p (p.restartTrips h) := by
    unfold Chip.restartTrips
    simp only
    split
    · exact dropStaged _
    · split
      · exact ((dropStaged _).trans (abandon _)).trans (updHoist _)
      · exact (dropStaged _).trans (loaded _)
  exact trips.trans (of_same rfl)

/-! ### The commands that move orders (spec/01, spec/05, spec/06) -/

theorem retireMass (number : Nat) : AddsNoOrder p (Machine.retireMass number p).1 := by
  unfold Machine.retireMass
  split
  · exact refl p
  · split
    case h_5 => exact massAbsent _
    case h_6 =>
      split
      · exact refl p
      · split
        · exact refl p
        · exact (updMass _ _).trans (notifyOrders _)
    all_goals exact refl p

theorem cancelOrder (mass : Nat) : AddsNoOrder p (Machine.cancelOrder mass p).1 := by
  unfold Machine.cancelOrder
  split
  · exact refl p
  · split
    · exact (queue p.orders.dropped (List.length_filter_le _ _)).trans request
    · exact (dropStaged .discarded).trans (of_frame Chip.dropStaged_cancelStaged (by decide))
    · split
      · exact refl p
      · exact abandon _
    · exact refl p

theorem abandonTrip (hoist : Nat) : AddsNoOrder p (Machine.abandonTrip hoist p).1 := by
  have trip : ∀ h t, AddsNoOrder p (p.abandonTrip h t) := fun h t => by
    unfold Chip.abandonTrip
    simp only
    split
    · exact (dropStaged _).trans (abandon _)
    · exact (dropStaged _).trans (((((updMass _ _).trans (notifyOrders _)).trans (giveUpDestination _)).trans
        (of_frame (Chip.barClearedSource_unchangedBut _ h _) (by decide))).trans endActive)
  unfold Machine.abandonTrip
  split
  · exact refl p
  · split
    · exact refl p
    · split
      · exact refl p
      · exact trip _ _

/-! ### The commands that move none -/

theorem admitMass (number nominal bay : Nat) : AddsNoOrder p (Machine.admitMass number nominal bay p).1 := by
  unfold Machine.admitMass
  split
  · iterate 4
      split
      · exact refl p
    exact of_same rfl
  · exact refl p

theorem amendMass (number nominal : Nat) : AddsNoOrder p (Machine.amendMass number nominal p).1 := by
  unfold Machine.amendMass
  split
  · exact refl p
  · split
    · exact refl p
    · split
      case h_5 | h_6 => simp only; split <;> exact of_same rfl
      all_goals exact refl p

theorem foundMass (number bay : Nat) : AddsNoOrder p (Machine.foundMass number bay p).1 := by
  unfold Machine.foundMass
  split
  · iterate 5
      split
      · exact refl p
    exact of_same rfl
  · exact refl p

theorem surveyBay (number elevation access service : Nat) :
    AddsNoOrder p (Machine.surveyBay number elevation access service p).1 := by
  have survey : ∀ b (set : BitVec 4) flag, AddsNoOrder p (p.survey b elevation set flag) := fun b set flag => by
    unfold Chip.survey
    extract_lets before q q'
    refine trans ?_ (foldl _ (fun _ _ => updUnit _) _)
    unfold q'
    split
    · split <;> exact of_same rfl
    · exact of_same rfl
  unfold Machine.surveyBay
  split
  · iterate 3
      split
      · exact refl p
    exact survey _ _ _
  · exact refl p

theorem barBay (number : Nat) : AddsNoOrder p (Machine.barBay number p).1 := by
  unfold Machine.barBay
  split
  · exact refl p
  · simp only
    split
    case h_2 | h_5 => split <;> exact of_same rfl
    all_goals exact of_same rfl

theorem unbarBay (number : Nat) : AddsNoOrder p (Machine.unbarBay number p).1 := by
  have lifted : ∀ b, AddsNoOrder p (p.liftBarring b) := fun b => by
    unfold Chip.liftBarring
    split <;> exact of_same rfl
  unfold Machine.unbarBay
  split
  · exact refl p
  · rename_i b _
    split
    · exact refl p
    · generalize (if (p.bay b).occupant.isSome then Occupancy.occupied else Occupancy.empty) = wanted
      split
      · exact refl p
      · exact lifted _

theorem holdHoist (hoist mode : Nat) : AddsNoOrder p (Machine.holdHoist hoist mode p).1 := by
  unfold Machine.holdHoist
  split <;> exact of_same rfl

theorem resume (hoist : Nat) : AddsNoOrder p (Machine.resume hoist p).1 := by
  have resumed : ∀ (q : Chip) h, AddsNoOrder q (q.resumeHoist h) := fun _ _ =>
    of_frame Chip.resumeHoist_unchangedBut (by decide)
  unfold Machine.resume
  split
  · exact refl p
  · split
    · exact refl p
    · exact resumed _ _
  · iterate 2
      split
      · exact refl p
    exact foldl _ resumed _

theorem retarget (hoist bay : Nat) : AddsNoOrder p (Machine.retarget hoist bay p).1 := by
  unfold Machine.retarget
  split
  · split
    · exact refl p
    · split
      · exact refl p
      · iterate 4
          split
          · exact refl p
        exact takeDestination _ _ _ _
  · exact refl p

theorem referenceHoist (hoist bay : Nat) : AddsNoOrder p (Machine.referenceHoist hoist bay p).1 := by
  unfold Machine.referenceHoist
  split
  · iterate 3
      split
      · exact refl p
    exact of_same rfl
  · exact refl p

theorem clearFault (hoist : Nat) : AddsNoOrder p (Machine.clearFault hoist p).1 := by
  have cleared : ∀ h, AddsNoOrder p (p.clearFault h) := fun h => by
    unfold Chip.clearFault
    simp only
    split <;> exact of_same rfl
  unfold Machine.clearFault
  split
  · exact refl p
  · split
    · exact refl p
    · exact cleared _

theorem enableHoist (hoist setting : Nat) : AddsNoOrder p (Machine.enableHoist hoist setting p).1 := by
  unfold Machine.enableHoist
  split
  · split <;> exact of_same rfl
  · exact refl p

theorem setParam (identifier hoist : Nat) (value : Int) : AddsNoOrder p (Machine.setParam identifier hoist value p).1 := by
  unfold Machine.setParam
  split
  · split
    · exact refl p
    · exact of_frame Chip.setPlant_unchangedBut (by decide)
  · split
    · split
      · exact refl p
      · split
        · exact refl p
        · exact of_frame Chip.setHoistParam_unchangedBut (by decide)
    · exact refl p

/-! ### The ends of a meaning -/

section
variable {s t : State} {i : Instr}

theorem event {arises : Bool} {effect : Chip} (next : s.event arises effect = .next t)
    (adds : AddsNoOrder s.chip effect) : AddsNoOrder s.chip t.chip := by
  obtain rfl | ⟨_, rfl⟩ := s.event_next t arises effect next
  · exact refl _
  · exact adds.trans finish

theorem query {a : Answer} (next : s.query i a = .next t) : AddsNoOrder s.chip t.chip := by
  obtain rfl | ⟨_, rfl⟩ := s.query_next t i a next
  · exact refl _
  · exact reply a

theorem command {taken : Chip × Answer} (next : s.command i taken = .next t)
    (adds : AddsNoOrder s.chip taken.1) : AddsNoOrder s.chip t.chip := by
  obtain rfl | ⟨_, _, rfl⟩ | ⟨_, _, rfl⟩ := s.command_next t i taken next
  · exact refl _
  · exact reply _
  · exact (adds.trans finish).trans (reply _)

theorem restartPart {due : RestartWork → Bool} {effect : Chip} (next : s.restartPart due effect = .next t)
    (adds : AddsNoOrder s.chip effect) : AddsNoOrder s.chip t.chip := by
  unfold State.restartPart at next
  split at next
  · obtain rfl := Host.Outcome.next.inj next
    exact refl _
  · split at next <;> obtain rfl := Host.Outcome.next.inj next
    · exact (adds.trans finish).trans answerRestart
    · exact refl _

end

/-- ORDER_MOVE is the one command that takes a place. -/
theorem exec (i : Instr) (s t : State) (next : exec i s = .next t)
    (other : ∀ mass destination hoist, i ≠ .orderMove mass destination hoist) : AddsNoOrder s.chip t.chip := by
  cases i with
  | orderMove mass destination hoist => exact absurd rfl (other mass destination hoist)
  | powerOnReset =>
    obtain rfl := Host.Outcome.next.inj next
    exact Nat.zero_le _
  | millisecondMark | interlockClosedAcceptance | interlockClosedTaken | servingStart | replyPartialTimeout | frameGapTimeout =>
    exact event next (of_same rfl)
  | segmentEvent => exact event next segment
  | linkTimeout => exact event next (closeSegment.trans (updLink _))
  | hoistLinkReply => exact event next (completeReply _)
  | hoistLinkReplyByte =>
    refine event next ?_
    unfold Chip.takeReplyByte
    split <;> exact of_same rfl
  | filterSampleInstant => exact event next (sampleInstant _)
  | interlockHalt => exact event next interlockHalt
  | markerPulse h =>
    change execMarkerPulse h s = .next t at next
    refine event next ?_
    split
    · exact refl _
    · exact takePulse
  | encoderEdge h levels =>
    change execEncoderEdge h levels s = .next t at next
    exact event next (encoderEdge levels)
  | phaseTimerExpiry => exact event next expirePhaseTimer
  | dwellLimitExpiry => exact event next expireDwell
  | tryHoist => exact event next nextTry
  | eligibilityReevaluation => exact event next reevaluate
  | endTripsOfAnotherKind => exact event next takeModeRequest
  | frameComplete => exact event next (completeFrame _)
  | characterError =>
    change execCharacterError s = .next t at next
    exact event next (settleGap.trans (port _))
  | plantLinkByte => exact event next (settleGap.trans (receiveByte _))
  | replyEnd => exact event next endReply
  | getMass | nextMass | getBay | nextBay | getHoist | getOrder | getEnergy | getParam | snapshot => exact query next
  | getPlant page =>
    change execGetPlant page s = .next t at next
    unfold execGetPlant at next
    split at next
    · exact query next
    · split at next <;> obtain rfl := Host.Outcome.next.inj next
      · exact (reply _).trans (port _)
      · exact refl _
  | admitMass => exact command next (admitMass _ _ _)
  | amendMass => exact command next (amendMass _ _)
  | retireMass => exact command next (retireMass _)
  | foundMass => exact command next (foundMass _ _)
  | surveyBay => exact command next (surveyBay _ _ _ _)
  | barBay => exact command next (barBay _)
  | unbarBay => exact command next (unbarBay _)
  | cancelOrder => exact command next (cancelOrder _)
  | setPower => exact command next (of_frame (Chip.setSetpoint_unchangedBut _ _) (by decide))
  | holdHoist => exact command next (holdHoist _ _)
  | resume => exact command next (resume _)
  | abandonTrip => exact command next (abandonTrip _)
  | retarget => exact command next (retarget _ _)
  | referenceHoist => exact command next (referenceHoist _ _)
  | clearFault => exact command next (clearFault _)
  | enableHoist => exact command next (enableHoist _ _)
  | setParam => exact command next (setParam _ _ _)
  | restart =>
    change execRestart s = .next t at next
    unfold execRestart at next
    split at next <;> obtain rfl := Host.Outcome.next.inj next
    · exact port _
    · exact refl _
  | restartOrderQueue => exact restartPart next restartQueue
  | restartPowerAllocator => exact restartPart next restartPower
  | restartHoist => exact restartPart next restartHoist

theorem orderPlaces (adds : AddsNoOrder p q) (places : p.OrderPlaces) : q.OrderPlaces := by
  rw [Chip.orderPlaces_iff] at places ⊢
  exact Nat.le_trans adds places

end Chip.AddsNoOrder

/-- ORDER_MOVE adds its order only where a place is free (R116, R118). -/
theorem orderMove_keeps_orderPlaces {mass destination hoist : Nat} {p : Chip} (places : p.OrderPlaces) :
    (orderMove mass destination hoist p).1.OrderPlaces := by
  unfold orderMove
  split
  · split
    · exact places
    · rename_i passes
      have room := Chip.orderPlaces_lt_of_orderRefusal passes
      show (p.orders.queue ++ [_]).length + p.heldCount ≤ 16
      rw [List.length_append, List.length_singleton, Nat.add_right_comm]
      exact room
  · exact places

/-- Settles O7: ORDER_MOVE checks for a free place, and no other command takes one. -/
theorem stepKeepsSixteenOrderPlaces : Obligations.StepKeepsSixteenOrderPlaces := by
  intro s t places next
  unfold step at next
  split at next
  · obtain rfl := Host.Outcome.next.inj next
    exact places
  · rename_i i rest _
    by_cases isMove : ∃ mass destination hoist, i = .orderMove mass destination hoist
    · obtain ⟨mass, destination, hoist, rfl⟩ := isMove
      obtain rfl | ⟨_, _, rfl⟩ | ⟨_, _, rfl⟩ := State.command_next _ _ _ _ next
      · exact places
      · exact (Chip.AddsNoOrder.reply _).orderPlaces places
      · exact (Chip.AddsNoOrder.finish.trans (.reply _)).orderPlaces (orderMove_keeps_orderPlaces places)
    · have adds := Chip.AddsNoOrder.exec i (s.withPending rest) t next fun mass destination hoist same =>
        isMove ⟨mass, destination, hoist, same⟩
      exact adds.orderPlaces places

end Sys2Proof.Machine
end

section
/-! SUPPORT. RESTART at the Order Queue and the Power Allocator (spec/06 R136, spec/07 R154, spec/10 R189), and the beginning of a serving
(spec/06 R127). -/

namespace Sys2Proof.Machine

/-! ### The division of a setpoint of 0 (R142) -/

theorem Quad.tab_const {α : Type} (x : α) : (Quad.tab fun _ => x) = Quad.all x := rfl

theorem sumQuad_zero : sumQuad (Quad.all 0) = 0 := rfl

theorem divideAmong_zero (set : Quad Bool) : divideAmong 0 set = Quad.all 0 := by
  simp [divideAmong, Quad.tab_const]

theorem sharesOf_zero (eligible : Quad Bool) (rated : Quad Nat) : sharesOf 0 eligible rated = Quad.all 0 := by
  simp [sharesOf, divideAmong_zero, Quad.tab_const, sumQuad_zero]

/-- With a setpoint of 0 the plant is in STANDBY and nothing is shared out or left unserved (R139, R142). -/
theorem Chip.setpointTaken_zero {p q : Chip} (taken : p.setpointTaken q 0) :
    q.power.setpoint = 0 ∧ q.power.mode = .standby ∧ (∀ h, q.power.share.get h = 0) ∧ q.power.total = 0 ∧
      q.power.unserved = 0 := by
  obtain ⟨setpoint, mode, share, total, unserved, _⟩ := taken
  have none_shared : q.power.share = Quad.all 0 := share.trans (sharesOf_zero _ _)
  have nothing : q.power.total = 0 := by rw [total, none_shared, sumQuad_zero]
  exact ⟨setpoint, mode, fun h => by rw [none_shared, Quad.get_all], nothing, by rw [unserved, nothing]; rfl⟩

/-! ### An owner takes RESTART (R189) -/

/-- An owner that moves no controller, link or line takes RESTART: the tallies stand where another has still to take it, and the reply of
the last begins. -/
theorem Chip.Kept.restart_taken {s : State} (kept : s.chip.Kept) {w now : RestartWork} {due : RestartWork → Bool}
    {f : RestartWork → RestartWork} {q : Chip} (underWay : s.chip.port.restart = some w) (isDue : due w = true)
    (quiet : s.chip.unchangedBut q [.orders, .selector, .power]) (isNow : now = f w) :
    ∃ t, s.restartPart due (q.updRestart f) = .next t ∧ t.pending = s.pending ∧ q.unchangedBut t.chip [.port] ∧
      (now.complete = false → t.chip.port.restart = some now ∧ t.chip.port.sending = s.chip.port.sending) ∧
      (now.complete = true → s.chip.restartAnswered t.chip now) := by
  obtain ⟨e, def_e⟩ : ∃ e, e = s.chip.finish (q.updRestart f) := ⟨_, rfl⟩
  have port : q.port = s.chip.port := quiet .port (by decide)
  have units : q.units = s.chip.units := quiet .units (by decide)
  have next : s.restartPart due (q.updRestart f) = .next { s with chip := e.answerRestart } := by
    simp only [State.restartPart, underWay, isDue, ← def_e]
    rfl
  have ended : (q.updRestart f).unchangedBut e [.port] := def_e ▸ kept.finish_port_only (quiet .hoists (by decide))
    (quiet .links (by decide)) (fun h => congrArg (fun u : Quad PositionUnit => (u.get h).referenced) units)
    (Chip.interlock_of_sensors (quiet .sensors (by decide)))
  have tally : e.port.restart = some now := by
    rw [def_e, Chip.finish_restart]
    show q.port.restart.map f = _
    rw [port, underWay, isNow]
    rfl
  have sending : e.port.sending = s.chip.port.sending := by
    rw [def_e, Chip.finish_sending, ← port]
    rfl
  have inHand : e.port.inHand = s.chip.port.inHand := by
    rw [def_e, Chip.finish_inHand, ← port]
    rfl
  refine ⟨_, next, rfl, Chip.unchangedBut_trans (q.updRestart_unchangedBut f)
    (Chip.unchangedBut_trans ended e.answerRestart_unchangedBut), fun waits => ?_,
    Chip.restartAnswered_answerRestart tally inHand⟩
  rw [Chip.answerRestart_incomplete tally waits]
  exact ⟨tally, sending⟩

/-- An owner that has still to take RESTART keeps it from its end. -/
theorem RestartWork.complete_false_of_due {w : RestartWork}
    (due : w.queueDue = true ∨ w.powerDue = true ∨ ∃ h, w.hoistDue.get h = true) : w.complete = false := by
  rw [← Bool.not_eq_true, RestartWork.complete_iff]
  rintro ⟨queue, power, hoists⟩
  rcases due with due | due | ⟨h, due⟩
  · exact Bool.noConfusion (queue.symm.trans due)
  · exact Bool.noConfusion (power.symm.trans due)
  · exact Bool.noConfusion ((hoists h).symm.trans due)

/-- Settles O45: RESTART begins at the port, and the two owners of the list and the setpoint take it. -/
theorem restartReachesItsOwners : Obligations.RestartReachesItsOwners := by
  intro s
  refine ⟨fun hands => ?begins, fun w kept underWay due => ?queue, fun w kept underWay due => ?power⟩
  case begins =>
    refine ⟨{ s with chip := { s.chip with port := { s.chip.port with restart := some RestartWork.handed } } }, ?_, rfl,
      fun x out => ?_, rfl⟩
    · show execRestart s = _
      rw [execRestart, if_pos hands.handed]
      rfl
    · cases x <;> simp at out <;> rfl
  case queue =>
    have emptied := s.chip.orders_unchangedBut { s.chip.orders with queue := [] }
    obtain ⟨t, next, pending, portOnly, waits, answers⟩ := kept.restart_taken
      (f := fun w => { w with queueDue := false, discarded := w.discarded + s.chip.orders.queue.length })
      underWay due (Chip.unchangedBut_mono emptied (by decide)) rfl
    exact ⟨t, next, pending, Chip.unchangedBut_append emptied portOnly, portOnly .orders (by decide),
      fun others => waits (RestartWork.complete_false_of_due (.inr others)),
      fun power hoists => answers ((RestartWork.complete_iff _).mpr ⟨rfl, power, hoists⟩)⟩
  case power =>
    have change := s.chip.setSetpoint_unchangedBut 0
    obtain ⟨t, next, pending, portOnly, waits, answers⟩ := kept.restart_taken (f := fun w => { w with powerDue := false })
      underWay due (Chip.unchangedBut_mono change (by decide)) rfl
    have taken : s.chip.setpointTaken t.chip 0 := Chip.setpointTaken_congr (portOnly .power (by decide))
      (portOnly .selector (by decide)) (portOnly .hoists (by decide)) (s.chip.setpointTaken_setSetpoint 0)
    obtain ⟨setpoint, mode, share, total, unserved⟩ := Chip.setpointTaken_zero taken
    refine ⟨t, next, pending, Chip.unchangedBut_mono (Chip.unchangedBut_append change portOnly) (by decide), taken, setpoint,
      mode, share, total, unserved, fun running => ?_, fun others => waits (RestartWork.complete_false_of_due ?_),
      fun queue hoists => answers ((RestartWork.complete_iff _).mpr ⟨queue, rfl, hoists⟩)⟩
    · obtain ⟨_, _, _, _, _, _, _, handedOn⟩ := taken
      obtain ⟨requests, selector⟩ := handedOn (by rw [mode]; exact running.symm)
      refine ⟨by rw [selector], fun h => ?_⟩
      rw [← mode]
      exact (requests h).2
    · exact others.imp_right .inr

/-! ### SERVING_START (R127) -/

theorem Chip.startServing_unchangedBut (p : Chip) : p.unchangedBut p.startServing [.selector] := by
  intro x out
  cases x <;> simp at out <;> rfl

/-- Settles O47: the list is formed in the selector, and the end of the event reports the conditions only. -/
theorem servingStartFormsTheList : Obligations.ServingStartFormsTheList := by
  intro s kept requested idle
  have next : exec .servingStart s = .next { s with chip := s.chip.finish s.chip.startServing } :=
    s.event_of _ _ (by simp [Chip.servingReady, requested, idle])
  have started := s.chip.startServing_unchangedBut
  have finished := Chip.finish_quiet (p := s.chip.startServing) kept rfl rfl (fun _ => rfl) rfl
  refine ⟨_, next, rfl, Chip.unchangedBut_append started (kept.finish_unchangedBut (Chip.unchangedBut_mono started (by decide))),
    ?_, by rw [finished]; rfl⟩
  unfold Chip.portReported
  rw [Chip.finish_conditions, finished]
  rfl

end Sys2Proof.Machine
end

section
/-! SUPPORT. Every step keeps the Power Allocator's records (spec/07 R137 to R139, R142, R143): the division leaves them agreeing where the setpoint
is in its range and the mode has its sign, and every operation that makes no division touches neither the allocator nor what the division reads. -/

namespace Sys2Proof.Machine

/-- What every step keeps, from `p` to `q`: the agreement of the Power Allocator's records. -/
def Chip.KeepsPower (p q : Chip) : Prop := p.PowerRecords → q.PowerRecords

/-! ### The division and the setpoint (R138 to R143) -/

section
variable {p : Chip}

/-- A division leaves the shares, the total and the unserved power agreeing with what it divides. -/
theorem Chip.allocate_records (setpoint : p.power.setpoint.natAbs ≤ p.params.pPlantMax)
    (mode : p.power.mode = modeOf p.power.setpoint) : p.allocate.PowerRecords := ⟨setpoint, mode, rfl, rfl, rfl⟩

theorem clampTo_natAbs_le (m : Nat) (x : Int) : (clampTo m x).natAbs ≤ m := by
  unfold clampTo
  omega

/-- A setpoint within the limit gives the plant its mode, and is divided. -/
theorem Chip.setSetpoint_records {x : Int} (within : x.natAbs ≤ p.params.pPlantMax) : (p.setSetpoint x).PowerRecords := by
  unfold Chip.setSetpoint
  simp only
  split
  · exact Chip.allocate_records within rfl
  · rename_i same
    exact Chip.allocate_records within (not_not.mp same).symm

end

namespace Chip.KeepsPower

variable {p q r : Chip} {h : HoistId}

/-- The records read of the allocator all but what waits at it, and of the parameters P_PLANT_MAX and P_RATED. -/
theorem of_read (power : q.power = { p.power with handed := q.power.handed, modeRequests := q.power.modeRequests })
    (limit : q.params.pPlantMax = p.params.pPlantMax) (rated : ∀ h, (q.hp h).pRated = (p.hp h).pRated) : KeepsPower p q := by
  intro records
  have mode : q.power.mode = p.power.mode := by rw [power]
  have setpoint : q.power.setpoint = p.power.setpoint := by rw [power]
  have eligible : q.power.eligible = p.power.eligible := by rw [power]
  have share : q.power.share = p.power.share := by rw [power]
  have total : q.power.total = p.power.total := by rw [power]
  have unserved : q.power.unserved = p.power.unserved := by rw [power]
  constructor
  · rw [setpoint, limit]
    exact records.setpoint
  · rw [mode, setpoint]
    exact records.mode
  · simp only [share, setpoint, eligible, rated]
    exact records.share
  · rw [total, share]
    exact records.total
  · rw [unserved, setpoint, total]
    exact records.unserved

theorem of_same (power : q.power = p.power) (params : q.params = p.params) (hoistParams : q.hoistParams = p.hoistParams) :
    KeepsPower p q :=
  of_read (by rw [power]) (by rw [params]) fun h => by rw [Chip.hp, hoistParams, ← Chip.hp]

theorem of_frame {parts : List Part} (frame : p.unchangedBut q parts)
    (apart : .power ∉ parts ∧ .params ∉ parts ∧ .hoistParams ∉ parts) : KeepsPower p q :=
  of_same (frame .power apart.1) (frame .params apart.2.1) (frame .hoistParams apart.2.2)

/-- No operation on a hoist's trips touches the allocator or a parameter. -/
theorem of_trips (frame : TripFrame h p q) : KeepsPower p q := of_same frame.power frame.params frame.hoistParams

theorem of_segment (step : SegmentStep h p q) : KeepsPower p q := of_frame step.parts (by decide)

theorem refl (p : Chip) : KeepsPower p p := id

theorem trans (first : KeepsPower p q) (second : KeepsPower q r) : KeepsPower p r := second ∘ first

theorem foldl {α : Type} (f : Chip → α → Chip) (each : ∀ q x, KeepsPower q (f q x)) (l : List α) :
    KeepsPower p (l.foldl f p) := by
  induction l generalizing p with
  | nil => exact refl p
  | cons x _ ih => exact (each p x).trans ih

theorem updUnit (f : PositionUnit → PositionUnit) : KeepsPower p (p.updUnit h f) := of_same rfl rfl rfl

theorem updLink (f : LinkPort → LinkPort) : KeepsPower p (p.updLink h f) := of_same rfl rfl rfl

theorem port (x : PlantPort) : KeepsPower p { p with port := x } := of_same rfl rfl rfl

/-- The end of an event hands changes to the allocator, and moves none of its records. -/
theorem finish {before : Chip} : KeepsPower p (Chip.finish before p) :=
  of_read rfl (by rw [Chip.finish_params]) fun h => by rw [Chip.finish_hp]

theorem reply (a : Answer) : KeepsPower p (p.reply a) := of_frame (p.reply_unchangedBut a) (by decide)

/-! ### The Power Allocator and the parameters (spec/07, spec/10 R187) -/

theorem setPower (kW : Int) : KeepsPower p (Machine.setPower kW p).1 :=
  fun _ => Chip.setSetpoint_records (clampTo_natAbs_le _ _)

theorem reevaluate : KeepsPower p (p.reevaluate h) := by
  unfold Chip.reevaluate
  simp only
  split
  · exact of_read rfl rfl fun _ => rfl
  · exact fun records => Chip.allocate_records records.setpoint records.mode

theorem takeModeRequest : KeepsPower p (p.takeModeRequest h) := by
  have left : ∀ requests, KeepsPower p { p with power := { p.power with modeRequests := requests } } :=
    fun _ => of_read rfl rfl fun _ => rfl
  unfold Chip.takeModeRequest
  split
  · exact refl p
  · exact (left _).trans (of_trips (.endOtherKind _))

/-- A lowered P_PLANT_MAX brings the setpoint within it (R140); no other plant parameter is read. -/
theorem setPlant (x : PlantParam) (v : Nat) : KeepsPower p (p.setPlant x v) := by
  have rated : ∀ h, (p.setPlant x v).hp h = p.hp h := fun h =>
    congrArg (Quad.get · h) (Chip.setPlant_unchangedBut .hoistParams (by decide))
  by_cases isLimit : x = .pPlantMax
  · subst isLimit
    by_cases idle : v = p.params.pPlantMax ∨ clampTo v p.power.setpoint = p.power.setpoint
    · have limit : (p.setPlant .pPlantMax v).params.pPlantMax = v := by rw [Chip.setPlant_params]; rfl
      have power : (p.setPlant .pPlantMax v).power = p.power := (Chip.setPlant_pPlantMax_idle idle).1
      intro records
      have within : p.power.setpoint.natAbs ≤ v := by
        rcases idle with same | clamped
        · exact same ▸ records.setpoint
        · exact clamped ▸ clampTo_natAbs_le v p.power.setpoint
      constructor <;> simp only [limit, power, rated]
      · exact within
      · exact records.mode
      · exact records.share
      · exact records.total
      · exact records.unserved
    · obtain ⟨change, beyond⟩ := not_or.mp idle
      have clamped : p.setPlant .pPlantMax v =
          ({ p with params := p.params.set .pPlantMax v } : Chip).setSetpoint (clampTo v p.power.setpoint) := by
        rw [Chip.setPlant_of_change (x := .pPlantMax) change]
        exact if_neg beyond
      rw [clamped]
      exact fun _ => Chip.setSetpoint_records (clampTo_natAbs_le _ _)
  · refine of_read (by rw [(Chip.setPlant_power isLimit).1]) ?_ fun h => by rw [rated]
    rw [Chip.setPlant_params]
    cases x with
    | pPlantMax => exact absurd rfl isLimit
    | _ => rfl

/-- A changed P_RATED is divided with; a hoist parameter that leaves it is not read. -/
theorem setHoistParam (x : HoistParam) (v : Nat) : KeepsPower p (p.setHoistParam h x v) := by
  have params : (p.setHoistParam h x v).params = p.params := Chip.setHoistParam_unchangedBut .params (by decide)
  by_cases same : ((p.hp h).set x v).pRated = (p.hp h).pRated
  · refine of_read (by rw [Chip.setHoistParam_power_same same]) (by rw [params]) fun k => ?_
    rw [Chip.setHoistParam_hp]
    split
    · rename_i isHoist
      rw [isHoist, same]
    · rfl
  · have rescaled := Chip.rescale_unchangedBut (p := p) (h := h) ((p.hp h).set x v)
    have power : (p.rescale h ((p.hp h).set x v)).power = p.power := rescaled .power (by decide)
    have limit : (p.rescale h ((p.hp h).set x v)).params = p.params := rescaled .params (by decide)
    rw [Chip.setHoistParam_eq, if_neg (Ne.symm same)]
    exact fun records => Chip.allocate_records (by rw [power, limit]; exact records.setpoint) (by rw [power]; exact records.mode)

theorem setParam (identifier hoist : Nat) (value : Int) : KeepsPower p (Machine.setParam identifier hoist value p).1 := by
  unfold Machine.setParam
  split
  · split
    · exact refl p
    · exact setPlant _ _
  · split
    · split
      · exact refl p
      · split
        · exact refl p
        · exact setHoistParam _ _
    · exact refl p

/-! ### Links, lines and the Trip Selector (spec/03, spec/04, spec/06, spec/08) -/

theorem closeSegment : KeepsPower p (p.closeSegment h) := by
  unfold Chip.closeSegment
  simp only
  split
  · exact (updLink _).trans (of_trips (.takeFault _ _))
  · exact updLink _

theorem completeReply (byte : Byte) : KeepsPower p (p.completeReply h byte) := by
  have taken : ∀ (q : Chip) x, KeepsPower q (q.takeReply h x) := fun q x => by
    unfold Chip.takeReply
    simp only
    split
    · exact refl q
    · split
      · exact updLink _
      · exact (updLink _).trans (of_trips .handOn)
  unfold Chip.completeReply
  split
  · exact (updLink _).trans (taken _ _)
  · exact (updLink _).trans (updLink _)

theorem takeReplyByte (byte : Byte) : KeepsPower p (p.takeReplyByte h byte) := by
  unfold Chip.takeReplyByte
  split <;> exact of_same rfl rfl rfl

theorem sampleBay (levels : BitVec 64) (b : BayId) : KeepsPower p (Chip.sampleBay levels p b) := by
  have recorded : ∀ bank, KeepsPower p (p.withSensors bank) := fun _ => of_same rfl rfl rfl
  have accepted : ∀ (q : Chip) level initial, KeepsPower q (q.acceptBay b level initial) := fun q level initial =>
    of_frame (q.acceptBay_unchangedBut b level initial) (by decide)
  rw [Chip.sampleBay_eq]
  split
  · exact recorded _
  · exact (recorded _).trans (accepted _ _ _)
  · exact ((recorded _).trans (accepted _ _ _)).trans finish

theorem sampleLatch (levels : BitVec 4) (k : HoistId) : KeepsPower p (Chip.sampleLatch levels p k) := by
  have recorded : ∀ bank, KeepsPower p (p.withSensors bank) := fun _ => of_same rfl rfl rfl
  rw [Chip.sampleLatch_eq]
  split
  · exact recorded _
  · exact (recorded _).trans (of_trips (.acceptLatch _ _ _ _))
  · exact ((recorded _).trans (of_trips (.acceptLatch _ _ _ _))).trans finish

theorem sampleInstant (sample : GroupSample) : KeepsPower p (p.sampleInstant sample) := by
  cases sample with
  | bay levels =>
    exact (of_frame p.bayInstantTaken_unchangedBut (by decide)).trans (foldl _ (fun _ => sampleBay levels) _)
  | latch levels =>
    exact (of_frame p.latchInstantTaken_unchangedBut (by decide)).trans (foldl _ (fun _ => sampleLatch levels) _)

theorem encoderEdge (levels : Channels) : KeepsPower p (p.encoderEdge h levels) := by
  unfold Chip.encoderEdge
  simp only
  split
  · exact (updUnit _).trans (of_segment (.takePositionFault _ _))
  · exact updUnit _

theorem takePulse : KeepsPower p (p.takePulse h) := by
  unfold Chip.takePulse
  extract_lets q zc
  have marked : KeepsPower p q := updUnit _
  split
  · exact (marked.trans (updUnit _)).trans (updUnit _)
  · extract_lets dev
    split
    · exact marked.trans (of_same rfl rfl rfl)
    · exact marked.trans (of_same rfl rfl rfl)
    · exact marked.trans (of_same rfl rfl rfl)
    · exact marked.trans (of_segment (.takePositionFault _ _))

theorem nextTry : KeepsPower p p.nextTry := by
  have next : ∀ serving, KeepsPower p { p with selector := { p.selector with serving := serving } } :=
    fun _ => of_same rfl rfl rfl
  unfold Chip.nextTry
  split
  · exact refl p
  · simp only
    split
    · exact (next _).trans (of_trips .tryFor)
    · exact next _

/-! ### The Plant Link Port and RESTART (spec/10) -/

theorem takeFrame (f : Frame) : KeepsPower p (p.takeFrame f) := by
  unfold Chip.takeFrame
  simp only
  split
  · exact (port _).trans (reply _)
  · exact port _

theorem completeFrame (byte : Byte) : KeepsPower p (p.completeFrame byte) := by
  unfold Chip.completeFrame Chip.placeFrame
  simp only
  split
  · split
    · exact (port _).trans (takeFrame _)
    · exact port _
    · exact port _
  · exact port _

theorem settleGap : KeepsPower p p.settleGap := by
  unfold Chip.settleGap
  split
  · exact port _
  · exact refl p

theorem receiveByte (byte : Byte) : KeepsPower p (p.receiveByte byte) := by
  unfold Chip.receiveByte
  split
  · exact refl p
  · exact port _

theorem endReply : KeepsPower p p.endReply := by
  unfold Chip.endReply
  simp only
  split
  · exact (port _).trans (takeFrame _)
  · exact port _

theorem restartHoist : KeepsPower p (p.restartHoist h) := by
  have trips : KeepsPower p (p.restartTrips h) := by
    unfold Chip.restartTrips
    simp only
    split
    · exact of_trips (.dropStaged _)
    · split
      · exact of_trips (((TripFrame.dropStaged _).trans (.abandon _)).trans (.updHoist _))
      · exact of_trips ((TripFrame.dropStaged _).trans .restartLoaded)
  exact (trips.trans (of_trips (.updHoist _))).trans (port _)

/-- RESTART sets the setpoint to 0, which every P_PLANT_MAX holds (R154). -/
theorem restartPower : KeepsPower p p.restartPower :=
  trans (fun _ => Chip.setSetpoint_records (Nat.zero_le _)) (port _)

/-! ### The commands -/

theorem surveyBay (number elevation access service : Nat) :
    KeepsPower p (Machine.surveyBay number elevation access service p).1 := by
  have survey : ∀ b (set : BitVec 4) flag, KeepsPower p (p.survey b elevation set flag) := fun b set flag => by
    unfold Chip.survey
    extract_lets before q q'
    refine trans ?_ (foldl _ (fun _ _ => updUnit _) _)
    unfold q'
    split
    · split <;> exact of_same rfl rfl rfl
    · exact of_same rfl rfl rfl
  unfold Machine.surveyBay
  split
  · iterate 3
      split
      · exact refl p
    exact survey _ _ _
  · exact refl p

theorem barBay (number : Nat) : KeepsPower p (Machine.barBay number p).1 := by
  unfold Machine.barBay
  split
  · exact refl p
  · simp only
    split
    case h_2 | h_5 => split <;> exact of_same rfl rfl rfl
    all_goals exact of_same rfl rfl rfl

theorem unbarBay (number : Nat) : KeepsPower p (Machine.unbarBay number p).1 := by
  have lifted : ∀ b, KeepsPower p (p.liftBarring b) := fun b => by
    unfold Chip.liftBarring
    split <;> exact of_same rfl rfl rfl
  unfold Machine.unbarBay
  split
  · exact refl p
  · split
    · exact refl p
    · dsimp only
      split
      all_goals
        split
        · exact refl p
        · exact lifted _

theorem admitMass (number nominal bay : Nat) : KeepsPower p (Machine.admitMass number nominal bay p).1 := by
  unfold Machine.admitMass
  repeat' split
  all_goals exact of_same rfl rfl rfl

theorem amendMass (number nominal : Nat) : KeepsPower p (Machine.amendMass number nominal p).1 := by
  unfold Machine.amendMass
  repeat' split
  all_goals exact of_same rfl rfl rfl

theorem retireMass (number : Nat) : KeepsPower p (Machine.retireMass number p).1 := by
  unfold Machine.retireMass
  split
  · exact refl p
  · split
    case h_5 => exact of_frame (p.massAbsent_unchangedBut _) (by decide)
    case h_6 =>
      split
      · exact refl p
      · split
        · exact refl p
        · exact of_frame (p.updMass_notifyOrders_unchangedBut _ _) (by decide)
    all_goals exact refl p

theorem foundMass (number bay : Nat) : KeepsPower p (Machine.foundMass number bay p).1 := by
  unfold Machine.foundMass
  repeat' split
  all_goals exact of_same rfl rfl rfl

theorem orderMove (mass destination hoist : Nat) : KeepsPower p (Machine.orderMove mass destination hoist p).1 := by
  unfold Machine.orderMove
  repeat' split
  all_goals exact of_same rfl rfl rfl

theorem cancelOrder (mass : Nat) : KeepsPower p (Machine.cancelOrder mass p).1 := by
  unfold Machine.cancelOrder
  split
  · exact refl p
  · split
    · exact of_same rfl rfl rfl
    · exact of_trips .cancelStaged
    · split
      · exact refl p
      · exact of_trips (.abandon _)
    · exact refl p

theorem holdHoist (hoist mode : Nat) : KeepsPower p (Machine.holdHoist hoist mode p).1 := by
  unfold Machine.holdHoist
  split <;> exact of_same rfl rfl rfl

theorem resume (hoist : Nat) : KeepsPower p (Machine.resume hoist p).1 := by
  unfold Machine.resume
  split
  · exact refl p
  · split
    · exact refl p
    · exact of_trips .resumeHoist
  · iterate 2
      split
      · exact refl p
    exact foldl _ (fun _ _ => of_trips .resumeHoist) _

theorem abandonTrip (hoist : Nat) : KeepsPower p (Machine.abandonTrip hoist p).1 := by
  unfold Machine.abandonTrip
  split
  · exact refl p
  · split
    · exact refl p
    · split
      · exact refl p
      · exact of_trips (.abandonTrip _)

theorem retarget (hoist bay : Nat) : KeepsPower p (Machine.retarget hoist bay p).1 := by
  unfold Machine.retarget
  split
  · split
    · exact refl p
    · split
      · exact refl p
      · iterate 4
          split
          · exact refl p
        exact of_trips (.takeDestination _ _ _ _)
  · exact refl p

theorem referenceHoist (hoist bay : Nat) : KeepsPower p (Machine.referenceHoist hoist bay p).1 := by
  unfold Machine.referenceHoist
  split
  · iterate 3
      split
      · exact refl p
    exact of_frame (Chip.referenceAt_unchangedBut _) (by decide)
  · exact refl p

theorem clearFault (hoist : Nat) : KeepsPower p (Machine.clearFault hoist p).1 := by
  unfold Machine.clearFault
  split
  · exact refl p
  · split
    · exact refl p
    · exact of_trips .clearFault

theorem enableHoist (hoist setting : Nat) : KeepsPower p (Machine.enableHoist hoist setting p).1 := by
  unfold Machine.enableHoist
  repeat' split
  all_goals exact of_same rfl rfl rfl

/-! ### The ends of a meaning -/

section
variable {s t : State} {i : Instr}

theorem event {arises : Bool} {effect : Chip} (next : s.event arises effect = .next t)
    (keeps : KeepsPower s.chip effect) : KeepsPower s.chip t.chip := by
  obtain rfl | ⟨_, rfl⟩ := s.event_next t arises effect next
  · exact refl _
  · exact keeps.trans finish

theorem query {a : Answer} (next : s.query i a = .next t) : KeepsPower s.chip t.chip := by
  obtain rfl | ⟨_, rfl⟩ := s.query_next t i a next
  · exact refl _
  · exact reply a

theorem command {taken : Chip × Answer} (next : s.command i taken = .next t)
    (keeps : KeepsPower s.chip taken.1) : KeepsPower s.chip t.chip := by
  obtain rfl | ⟨_, _, rfl⟩ | ⟨_, _, rfl⟩ := s.command_next t i taken next
  · exact refl _
  · exact reply _
  · exact (keeps.trans finish).trans (reply _)

theorem restartPart {due : RestartWork → Bool} {effect : Chip} (next : s.restartPart due effect = .next t)
    (keeps : KeepsPower s.chip effect) : KeepsPower s.chip t.chip := by
  unfold State.restartPart at next
  split at next
  · obtain rfl := Host.Outcome.next.inj next
    exact refl _
  · split at next <;> obtain rfl := Host.Outcome.next.inj next
    · exact (keeps.trans finish).trans (of_frame (Chip.answerRestart_unchangedBut _) (by decide))
    · exact refl _

end

/-- Right after power-on reset the setpoint is 0, and nothing is shared out (R137). -/
theorem powerOn (rate : LineRate) (first : Quad Channels) (n : Nat) :
    KeepsPower p { Chip.powerOn rate first with draws := n } :=
  fun _ => ⟨Nat.zero_le _, rfl, (sharesOf_zero _ _).symm, rfl, rfl⟩

theorem exec (i : Instr) (s t : State) (next : exec i s = .next t) : KeepsPower s.chip t.chip := by
  cases i with
  | powerOnReset =>
    obtain rfl := Host.Outcome.next.inj next
    exact powerOn _ _ _
  | millisecondMark | replyPartialTimeout | interlockClosedAcceptance | servingStart | frameGapTimeout =>
    exact event next (of_same rfl rfl rfl)
  | segmentEvent => exact event next (of_segment (Chip.segment_step _ _))
  | linkTimeout => exact event next (closeSegment.trans (updLink _))
  | hoistLinkReply => exact event next (completeReply _)
  | hoistLinkReplyByte => exact event next (takeReplyByte _)
  | filterSampleInstant => exact event next (sampleInstant _)
  | interlockHalt => exact event next (of_trips .interlockHalt)
  | interlockClosedTaken => exact event next (of_trips (.updHoist _))
  | markerPulse h =>
    change execMarkerPulse h s = .next t at next
    refine event next ?_
    split
    · exact refl _
    · exact takePulse
  | encoderEdge h levels =>
    change execEncoderEdge h levels s = .next t at next
    exact event next (encoderEdge levels)
  | phaseTimerExpiry => exact event next (of_trips .expirePhaseTimer)
  | dwellLimitExpiry => exact event next (of_trips .expireDwell)
  | tryHoist => exact event next nextTry
  | eligibilityReevaluation => exact event next reevaluate
  | endTripsOfAnotherKind => exact event next takeModeRequest
  | frameComplete => exact event next (completeFrame _)
  | characterError =>
    change execCharacterError s = .next t at next
    exact event next (settleGap.trans (port _))
  | plantLinkByte => exact event next (settleGap.trans (receiveByte _))
  | replyEnd => exact event next endReply
  | getMass | nextMass | getBay | nextBay | getHoist | getOrder | getEnergy | getParam | snapshot => exact query next
  | getPlant page =>
    change execGetPlant page s = .next t at next
    unfold execGetPlant at next
    split at next
    · exact query next
    · split at next <;> obtain rfl := Host.Outcome.next.inj next
      · exact (reply _).trans (port _)
      · exact refl _
  | admitMass => exact command next (admitMass _ _ _)
  | amendMass => exact command next (amendMass _ _)
  | retireMass => exact command next (retireMass _)
  | foundMass => exact command next (foundMass _ _)
  | surveyBay => exact command next (surveyBay _ _ _ _)
  | barBay => exact command next (barBay _)
  | unbarBay => exact command next (unbarBay _)
  | orderMove => exact command next (orderMove _ _ _)
  | cancelOrder => exact command next (cancelOrder _)
  | setPower => exact command next (setPower _)
  | holdHoist => exact command next (holdHoist _ _)
  | resume => exact command next (resume _)
  | abandonTrip => exact command next (abandonTrip _)
  | retarget => exact command next (retarget _ _)
  | referenceHoist => exact command next (referenceHoist _ _)
  | clearFault => exact command next (clearFault _)
  | enableHoist => exact command next (enableHoist _ _)
  | setParam => exact command next (setParam _ _ _)
  | restart =>
    change execRestart s = .next t at next
    unfold execRestart at next
    split at next <;> obtain rfl := Host.Outcome.next.inj next
    · exact port _
    · exact refl _
  | restartOrderQueue => exact restartPart next (of_same rfl rfl rfl)
  | restartPowerAllocator => exact restartPart next restartPower
  | restartHoist => exact restartPart next restartHoist

end Chip.KeepsPower

/-- Settles O8: what waits in the queue is no part of the records, and every command keeps them. -/
theorem stepKeepsPowerRecords : Obligations.StepKeepsPowerRecords := by
  intro s t records next
  unfold step at next
  split at next
  · obtain rfl := Host.Outcome.next.inj next
    exact records
  · rename_i i rest _
    exact Chip.KeepsPower.exec i (s.withPending rest) t next records

end Sys2Proof.Machine
end

section
/-! SUPPORT. The division of the setpoint (spec/07 R142): an amount divided among a set of hoists, the excess above P_RATED, and the shares that the
two divisions give, hoist by hoist and in sum. -/

namespace Sys2Proof.Machine

/-! ### An amount divided among a set of hoists -/

section
variable (set : Quad Bool) (amount : Nat) (h : HoistId)

/-- The members of a set of hoists, in increasing number. -/
def membersOf (set : Quad Bool) : List HoistId := hoistList.filter fun h => set.get h

theorem mem_membersOf : h ∈ membersOf set ↔ set.get h = true := by
  simp [membersOf, mem_hoistList h]

theorem setSize_eq : setSize set = (membersOf set).length := rfl

theorem rankIn_eq : rankIn set h = ((membersOf set).filter fun k => decide (k < h)).length := by
  rw [membersOf, List.filter_filter, rankIn]
  simp only [Bool.and_comm]

theorem divideAmong_of_not_mem (out : set.get h = false) : (divideAmong amount set).get h = 0 := by
  simp [divideAmong, out]

theorem divideAmong_of_mem (member : set.get h = true) : (divideAmong amount set).get h =
    amount / (membersOf set).length +
      if ((membersOf set).filter fun k => decide (k < h)).length < amount % (membersOf set).length then 1 else 0 := by
  rw [divideAmong, Quad.get_tab, if_pos member, setSize_eq, rankIn_eq]

theorem sumQuad_eq (q : Quad Nat) : sumQuad q = (hoistList.map q.get).sum := by
  simp [sumQuad, hoistList, Quad.get, Nat.add_assoc]

theorem sumQuad_le {q r : Quad Nat} (le : ∀ h, q.get h ≤ r.get h) : sumQuad q ≤ sumQuad r :=
  Nat.add_le_add (Nat.add_le_add (Nat.add_le_add (le 0) (le 1)) (le 2)) (le 3)

theorem sumQuad_add (f g : HoistId → Nat) :
    sumQuad (Quad.tab fun h => f h + g h) = sumQuad (Quad.tab f) + sumQuad (Quad.tab g) := by
  simp only [sumQuad, Quad.tab]
  omega

/-- Over the four hoists, the members of a set alone add to a sum of what is 0 elsewhere. -/
theorem sumQuad_of_members (q : Quad Nat) (elsewhere : ∀ h, set.get h = false → q.get h = 0) :
    sumQuad q = ((membersOf set).map q.get).sum := by
  have each : ∀ l : List HoistId, (l.map q.get).sum = ((l.filter fun h => set.get h).map q.get).sum := fun l => by
    induction l with
    | nil => rfl
    | cons x xs ih =>
      cases member : set.get x with
      | true => simp [member, ih]
      | false => simp [member, ih, elsewhere x member]
  rw [sumQuad_eq, each, membersOf]

/-- Of hoists in increasing number, those below which fewer than `r` stand are the first `r`. -/
theorem sum_first_of_rising (r : Nat) (l : List HoistId) (rising : l.Pairwise (· < ·)) :
    (l.map fun h => if (l.filter fun k => decide (k < h)).length < r then 1 else 0).sum = min r l.length := by
  induction l using List.reverseRecOn with
  | nil => simp
  | append_singleton l x ih =>
    obtain ⟨risingBefore, _, below⟩ := List.pairwise_append.mp rising
    have last : ((l ++ [x]).filter fun k => decide (k < x)).length = l.length := by
      rw [List.filter_append, List.filter_eq_self.mpr fun k mem => decide_eq_true (below k mem x (by simp))]
      simp
    have before : ∀ h ∈ l, (l ++ [x]).filter (fun k => decide (k < h)) = l.filter fun k => decide (k < h) := fun h mem => by
      have above : ¬x < h := (below h mem x (by simp)).asymm
      simp [List.filter_append, above]
    rw [List.map_append, List.sum_append, List.map_congr_left fun h mem => by rw [before h mem], ih risingBefore]
    simp only [List.map_cons, List.map_nil, List.sum_cons, List.sum_nil, last, List.length_append, List.length_singleton]
    split <;> omega

/-- The parts of an amount make it up where the set has a member, and are 0 where it has none. -/
theorem sumQuad_divideAmong : sumQuad (divideAmong amount set) = if membersOf set = [] then 0 else amount := by
  have rising : (membersOf set).Pairwise (· < ·) := List.Pairwise.filter _ (by decide)
  have parts : (membersOf set).map (divideAmong amount set).get = (membersOf set).map fun h =>
      amount / (membersOf set).length +
        if ((membersOf set).filter fun k => decide (k < h)).length < amount % (membersOf set).length then 1 else 0 :=
    List.map_congr_left fun h mem => divideAmong_of_mem set amount h ((mem_membersOf set h).mp mem)
  rw [sumQuad_of_members set _ fun h => divideAmong_of_not_mem set amount h, parts, List.sum_map_add,
    sum_first_of_rising _ _ rising]
  split
  · rename_i empty
    simp [empty]
  · rename_i inhabited
    have positive : 0 < (membersOf set).length := List.length_pos_of_ne_nil inhabited
    have below := Nat.mod_lt amount positive
    have whole := Nat.div_add_mod amount (membersOf set).length
    rw [List.map_const', List.sum_replicate, smul_eq_mul]
    omega

/-- No more is divided than there is. -/
theorem sumQuad_divideAmong_le : sumQuad (divideAmong amount set) ≤ amount := by
  rw [sumQuad_divideAmong]
  split <;> omega

end

/-! ### The shares (R142, steps 1 to 3) -/

section
variable (amount : Nat) (eligible : Quad Bool) (rated : Quad Nat)

/-- The equal part of an eligible hoist is above its P_RATED. -/
def cappedFirst : Quad Bool := Quad.tab fun h => decide (rated.get h < (divideAmong amount eligible).get h)

/-- The eligible hoists whose equal part is not above their P_RATED. -/
def uncappedOf : Quad Bool := Quad.tab fun h => eligible.get h && !(cappedFirst amount eligible rated).get h

/-- What the equal parts have above the hoists' P_RATED. -/
def excessOf : Nat := sumQuad (Quad.tab fun h => (divideAmong amount eligible).get h - rated.get h)

/-- The equal parts with the first cap at the hoists' P_RATED. -/
def firstOf : Quad Nat := Quad.tab fun h => min ((divideAmong amount eligible).get h) (rated.get h)

theorem sharesOf_get (h : HoistId) : (sharesOf amount eligible rated).get h =
    min ((firstOf amount eligible rated).get h +
      (divideAmong (excessOf amount eligible rated) (uncappedOf amount eligible rated)).get h) (rated.get h) := by
  simp only [sharesOf, firstOf, uncappedOf, cappedFirst, excessOf, Quad.get_tab]

theorem sharesOf_le_rated (h : HoistId) : (sharesOf amount eligible rated).get h ≤ rated.get h := by
  rw [sharesOf_get]
  exact Nat.min_le_right _ _

theorem uncappedOf_get (h : HoistId) : (uncappedOf amount eligible rated).get h = true ↔
    eligible.get h = true ∧ (divideAmong amount eligible).get h ≤ rated.get h := by
  simp [uncappedOf, cappedFirst]

/-- A hoist outside the eligible set has no share. -/
theorem sharesOf_of_not_eligible (h : HoistId) (out : eligible.get h = false) :
    (sharesOf amount eligible rated).get h = 0 := by
  have noMore : (uncappedOf amount eligible rated).get h = false := by simp [uncappedOf, out]
  rw [sharesOf_get, firstOf, Quad.get_tab, divideAmong_of_not_mem _ _ _ out, divideAmong_of_not_mem _ _ _ noMore]
  simp

/-- A hoist whose equal part is above P_RATED has P_RATED. -/
theorem sharesOf_of_capped (h : HoistId) (above : rated.get h < (divideAmong amount eligible).get h) :
    (sharesOf amount eligible rated).get h = rated.get h := by
  rw [sharesOf_get, firstOf, Quad.get_tab]
  omega

/-- Every other eligible hoist has its equal part with what it gets of the excess, within P_RATED. -/
theorem sharesOf_of_uncapped (h : HoistId) (within : (divideAmong amount eligible).get h ≤ rated.get h) :
    (sharesOf amount eligible rated).get h = min (rated.get h) ((divideAmong amount eligible).get h +
      (divideAmong (excessOf amount eligible rated) (uncappedOf amount eligible rated)).get h) := by
  rw [sharesOf_get, firstOf, Quad.get_tab]
  omega

/-- The first cap takes off the excess. -/
theorem sumQuad_firstOf : sumQuad (firstOf amount eligible rated) + excessOf amount eligible rated =
    sumQuad (divideAmong amount eligible) := by
  rw [firstOf, excessOf, ← sumQuad_add]
  refine congrArg sumQuad (Quad.ext_get _ _ fun h => ?_)
  rw [Quad.get_tab]
  omega

/-- The shares are no more than the amount in sum: of the excess no more is given back than was taken off. -/
theorem sumQuad_sharesOf_le : sumQuad (sharesOf amount eligible rated) ≤ amount :=
  calc sumQuad (sharesOf amount eligible rated)
      ≤ sumQuad (Quad.tab fun h => (firstOf amount eligible rated).get h +
          (divideAmong (excessOf amount eligible rated) (uncappedOf amount eligible rated)).get h) := sumQuad_le fun h => by
        rw [sharesOf_get, Quad.get_tab]
        exact Nat.min_le_left _ _
    _ = sumQuad (firstOf amount eligible rated) +
          sumQuad (divideAmong (excessOf amount eligible rated) (uncappedOf amount eligible rated)) := sumQuad_add _ _
    _ ≤ sumQuad (firstOf amount eligible rated) + excessOf amount eligible rated :=
        Nat.add_le_add_left (sumQuad_divideAmong_le _ _) _
    _ = sumQuad (divideAmong amount eligible) := sumQuad_firstOf _ _ _
    _ ≤ amount := sumQuad_divideAmong_le _ _

end

/-! ### The division at the Power Allocator -/

/-- Settles O34: the members of the two sets that the division makes are the lists of the statement. -/
theorem sharesAreDividedByRule : Obligations.SharesAreDividedByRule := by
  intro p q amount n m excess members uncapped equal isAllocated isAmount isMembers isN isEqual isUncapped isM isExcess
  obtain ⟨rated, isRated⟩ : ∃ rated, rated = Quad.tab fun h => (p.hp h).pRated := ⟨_, rfl⟩
  have rate : ∀ h, rated.get h = (p.hp h).pRated := fun h => by rw [isRated, Quad.get_tab]
  have membersEq : members = membersOf p.power.eligible := isMembers
  have isMember : ∀ h, h ∈ members ↔ p.power.eligible.get h = true := fun h => by rw [membersEq, mem_membersOf]
  have share : q.power.share = sharesOf amount p.power.eligible rated := by rw [isAllocated, isAmount, isRated]; rfl
  have part : ∀ h ∈ members, (divideAmong amount p.power.eligible).get h = equal h := fun h mem => by
    rw [divideAmong_of_mem _ _ _ ((isMember h).mp mem), isEqual, isN, membersEq]
  have uncappedEq : uncapped = membersOf (uncappedOf amount p.power.eligible rated) := by
    rw [isUncapped, isMembers, List.filter_filter]
    refine List.filter_congr fun h _ => ?_
    rw [Bool.eq_iff_iff, uncappedOf_get, rate, Bool.and_eq_true, decide_eq_true_iff, and_comm]
    exact and_congr_right fun member => by rw [part h ((isMember h).mpr member)]
  have isUncapped : ∀ h, h ∈ uncapped ↔ h ∈ members ∧ equal h ≤ (p.hp h).pRated := fun h => by
    rw [isUncapped, List.mem_filter, decide_eq_true_iff]
  have excessEq : excessOf amount p.power.eligible rated = excess := by
    rw [excessOf, sumQuad_of_members p.power.eligible, isExcess, membersEq]
    · refine congrArg List.sum (List.map_congr_left fun h mem => ?_)
      rw [Quad.get_tab, rate, part h (by rw [membersEq]; exact mem)]
    · intro h out
      rw [Quad.get_tab, divideAmong_of_not_mem _ _ _ out, Nat.zero_sub]
  refine ⟨by rw [isAllocated]; exact Chip.allocate_unchangedBut, by rw [isAllocated]; rfl, fun h out => ?ineligible,
    fun h mem capped => ?capped, fun h mem => ?uncapped, fun h => ?limit, by rw [isAllocated]; rfl, ?total,
    by rw [isAllocated, isAmount]; rfl⟩
  case ineligible =>
    rw [share]
    exact sharesOf_of_not_eligible _ _ _ _ (by simpa [isMember] using out)
  case capped =>
    rw [share, sharesOf_of_capped, rate]
    rw [part h mem, rate]
    exact Nat.lt_of_not_le fun within => capped ((isUncapped h).mpr ⟨mem, within⟩)
  case uncapped =>
    obtain ⟨member, within⟩ := (isUncapped h).mp mem
    have more : (uncappedOf amount p.power.eligible rated).get h = true := by rwa [uncappedEq, mem_membersOf] at mem
    rw [share, sharesOf_of_uncapped _ _ _ _ (by rwa [part h member, rate]), part h member, rate, divideAmong_of_mem _ _ _ more,
      ← uncappedEq, excessEq, isM, Nat.add_assoc]
  case limit =>
    rw [share, ← rate]
    exact sharesOf_le_rated _ _ _ h
  case total =>
    have total : q.power.total = sumQuad q.power.share := by rw [isAllocated]; rfl
    rw [total, share]
    exact sumQuad_sharesOf_le _ _ _

end Sys2Proof.Machine
end

section
/-! SUPPORT. SET_POWER and ELIGIBILITY_REEVALUATION (spec/07 R138 to R143): the setpoint taken, and the eligibility of one hoist taken anew. -/

namespace Sys2Proof.Machine

/-- The end of an event that worked on the allocator and the selector only moves nothing but the port. -/
theorem Chip.Kept.finish_allocated {p q : Chip} (kept : p.Kept) (change : p.unchangedBut q [.power, .selector]) :
    q.unchangedBut (p.finish q) [.port] :=
  kept.finish_port_only (change .hoists (by decide)) (change .links (by decide))
    (fun h => congrArg (fun u : Quad PositionUnit => (u.get h).referenced) (change .units (by decide)))
    (Chip.interlock_of_sensors (change .sensors (by decide)))

/-! ### SET_POWER (R138) -/

/-- Settles O33: the setting of the setpoint as `Chip.setpointTaken` describes it, and the port's answer. -/
theorem setPowerCompletes : Obligations.SetPowerCompletes := by
  intro s x taken mode hands isTaken isMode
  have clamped : clampTo s.chip.params.pPlantMax x = taken := isTaken.symm
  obtain ⟨q, isSet⟩ : ∃ q, q = s.chip.setSetpoint taken := ⟨_, rfl⟩
  obtain ⟨a, isAnswer⟩ : ∃ a, a = (setPower x s.chip).2 := ⟨_, rfl⟩
  have change : s.chip.unchangedBut q [.power, .selector] := isSet ▸ s.chip.setSetpoint_unchangedBut taken
  have quiet : q.unchangedBut (s.chip.finish q) [.port] := hands.kept.finish_allocated change
  have after : q.unchangedBut ((s.chip.finish q).reply a) [.port] :=
    Chip.unchangedBut_trans quiet (Chip.reply_unchangedBut _ a)
  have isEffect : setPower x s.chip = (q, a) := by
    rw [isAnswer, isSet, ← clamped]
    rfl
  obtain ⟨next, replied⟩ := hands.command_carriedOut (p := q) (a := a) (by rw [isAnswer]; exact answerTaken_isRefusal _ _)
    (change .port (by decide))
  have set : s.chip.setpointTaken ((s.chip.finish q).reply a) taken :=
    Chip.setpointTaken_congr (after .power (by decide)) (after .selector (by decide)) (after .hoists (by decide))
      (isSet ▸ s.chip.setpointTaken_setSetpoint taken)
  refine ⟨{ s with chip := (s.chip.finish q).reply a }, ?_, rfl,
    Chip.unchangedBut_mono (Chip.unchangedBut_append change after) (by decide), set, ?_, a, replied, ?_⟩
  · show s.command _ (setPower x s.chip) = _
    rw [isEffect]
    exact next
  · obtain ⟨_, ofSign, _⟩ := set
    rw [isMode]
    exact ofSign
  · have adjusted : a.status = if decide (taken ≠ x) then .adjusted else .done := by
      rw [isAnswer, ← clamped]
      exact answerTaken_status _ _
    rw [adjusted]
    by_cases same : taken = x <;> simp [same]

/-! ### ELIGIBILITY_REEVALUATION (R141) -/

section
variable {p : Chip} {h : HoistId}

theorem PlantMode.direction_iff (m : PlantMode) (d : Direction) :
    m.direction = some d ↔ m = .charge ∧ d = .up ∨ m = .discharge ∧ d = .down := by
  cases m <;> cases d <;> decide

/-- The conditions of R141, one by one. -/
theorem Chip.eligibleLaw_iff : p.eligibleLaw h = true ↔ ∃ t, (p.hoist h).active = some t ∧
    (t.kind = .charge ∨ t.kind = .discharge) ∧ t.leg = .loaded ∧
    ((p.hoist h).phase = .travel ∨ (p.hoist h).phase = .approach ∨ (p.hoist h).phase = .dwell) ∧
    (p.power.mode = .charge ∧ t.direction = .up ∨ p.power.mode = .discharge ∧ t.direction = .down) := by
  have automatic : ∀ k : TripKind, k.automatic = true ↔ k = .charge ∨ k = .discharge := fun k => by cases k <;> decide
  cases active : (p.hoist h).active with
  | none => simp [Chip.eligibleLaw, active]
  | some t => simp [Chip.eligibleLaw, active, automatic, PlantMode.direction_iff, and_assoc]

/-- The part in which hoist `h`'s change has been taken from those handed over. -/
def Chip.changeTaken (p : Chip) (h : HoistId) : Chip := { p with power := { p.power with handed := p.power.handed.set h false } }

theorem Chip.changeTaken_eligibleLaw (k : HoistId) : (p.changeTaken h).eligibleLaw k = p.eligibleLaw k := rfl

theorem Chip.reevaluate_same (same : p.eligibleLaw h = p.power.eligible.get h) : p.reevaluate h = p.changeTaken h :=
  if_pos same

theorem Chip.reevaluate_changed (changed : p.eligibleLaw h ≠ p.power.eligible.get h) : p.reevaluate h =
    ({ p.changeTaken h with power := { (p.changeTaken h).power with
        eligible := p.power.eligible.set h (p.eligibleLaw h) } } : Chip).allocate := if_neg changed

theorem Chip.reevaluate_unchangedBut : p.unchangedBut (p.reevaluate h) [.power] := by
  by_cases same : p.eligibleLaw h = p.power.eligible.get h
  · rw [Chip.reevaluate_same same]
    intro x out
    cases x <;> simp at out <;> rfl
  · rw [Chip.reevaluate_changed same]
    intro x out
    cases x <;> simp at out <;> rfl

/-- A re-evaluation moves of the eligible set hoist `h` alone, and takes its change from those handed over. -/
theorem Chip.reevaluate_power : (p.reevaluate h).power = { p.power with
    eligible := p.power.eligible.set h (p.eligibleLaw h), handed := p.power.handed.set h false
    share := (p.reevaluate h).power.share, total := (p.reevaluate h).power.total
    unserved := (p.reevaluate h).power.unserved } := by
  by_cases same : p.eligibleLaw h = p.power.eligible.get h
  · have eligible : p.power.eligible.set h (p.eligibleLaw h) = p.power.eligible := Quad.ext_get _ _ fun k => by
      rw [Quad.get_set, same]
      split
      · rename_i own
        rw [own]
      · rfl
    rw [Chip.reevaluate_same same, eligible]
    rfl
  · rw [Chip.reevaluate_changed same]
    rfl

/-- The shares and the unserved power are divided anew exactly where the eligible set has changed (R143). -/
theorem Chip.reevaluate_shares : ((p.reevaluate h).power.eligible = p.power.eligible →
      (p.reevaluate h).power.share = p.power.share ∧ (p.reevaluate h).power.unserved = p.power.unserved) ∧
    ((p.reevaluate h).power.eligible ≠ p.power.eligible →
      (p.reevaluate h).power.share = sharesOf p.power.setpoint.natAbs (p.reevaluate h).power.eligible
        (Quad.tab fun k => (p.hp k).pRated) ∧
      (p.reevaluate h).power.unserved = p.power.setpoint.natAbs - sumQuad (p.reevaluate h).power.share) := by
  by_cases same : p.eligibleLaw h = p.power.eligible.get h
  · rw [Chip.reevaluate_same same]
    exact ⟨fun _ => ⟨rfl, rfl⟩, fun differs => absurd rfl differs⟩
  · rw [Chip.reevaluate_changed same]
    refine ⟨fun stays => absurd ?_ same, fun _ => ⟨rfl, rfl⟩⟩
    have own : (p.power.eligible.set h (p.eligibleLaw h)).get h = p.power.eligible.get h := congrArg (Quad.get · h) stays
    rwa [Quad.get_set_self] at own

end

/-- Settles O35: what the re-evaluation leaves of the allocator, which the end of the event does not move. -/
theorem eligibilityReevaluationCompletes : Obligations.EligibilityReevaluationCompletes := by
  intro s h kept handed
  obtain ⟨q, isReevaluated⟩ : ∃ q, q = s.chip.reevaluate h := ⟨_, rfl⟩
  have change : s.chip.unchangedBut q [.power] := isReevaluated ▸ Chip.reevaluate_unchangedBut
  have quiet : q.unchangedBut (s.chip.finish q) [.port] :=
    kept.finish_allocated (Chip.unchangedBut_mono change (by decide))
  have next : exec (.eligibilityReevaluation h) s = .next { s with chip := s.chip.finish q } := by
    rw [isReevaluated]
    exact s.event_of _ _ handed
  have power : (s.chip.finish q).power = q.power := quiet .power (by decide)
  have moved := s.chip.reevaluate_power (h := h)
  have shares := s.chip.reevaluate_shares (h := h)
  rw [← isReevaluated] at moved shares
  refine ⟨_, next, rfl, Chip.unchangedBut_append change quiet, ?_, ?_⟩
  · show (s.chip.finish q).port = _
    rw [Chip.finish_port, Chip.finish_conditions, change .port (by decide)]
  · rw [power]
    refine ⟨?_, fun k ne => ?_, ?_, fun k ne => ?_, by rw [moved], by rw [moved], by rw [moved], shares⟩
    · rw [moved, Quad.get_set_self]
      exact Chip.eligibleLaw_iff
    · rw [moved, Quad.get_set_of_ne _ _ _ _ ne]
    · rw [moved, Quad.get_set_self]
    · rw [moved, Quad.get_set_of_ne _ _ _ _ ne]

end Sys2Proof.Machine
end

section
/-! SUPPORT. GET_PLANT (spec/10 R190, R192; spec/11 R195): the result of each page with its fields where they stand, and CHANGED, which the query
reports and clears. -/

namespace Sys2Proof.Machine

/-! ### Fields in a row, and the bytes of 0 after them (R193, R195) -/

section
variable {l r : List Byte} {i n v : Nat}

theorem byte_zeros (i n : Nat) : (⟨List.replicate n 0⟩ : Frame).byte i = 0 := by
  by_cases inside : i < n <;> simp [Frame.byte, List.getD_eq_getElem?_getD, inside]

/-- The bytes of 0 that fill a result stand from the last of its fields to its end. -/
theorem byte_after (past : l.length ≤ i) : (⟨l ++ List.replicate n 0⟩ : Frame).byte i = 0 := by
  rw [byte_skip past, byte_zeros]

/-- Of fields of one byte in a row, the one that stands at place `k`. -/
theorem Chip.byte_flatMap_field {α : Type} (p : Chip) (f : α → Nat) (l : List α) {k : Nat} {x : α} (there : l[k]? = some x)
    (fits : f x < 256) : (⟨(l.flatMap fun y => p.field 1 (f y)) ++ r⟩ : Frame).byte k = f x := by
  obtain ⟨inside, _⟩ := List.getElem?_eq_some_iff.mp there
  have length : (l.flatMap fun y => p.field 1 (f y)).length = l.length := by simp [List.length_flatMap, p.field_length]
  have one := p.number_flatMap_field (n := 1) f l there (by simpa using fits)
  rw [Frame.byte_append_left _ _ _ (by omega)]
  simpa [Frame.number] using one

end

section
variable (p : Chip)

/-! ### The head of every page (R192) -/

theorem Chip.plantHead_length : p.plantHead.length = 3 := rfl

section
variable {r : List Byte} {i n : Nat} (after : 9 ≤ i)
include after

theorem Chip.number_after_plantHead : (replyAt (p.plantHead ++ r)).number i n = (⟨r⟩ : Frame).number (i - 9) n := by
  rw [replyAt, number_skip (by simp; omega), number_skip (by rw [plantHead_length]; simp; omega), plantHead_length,
    List.length_replicate, Nat.sub_sub]

theorem Chip.byte_after_plantHead : (replyAt (p.plantHead ++ r)).byte i = (⟨r⟩ : Frame).byte (i - 9) := by
  rw [replyAt, byte_skip (by simp; omega), byte_skip (by rw [plantHead_length]; simp; omega), plantHead_length,
    List.length_replicate, Nat.sub_sub]

end

/-! ### The three pages (R195) -/

/-- What page 0 of GET_PLANT reports after the head. -/
def Chip.plantFigures (p : Chip) : List Byte :=
  byteField p.power.mode.code ++ (p.signedField 2 p.power.setpoint ++ (p.field 2 p.power.total ++
    (p.field 2 p.power.unserved ++ p.field 2 p.servedTotal)))

/-- What page 1 of GET_PLANT reports after the head. -/
def Chip.plantCounts (p : Chip) : List Byte :=
  p.field 2 p.port.lengthErrors ++ (p.field 2 p.port.characterErrors ++ (p.field 2 p.port.checkErrors ++
    (p.field 2 p.port.overruns ++ (p.field 2 p.port.answered ++ p.field 2 p.port.refusals))))

/-- What page 2 of GET_PLANT reports after the head. -/
def Chip.plantTables (p : Chip) : List Byte :=
  massStates.flatMap (fun x => p.field 1 (p.massesIn x)) ++ (bayStates.flatMap (fun x => p.field 1 (p.baysIn x)) ++
    (p.field 1 p.queueLength ++ (p.field 1 p.heldCount ++ p.field 2 p.orders.dropped)))

theorem Chip.plantFigures_length : p.plantFigures.length = 9 := by
  simp [Chip.plantFigures, p.field_length, p.signedField_length, byteField_length]

theorem Chip.plantCounts_length : p.plantCounts.length = 12 := by simp [Chip.plantCounts, p.field_length]

theorem Chip.massBytes_length : (massStates.flatMap fun x => p.field 1 (p.massesIn x)).length = 6 := by
  simp [p.field_length, massStates]

theorem Chip.bayBytes_length : (bayStates.flatMap fun x => p.field 1 (p.baysIn x)).length = 6 := by
  simp [p.field_length, bayStates]

theorem Chip.plantTables_length : p.plantTables.length = 16 := by
  simp only [Chip.plantTables, List.length_append, p.massBytes_length, p.bayBytes_length, p.field_length]

/-- The items of a page after the head. -/
def Chip.plantItems (p : Chip) (page : Nat) : List Byte :=
  match page with
  | 0 => p.plantFigures
  | 1 => p.plantCounts
  | 2 => p.plantTables
  | _ => []

/-- What GET_PLANT of a page reports. -/
def Chip.plantResult (p : Chip) (page : Nat) : List Byte :=
  p.plantHead ++ (p.plantItems page ++ List.replicate (21 - (p.plantItems page).length) 0)

theorem getPlant_eq {page : Nat} (inside : page ≤ 2) : getPlant page p = ⟨.done, p.plantResult page⟩ := by
  have answered : ∀ items : List Byte, items.length ≤ 21 → answerDone (p.plantHead ++ items) =
      ⟨.done, p.plantHead ++ (items ++ List.replicate (21 - items.length) 0)⟩ := fun items room => by
    have length := p.plantHead_length
    rw [answerDone, resultBytes_eq _ (by rw [List.length_append]; omega), List.length_append, length, List.append_assoc,
      show 24 - (3 + items.length) = 21 - items.length by omega]
  interval_cases page
  · rw [Chip.plantResult, Chip.plantItems, ← answered _ (by rw [p.plantFigures_length]; decide)]
    simp [getPlant, Chip.plantFigures]
  · rw [Chip.plantResult, Chip.plantItems, ← answered _ (by rw [p.plantCounts_length]; decide)]
    simp [getPlant, Chip.plantCounts]
  · rw [Chip.plantResult, Chip.plantItems, ← answered _ (by rw [p.plantTables_length]; decide)]
    simp [getPlant, Chip.plantTables]

theorem getPlant_outOfRange {page : Nat} (beyond : 2 < page) : getPlant page p = refuse .range := by
  match page with
  | n + 3 => rfl

theorem Chip.plantResult_take (page : Nat) : (p.plantResult page).take 3 =
    [BitVec.ofNat 8 p.port.attention.mask, BitVec.ofNat 8 (flagCode p.port.changed), BitVec.ofNat 8 (interlockCode p.interlock)] := by
  rw [Chip.plantResult, List.take_left' p.plantHead_length]
  rfl

/-- After the items of a page its bytes are 0. -/
theorem Chip.plantResult_after {page i : Nat} (after : 9 + (p.plantItems page).length ≤ i) :
    (replyAt (p.plantResult page)).byte i = 0 := by
  rw [Chip.plantResult, p.byte_after_plantHead (by omega), byte_after (by omega)]

theorem Chip.number_plantResult {page i n : Nat} (after : 9 ≤ i) (inside : i + n ≤ 9 + (p.plantItems page).length) :
    (replyAt (p.plantResult page)).number i n = (⟨p.plantItems page⟩ : Frame).number (i - 9) n := by
  rw [Chip.plantResult, p.number_after_plantHead after, Frame.number_append_left _ _ _ _ (by omega)]

theorem Chip.byte_plantResult {page i : Nat} (after : 9 ≤ i) (inside : i < 9 + (p.plantItems page).length) :
    (replyAt (p.plantResult page)).byte i = (⟨p.plantItems page⟩ : Frame).byte (i - 9) := by
  rw [Chip.plantResult, p.byte_after_plantHead after, Frame.byte_append_left _ _ _ (by omega)]

/-- Page 0: the power figures (R148). -/
theorem Chip.figuresLaidOut_plantResult : p.figuresLaidOut (replyAt (p.plantResult 0)) := by
  have length : (p.plantItems 0).length = 9 := p.plantFigures_length
  have number : ∀ i n, 9 ≤ i → i + n ≤ 18 → (replyAt (p.plantResult 0)).number i n = (⟨p.plantFigures⟩ : Frame).number (i - 9) n :=
    fun i n after inside => p.number_plantResult after (by omega)
  have served : p.servedTotal =
      (p.hoist 0).served + (p.hoist 1).served + (p.hoist 2).served + (p.hoist 3).served := rfl
  refine ⟨fun fits => ?mode, fun low high => ?setpoint, fun fits => ?total, fun fits => ?unserved, fun fits => ?served,
    fun i mem => p.plantResult_after ?zeros⟩
  case mode =>
    rw [number 9 1 (by decide) (by decide)]
    simpa [Chip.plantFigures, Frame.number] using byte_byteField (by simpa using fits)
  case setpoint =>
    rw [number 10 2 (by decide) (by decide)]
    exact p.signedAt_signedField p.power.setpoint (by decide) (byteField p.power.mode.code) _ byteField_length low high
  case total =>
    rw [number 12 2 (by decide) (by decide)]
    simpa [Chip.plantFigures, number_skip, p.field_length, p.signedField_length, byteField_length] using p.number_field fits
  case unserved =>
    rw [number 14 2 (by decide) (by decide)]
    simpa [Chip.plantFigures, number_skip, p.field_length, p.signedField_length, byteField_length] using p.number_field fits
  case served =>
    rw [← served] at fits ⊢
    rw [number 16 2 (by decide) (by decide)]
    simpa [Chip.plantFigures, number_skip, p.field_length, p.signedField_length, byteField_length] using
      p.number_field (r := []) fits
  case zeros =>
    obtain ⟨after, _⟩ := List.mem_range'_1.mp mem
    omega

/-- Page 1: the six counts of the port. -/
theorem Chip.countsLaidOut_plantResult : p.port.countsLaidOut (replyAt (p.plantResult 1)) := by
  have length : (p.plantItems 1).length = 12 := p.plantCounts_length
  have number : ∀ i, 9 ≤ i → i ≤ 19 → (replyAt (p.plantResult 1)).number i 2 = (⟨p.plantCounts⟩ : Frame).number (i - 9) 2 :=
    fun i after inside => p.number_plantResult after (by omega)
  refine ⟨fun fits => ?length, fun fits => ?character, fun fits => ?check, fun fits => ?overrun, fun fits => ?answered,
    fun fits => ?refusal, fun i mem => p.plantResult_after ?zeros⟩
  case length => rw [number 9 (by decide) (by decide)]; exact p.number_field fits
  case character =>
    rw [number 11 (by decide) (by decide)]
    simpa [Chip.plantCounts, number_skip, p.field_length] using p.number_field fits
  case check =>
    rw [number 13 (by decide) (by decide)]
    simpa [Chip.plantCounts, number_skip, p.field_length] using p.number_field fits
  case overrun =>
    rw [number 15 (by decide) (by decide)]
    simpa [Chip.plantCounts, number_skip, p.field_length] using p.number_field fits
  case answered =>
    rw [number 17 (by decide) (by decide)]
    simpa [Chip.plantCounts, number_skip, p.field_length] using p.number_field fits
  case refusal =>
    rw [number 19 (by decide) (by decide)]
    simpa [Chip.plantCounts, number_skip, p.field_length] using p.number_field (r := []) fits
  case zeros =>
    obtain ⟨after, _⟩ := List.mem_range'_1.mp mem
    omega

theorem massStates_code (x : MassState) : massStates[x.code]? = some x := by cases x <;> rfl

theorem bayStates_code (x : BayState) : bayStates[x.code]? = some x := by cases x <;> rfl

theorem Chip.massesIn_lt (x : MassState) : p.massesIn x < 256 :=
  ((List.length_filter_le _ _).trans (by decide : massList.length ≤ 96)).trans_lt (by decide)

theorem Chip.baysIn_lt (x : BayState) : p.baysIn x < 256 :=
  ((List.length_filter_le _ _).trans (by decide : bayList.length ≤ 64)).trans_lt (by decide)

/-- Page 2: the masses and the bays by state, and the counts of the Order Queue. -/
theorem Chip.tablesLaidOut_plantResult : p.tablesLaidOut (replyAt (p.plantResult 2)) := by
  have length : (p.plantItems 2).length = 16 := p.plantTables_length
  have number : ∀ i n, 9 ≤ i → i + n ≤ 25 → (replyAt (p.plantResult 2)).number i n = (⟨p.plantTables⟩ : Frame).number (i - 9) n :=
    fun i n after inside => p.number_plantResult after (by omega)
  have byte : ∀ i, 9 ≤ i → i < 25 → (replyAt (p.plantResult 2)).byte i = (⟨p.plantTables⟩ : Frame).byte (i - 9) :=
    fun i after inside => p.byte_plantResult after (by omega)
  refine ⟨fun x => ?masses, fun x => ?bays, fun fits => ?queue, fun fits => ?held, fun fits => ?dropped,
    fun i mem => p.plantResult_after ?zeros⟩
  case masses =>
    have code : x.code < 6 := by cases x <;> decide
    rw [byte _ (by omega) (by omega), Nat.add_sub_cancel_left]
    exact p.byte_flatMap_field p.massesIn massStates (massStates_code x) (p.massesIn_lt x)
  case bays =>
    have code : x.code < 6 := by cases x <;> decide
    rw [byte _ (by omega) (by omega), Chip.plantTables, byte_skip (by rw [p.massBytes_length]; omega), p.massBytes_length,
      show 15 + x.code - 9 - 6 = x.code by omega]
    exact p.byte_flatMap_field p.baysIn bayStates (bayStates_code x) (p.baysIn_lt x)
  case queue =>
    rw [number 21 1 (by decide) (by decide)]
    simpa [Chip.plantTables, number_skip, p.massBytes_length, p.bayBytes_length, p.field_length] using p.number_field fits
  case held =>
    rw [number 22 1 (by decide) (by decide)]
    simpa [Chip.plantTables, number_skip, p.massBytes_length, p.bayBytes_length, p.field_length] using p.number_field fits
  case dropped =>
    rw [number 23 2 (by decide) (by decide)]
    simpa [Chip.plantTables, number_skip, p.massBytes_length, p.bayBytes_length, p.field_length] using
      p.number_field (r := []) fits
  case zeros =>
    obtain ⟨after, _⟩ := List.mem_range'_1.mp mem
    omega

end

/-- Settles O22: the pages by their layout; a reply to a page moves of the port what every reply moves, and CHANGED. -/
theorem plantQueryClearsChanged : Obligations.PlantQueryClearsChanged := by
  intro s page hands
  refine ⟨fun inside f inHand => ?page, fun beyond => ?refused⟩
  case page =>
    have answer := getPlant_eq s.chip inside
    have next : exec (.getPlant page) s =
        .next { s with chip := (s.chip.reply ⟨.done, s.chip.plantResult page⟩).clearChanged } := by
      show execGetPlant page s = _
      rw [execGetPlant, answer, if_neg (by simp [Status.isRefusal]), if_pos hands.handed]
      rfl
    have cleared : ∀ q : Chip, q.unchangedBut q.clearChanged [.port] := fun q x out => by
      cases x <;> simp at out <;> rfl
    refine ⟨_, s.chip.plantResult page, next, rfl, Chip.unchangedBut_trans (s.chip.reply_unchangedBut _) (cleared _), ?_,
      s.chip.plantResult_take page, ?_, ?_, ?_⟩
    · simp only [Chip.clearChanged, Chip.reply_of_some _ _ f inHand]
      rfl
    · rintro rfl
      exact s.chip.figuresLaidOut_plantResult
    · rintro rfl
      exact s.chip.countsLaidOut_plantResult
    · rintro rfl
      exact s.chip.tablesLaidOut_plantResult
  case refused =>
    have next : exec (.getPlant page) s = s.query (.getPlant page) (refuse .range) := by
      show execGetPlant page s = _
      rw [execGetPlant, getPlant_outOfRange s.chip beyond, if_pos (refuse_isRefusal _)]
    rw [next, s.query_of _ _ hands.handed]
    obtain ⟨f, inHand⟩ := hands.frame
    exact ⟨_, rfl, Chip.reply_changed _ _, hands.kept.repliedWith_reply inHand _⟩

end Sys2Proof.Machine
end

section
/-! SUPPORT. The speed reference (spec/07 R145 to R152): the ramp case by case, the integer square root of the stopping cap, the target speeds, and
what a segment event leaves of the reference and of the late approach count. -/

namespace Sys2Proof.Machine

/-! ### The ramp (R150) -/

section
variable (x : Int) (n : Nat)

theorem natAbs_sign_mul (moving : x ≠ 0) : (x.sign * (n : Int)).natAbs = n := by
  rw [Int.natAbs_mul, Int.natAbs_sign_of_ne_zero moving, Nat.one_mul, Int.natAbs_natCast]

theorem sign_mul_agrees : 0 ≤ x.sign * (n : Int) * x := by
  have magnitude : x.sign * (n : Int) * x = n * x.natAbs := by
    rw [mul_right_comm, Int.sign_mul_self_eq_natAbs, mul_comm]
  rw [magnitude]
  positivity

end

section
variable {step : Nat} {capped : Bool} {r t : Int}

theorem ramp_against (against : r * t < 0) : ramp step capped r t = r.sign * ((r.natAbs - step : Nat) : Int) :=
  if_pos against

theorem ramp_raised (along : 0 ≤ r * t) (larger : r.natAbs < t.natAbs) :
    ramp step capped r t = t.sign * (min (r.natAbs + step) t.natAbs : Nat) := by
  rw [ramp, if_neg (Int.not_lt.mpr along), if_pos larger]

theorem ramp_capped (along : 0 ≤ r * t) (smaller : t.natAbs < r.natAbs) : ramp step true r t = t := by
  rw [ramp, if_neg (Int.not_lt.mpr along), if_neg smaller.not_gt, if_pos smaller, if_pos rfl]

theorem ramp_lowered (along : 0 ≤ r * t) (smaller : t.natAbs < r.natAbs) :
    ramp step false r t = r.sign * (max (r.natAbs - step) t.natAbs : Nat) := by
  rw [ramp, if_neg (Int.not_lt.mpr along), if_neg smaller.not_gt, if_pos smaller]
  rfl

theorem ramp_reached (along : 0 ≤ r * t) (same : r.natAbs = t.natAbs) : ramp step capped r t = t := by
  rw [ramp, if_neg (Int.not_lt.mpr along), if_neg same.not_lt, if_neg same.not_gt]

/-- Numbers of one sign and one magnitude are the same. -/
theorem eq_of_natAbs_eq (along : 0 ≤ r * t) (same : r.natAbs = t.natAbs) : r = t := by
  rcases Int.natAbs_eq_natAbs_iff.mp same with same | opposite
  · exact same
  · have square : t * t ≤ 0 := by rw [opposite, Int.neg_mul] at along; omega
    have zero : t = 0 := by nlinarith [mul_self_nonneg t]
    rw [opposite, zero, Int.neg_zero]

/-- Without the cap the reference moves by a step at most. -/
theorem ramp_moves_le : (ramp step false r t - r).natAbs ≤ step := by
  have signed : r = r.sign * r.natAbs := (Int.sign_mul_natAbs r).symm
  have moves : ∀ (x : Int) (a b : Nat), a ≤ b + step → b ≤ a + step → (x.sign * (a : Int) - x.sign * (b : Int)).natAbs ≤ step :=
    fun x a b above below => by rcases Int.sign_trichotomy x with e | e | e <;> rw [e] <;> omega
  by_cases against : r * t < 0
  · rw [ramp_against against]
    nth_rewrite 3 [signed]
    exact moves r _ _ (by omega) (by omega)
  have along : 0 ≤ r * t := Int.not_lt.mp against
  rcases Nat.lt_trichotomy r.natAbs t.natAbs with larger | same | smaller
  · have sign : r = t.sign * r.natAbs := by
      rcases lt_trichotomy t 0 with neg | zero | pos
      · have : r ≤ 0 := by nlinarith
        rw [Int.sign_eq_neg_one_of_neg neg]
        omega
      · omega
      · have : 0 ≤ r := by nlinarith
        rw [Int.sign_eq_one_of_pos pos]
        omega
    rw [ramp_raised along larger]
    nth_rewrite 2 [sign]
    exact moves t _ _ (by omega) (by omega)
  · rw [ramp_reached along same, eq_of_natAbs_eq along same, Int.sub_self]
    exact Nat.zero_le _
  · rw [ramp_lowered along smaller]
    nth_rewrite 3 [signed]
    exact moves r _ _ (by omega) (by omega)

end

/-! ### The integer square root (spec/00, Arithmetic) -/

/-- The digits still to be found keep the root below the next power above it. -/
theorem rootDigits_spec (k n r : Nat) (low : r * r ≤ n) (high : n < (r + 2 ^ k) * (r + 2 ^ k)) :
    rootDigits k n r * rootDigits k n r ≤ n ∧ n < (rootDigits k n r + 1) * (rootDigits k n r + 1) := by
  induction k generalizing r with
  | zero => exact ⟨low, high⟩
  | succ k ih =>
    rw [rootDigits]
    split
    · rename_i digit
      exact ih _ digit (by rwa [Nat.add_assoc, ← Nat.two_mul, ← Nat.pow_succ'])
    · rename_i noDigit
      exact ih _ low (Nat.lt_of_not_le noDigit)

theorem isqrt_spec (n : Nat) : isqrt n * isqrt n ≤ n ∧ n < (isqrt n + 1) * (isqrt n + 1) := by
  refine rootDigits_spec _ n 0 (Nat.zero_le n) ?_
  rw [Nat.zero_add, ← Nat.pow_add]
  exact Nat.lt_log2_self.trans_le (Nat.pow_le_pow_right (by decide) (by omega))

/-! ### The target speeds and the references (R145 to R152) -/

section
variable {p q : Chip} {h : HoistId} {t : Trip} {previous : Int}

theorem Chip.travelSpeed_empty (empty : t.leg = .empty) : p.travelSpeed h t = (p.hp h).vReposition := by
  simp [Chip.travelSpeed, empty]

theorem Chip.travelSpeed_directed (loaded : t.leg = .loaded) (directed : t.kind = .directed) :
    p.travelSpeed h t = (p.hp h).vTransfer := by
  simp [Chip.travelSpeed, loaded, directed]

theorem Chip.travelSpeed_automatic (loaded : t.leg = .loaded) (automatic : t.kind ≠ .directed) {measured : Nat}
    (weighed : t.measured = some measured) : p.travelSpeed h t =
      p.power.share.get h * 1000000000 / (((p.hp h).tare + measured) * p.params.gravity) := by
  have load : p.legLoad h t = (p.hp h).tare + measured := by simp [Chip.legLoad, loaded, weighed]
  cases kind : t.kind with
  | directed => exact absurd kind automatic
  | charge | discharge => simp only [Chip.travelSpeed, loaded, kind, load, speedFromShare]

theorem Chip.targetSign_eq : p.targetSign h t =
    ((p.elevationOf (if t.leg = .empty then t.source else t.destination) : Int) - (p.unit h).elevation).sign := by
  unfold Chip.targetSign Trip.target
  cases t.leg <;> rfl

theorem Chip.referenceFor_travel (active : (p.hoist h).active = some t) (released : p.brakeIn h .travel = .release) :
    p.referenceFor h previous .travel = ramp (p.hp h).aStep (decide (p.effectiveCap h t < p.travelSpeed h t)) previous
      (p.targetSign h t * (min (min (p.travelSpeed h t) (p.effectiveCap h t)) (p.movedLimit h previous) : Nat)) := by
  simp [Chip.referenceFor, active, released]

theorem Chip.referenceFor_approach (active : (p.hoist h).active = some t) (released : p.brakeIn h .approach = .release) :
    p.referenceFor h previous .approach = ramp (p.hp h).aStep false previous
      (p.targetSign h t * (min (p.hp h).creep (p.movedLimit h previous) : Nat)) := by
  simp [Chip.referenceFor, active, released]

/-- The reference reads of a controller its trip and accepted latch level, of a link its state, of a unit z, the interlock, the bays, the share
and the parameters. -/
theorem Chip.referenceFor_congr (active : (q.hoist h).active = (p.hoist h).active)
    (level : (q.hoist h).latchLevel = (p.hoist h).latchLevel) (state : (q.link h).state = (p.link h).state)
    (unit : q.unit h = p.unit h) (interlock : q.interlock = p.interlock) (bays : q.bays = p.bays)
    (share : q.power.share = p.power.share) (params : q.params = p.params) (hp : q.hp h = p.hp h) (phase : Phase) :
    q.referenceFor h previous phase = p.referenceFor h previous phase := by
  have elevation : ∀ b, q.elevationOf b = p.elevationOf b := fun b => by
    unfold Chip.elevationOf Chip.bay
    rw [bays]
  have brake : q.brakeIn h phase = p.brakeIn h phase := by
    unfold Chip.brakeIn HoistCtl.loaded
    simp only [active, level, state, interlock]
  have speed : ∀ t, q.travelSpeed h t = p.travelSpeed h t := fun t => by
    unfold Chip.travelSpeed Chip.legLoad
    rw [hp, share, params]
  have cap : ∀ t, q.effectiveCap h t = p.effectiveCap h t := fun t => by
    unfold Chip.effectiveCap Chip.targetDistance
    rw [hp, elevation, unit, params]
  have sign : ∀ t, q.targetSign h t = p.targetSign h t := fun t => by
    unfold Chip.targetSign
    rw [elevation, unit]
  have limit : q.movedLimit h previous = p.movedLimit h previous := by
    unfold Chip.movedLimit
    rw [hp]
  unfold Chip.referenceFor
  simp only [active, brake, speed, cap, sign, limit, hp]

/-! ### The reference that a segment event leaves -/

/-- Nothing that the reference reads moves between its computing and the end of the event. -/
theorem Chip.afterSegment_speedRef : ((p.afterSegment h).hoist h).speedRef =
    (p.afterSegment h).referenceFor h (p.hoist h).speedRef ((p.afterSegment h).hoist h).phase := by
  have hoist := p.afterSegment_hoist h
  have phase : ((p.afterSegment h).hoist h).phase = ((p.atPhase h).hoist h).phase := by rw [hoist]
  have state : ((p.afterSegment h).link h).state = ((p.atPhase h).link h).state := by rw [p.afterSegment_link, p.atPhase_link]
  have sent : (p.segment h).unchangedBut (p.afterSegment h) [.hoists, .selector, .power, .port] :=
    Chip.finish_unchangedBut p (p.segment h)
  have unit : (p.afterSegment h).unit h = (p.atPhase h).unit h := congrArg (Quad.get · h) (sent .units (by decide))
  have interlock : (p.afterSegment h).interlock = (p.atPhase h).interlock :=
    Chip.interlock_of_sensors (sent .sensors (by decide))
  have share : (p.afterSegment h).power.share = (p.atPhase h).power.share := Chip.finish_share p (p.segment h)
  have params : (p.afterSegment h).params = (p.atPhase h).params := sent .params (by decide)
  have hp : (p.afterSegment h).hp h = (p.atPhase h).hp h := congrArg (Quad.get · h) (sent .hoistParams (by decide))
  have same : (p.afterSegment h).referenceFor h (p.hoist h).speedRef ((p.atPhase h).hoist h).phase =
      (p.atPhase h).referenceFor h (p.hoist h).speedRef ((p.atPhase h).hoist h).phase :=
    Chip.referenceFor_congr (by rw [hoist]) (by rw [hoist]) state unit interlock (sent .bays (by decide)) share params hp _
  rw [phase, same, hoist]
  rfl

/-! ### The late approach count (R151) -/

theorem HoistCtl.faultTaken_lateApproach (c : HoistCtl) (cause : FaultCause) (detail : Option Nat) :
    (c.faultTaken cause detail).lateApproach = c.lateApproach := by
  unfold HoistCtl.faultTaken
  split <;> rfl

/-- The checks of a segment event leave the count. -/
theorem Chip.atHeight_lateApproach : ((p.atHeight h).hoist h).lateApproach = (p.hoist h).lateApproach := by
  have closed : ((p.atClosed h).hoist h).lateApproach = (p.hoist h).lateApproach := by
    have taken : (p.hoist h).segmentTaken.lateApproach = (p.hoist h).lateApproach := by rw [HoistCtl.segmentTaken_eq]
    rw [p.atClosed_hoist]
    split
    · rw [HoistCtl.faultTaken_lateApproach, taken]
    · exact taken
  have marked : ((p.atMarkers h).hoist h).lateApproach = (p.hoist h).lateApproach := by
    obtain e | ⟨_, _, _, e⟩ := p.atMarkers_hoist h <;> rw [e]
    · exact closed
    · rw [HoistCtl.faultTaken_lateApproach, closed]
  have checked : ((p.speedChecked h).hoist h).lateApproach = (p.hoist h).lateApproach := by rw [p.speedChecked_hoist, marked]
  rw [p.atHeight_hoist, p.atOverspeed_eq]
  split
  · rw [Chip.takeFault_hoist, HoistCtl.faultTaken_lateApproach, checked]
  · exact checked

/-- A count of late approaches after an event that finds a hoist as `c` and leaves it in a phase: raised where it has entered APPROACH with a
reference above CREEP, else as it was. -/
def HoistCtl.LateCounted (c : HoistCtl) (creep : Nat) (after : Phase) (count : Nat) : Prop :=
  (approachEntered c.phase after → creep < c.speedRef.natAbs → count = satInc16 c.lateApproach) ∧
  ((¬approachEntered c.phase after ∨ c.speedRef.natAbs ≤ creep) → count = c.lateApproach)

theorem HoistCtl.lateCounted_of_not_entered {c : HoistCtl} {creep : Nat} {after : Phase} {count : Nat}
    (stays : ¬approachEntered c.phase after) (same : count = c.lateApproach) : c.LateCounted creep after count :=
  ⟨fun entered => absurd entered stays, fun _ => same⟩

/-- The stop at the target leaves the count, and the hoist in APPROACH or in the phase after it. -/
theorem Chip.approachTest_late (approach : (p.hoist h).phase = .approach) :
    ((p.approachTest h t).hoist h).lateApproach = (p.hoist h).lateApproach ∧
    (((p.approachTest h t).hoist h).phase = .approach ∨ ((p.approachTest h t).hoist h).phase = .engage ∨
      ((p.approachTest h t).hoist h).phase = .release) := by
  by_cases near : p.targetDistance h t ≤ p.params.stopTol
  · rw [Chip.approachTest, if_pos near]
    cases t.leg <;> simp [Chip.enterEngage, Chip.enterRelease, Chip.enterPhase, Chip.stopRef]
  · rw [Chip.approachTest, if_neg near]
    exact ⟨rfl, .inl approach⟩

theorem Chip.enterApproach_late : ((p.enterApproach h).hoist h).lateApproach =
    if (p.hp h).creep < (p.hoist h).speedRef.natAbs then satInc16 (p.hoist h).lateApproach else (p.hoist h).lateApproach := by
  simp [Chip.enterApproach, Chip.enterPhase]

theorem Chip.enterDwell_lateApproach : ((p.enterDwell h).hoist h).lateApproach = (p.hoist h).lateApproach := by
  simp [Chip.enterDwell, Chip.enterPhase]

/-- Out of TRAVEL the phase tests leave the count. -/
theorem Chip.phaseTest_lateApproach (active : (p.hoist h).active = some t) (notTravel : (p.hoist h).phase ≠ .travel) :
    ((p.phaseTest h previous).hoist h).lateApproach = (p.hoist h).lateApproach := by
  by_cases approach : (p.hoist h).phase = .approach
  · rw [Chip.phaseTest_of_approach active approach]
    exact (Chip.approachTest_late approach).1
  by_cases dwell : (p.hoist h).phase = .dwell
  · rw [Chip.phaseTest_of_dwell active dwell]
    split
    · simp [Chip.enterPhase]
    · rfl
  · rw [Chip.phaseTest_of_standing active notTravel approach dwell]

/-- Of the phase tests the entry into APPROACH alone counts. -/
theorem Chip.phaseTest_lateCounted : (p.hoist h).LateCounted (p.hp h).creep ((p.phaseTest h previous).hoist h).phase
    ((p.phaseTest h previous).hoist h).lateApproach := by
  cases active : (p.hoist h).active with
  | none =>
    have still : p.phaseTest h previous = p := by simp [Chip.phaseTest, active]
    rw [still]
    exact HoistCtl.lateCounted_of_not_entered (by rintro ⟨travel, after⟩; simp [travel] at after) rfl
  | some t =>
    by_cases travel : (p.hoist h).phase = .travel
    · by_cases near : p.targetDistance h t ≤ p.params.approachDist
      · obtain ⟨count, after⟩ := Chip.approachTest_late (p := p.enterApproach h) (t := t) Chip.enterApproach_hoist.1
        rw [Chip.phaseTest_near active travel near]
        refine ⟨fun _ late => ?_, fun spared => ?_⟩
        · rw [count, Chip.enterApproach_late, if_pos late]
        · rw [count, Chip.enterApproach_late, if_neg (Nat.not_lt.mpr (spared.resolve_left (not_not.mpr ⟨travel, after⟩)))]
      · rw [Chip.phaseTest_far active travel (Nat.lt_of_not_le near)]
        split
        · refine HoistCtl.lateCounted_of_not_entered ?_ Chip.enterDwell_lateApproach
          rintro ⟨_, after⟩
          simp [Chip.enterDwell_hoist.1] at after
        · refine HoistCtl.lateCounted_of_not_entered ?_ rfl
          rintro ⟨_, after⟩
          simp [travel] at after
    · exact HoistCtl.lateCounted_of_not_entered (fun entered => travel entered.1)
        (Chip.phaseTest_lateApproach active travel)

/-- A segment event counts a late approach as its phase tests do: its checks leave the hoist as they find it, or FAULTED. -/
theorem Chip.afterSegment_lateCounted : (p.hoist h).LateCounted (p.hp h).creep ((p.afterSegment h).hoist h).phase
    ((p.afterSegment h).hoist h).lateApproach := by
  have counted : ((p.atHeight h).hoist h).LateCounted ((p.atHeight h).hp h).creep ((p.atPhase h).hoist h).phase
      ((p.atPhase h).hoist h).lateApproach := Chip.phaseTest_lateCounted
  rw [p.afterSegment_hoist]
  by_cases faulted : ((p.atHeight h).hoist h).phase = .faulted
  · have still : p.atPhase h = p.atHeight h := Chip.phaseTest_of_faulted _ _ _ faulted
    refine HoistCtl.lateCounted_of_not_entered ?_ ?_
    · rintro ⟨_, after⟩
      simp [still, faulted] at after
    · simp only [still]
      exact Chip.atHeight_lateApproach
  · obtain ⟨_, hoist⟩ := Chip.atHeight_of_notFaulted faulted
    rw [HoistCtl.segmentTaken_eq] at hoist
    rwa [hoist, (p.atHeight_from h).hp] at counted

end

/-! ### The obligation -/

/-- What the ramp does, clause by clause. -/
theorem ramp_clauses (step : Nat) (capped : Bool) (r t : Int) :
    (r * t < 0 → (ramp step capped r t).natAbs = r.natAbs - step ∧ 0 ≤ ramp step capped r t * r) ∧
    ((r = 0 ∨ 0 < r * t) → r.natAbs < t.natAbs →
      (ramp step capped r t).natAbs = min (r.natAbs + step) t.natAbs ∧ 0 ≤ ramp step capped r t * t) ∧
    (0 ≤ r * t → t.natAbs < r.natAbs → ramp step true r t = t ∧
      (ramp step false r t).natAbs = max (r.natAbs - step) t.natAbs ∧ 0 ≤ ramp step false r t * r) ∧
    ramp step capped r r = r ∧ (ramp step false r t - r).natAbs ≤ step := by
  refine ⟨fun against => ?_, fun along larger => ?_, fun along smaller => ?_,
    ramp_reached (mul_self_nonneg r) rfl, ramp_moves_le⟩
  · rw [ramp_against against]
    exact ⟨natAbs_sign_mul r _ (by rintro rfl; simp at against), sign_mul_agrees r _⟩
  · have along : 0 ≤ r * t := along.elim (fun zero => by simp [zero]) le_of_lt
    rw [ramp_raised along larger]
    exact ⟨natAbs_sign_mul t _ (by rintro rfl; simp at larger), sign_mul_agrees t _⟩
  · rw [ramp_lowered along smaller]
    exact ⟨ramp_capped along smaller, natAbs_sign_mul r _ (by rintro rfl; simp at smaller), sign_mul_agrees r _⟩

/-- Settles O52: the ramp, the square root, the target speeds, the references that they give, and what a segment event leaves of them. -/
theorem rampAndStoppingCap : Obligations.RampAndStoppingCap := by
  refine ⟨ramp_clauses, isqrt_spec, fun p h tr => ⟨Chip.travelSpeed_empty, Chip.travelSpeed_directed,
    fun _ loaded automatic weighed => Chip.travelSpeed_automatic loaded automatic weighed⟩,
    fun p h tr previous target d cap speed limit step active isTarget isDistance isCap isSpeed isStep isLimit => ?references,
    fun s h kept due => ?event⟩
  case references =>
    have distance : d = p.targetDistance h tr := by rw [isDistance, isTarget, Chip.targetDistance_eq]
    have capped : cap = p.effectiveCap h tr := by rw [isCap, distance]; rfl
    have ramped : step = (p.hp h).aStep := isStep
    have limited : limit = p.movedLimit h previous := by rw [isLimit, ramped]; rfl
    have sign : ((target : Int) - (p.unit h).elevation).sign = p.targetSign h tr := by rw [isTarget, Chip.targetSign_eq]
    rw [sign, capped, isSpeed, limited, ramped]
    refine ⟨Chip.referenceFor_travel active, Chip.referenceFor_approach active, fun phase stands => ?_⟩
    rcases stands with ⟨notTravel, notApproach⟩ | set
    · exact Chip.referenceFor_of_standing notTravel notApproach
    · exact p.referenceFor_of_set h previous phase set
  case event =>
    have next : exec (.segmentEvent h) s = .next { s with chip := s.chip.afterSegment h } := s.event_of _ _ due
    exact ⟨_, next, Chip.afterSegment_speedRef, Chip.afterSegment_lateCounted⟩

end Sys2Proof.Machine
end

section
/-! SUPPORT. CLEAR_FAULT (spec/08 R167): the FAULTED hoist that becomes HALTED with its trip, or IDLE without one. -/

namespace Sys2Proof.Machine

/-! ### The fault cleared -/

section
variable {p : Chip} {h : HoistId} {t : Trip} {phaseAt : Phase}

/-- The halt cause a cleared fault gives a trip (R167): a destination still held waits for RESUME, a lost one is told as lost. -/
def Chip.clearedCause (p : Chip) (h : HoistId) (t : Trip) : HaltCause :=
  if p.holdsDestination h .active t.destination then .restart else .destLost

theorem Chip.clearFault_hoist_of_trip (active : (p.hoist h).active = some t)
    (entered : (p.hoist h).fault.phaseAt = some phaseAt) : (p.clearFault h).hoist h = { p.hoist h with
      phase := .halted, phaseReply := none, phaseTimer := none, dwellTimer := none, speedRef := 0
      fault := (p.hoist h).fault.cleared
      active := some { t with resumePhase := some phaseAt, haltCause := some (p.clearedCause h t) } } := by
  obtain ⟨q, def_q⟩ : ∃ q, q = p.updHoist h fun c => { c with fault := c.fault.cleared } := ⟨_, rfl⟩
  have hoist : q.hoist h = { p.hoist h with fault := (p.hoist h).fault.cleared } := by
    rw [def_q, Chip.updHoist_hoist_self]
  have halted : p.clearFault h = q.haltHoist h (p.clearedCause h t) phaseAt := by
    simp only [Chip.clearFault, ← def_q, hoist, active, entered, Option.getD_some]
    rw [def_q]
    rfl
  rw [halted, Chip.haltHoist_hoist _ _ t _ _ (by rw [hoist]; exact active), hoist]

theorem Chip.clearFault_hoist_of_none (active : (p.hoist h).active = none) : (p.clearFault h).hoist h = { p.hoist h with
      phase := .idle, phaseReply := none, phaseTimer := none, dwellTimer := none
      fault := (p.hoist h).fault.cleared } := by
  simp [Chip.clearFault, active, Chip.enterPhase]

/-- What the clearing keeps and what it empties, with a trip and without. -/
theorem Chip.clearFault_items (entered : (p.hoist h).fault.phaseAt = some phaseAt) :
    ((p.clearFault h).hoist h).fault = (p.hoist h).fault.cleared ∧
    ((p.clearFault h).hoist h).latchCommand = (p.hoist h).latchCommand ∧
    ((p.clearFault h).hoist h).withdrawal = (p.hoist h).withdrawal ∧
    ((p.clearFault h).hoist h).phase ≠ .travel ∧ ((p.clearFault h).hoist h).phase ≠ .approach := by
  cases active : (p.hoist h).active with
  | none =>
    rw [Chip.clearFault_hoist_of_none active]
    exact ⟨rfl, rfl, rfl, by simp, by simp⟩
  | some t =>
    rw [Chip.clearFault_hoist_of_trip active entered]
    exact ⟨rfl, rfl, rfl, by simp, by simp⟩

theorem Chip.clearFault_unchangedBut : p.unchangedBut (p.clearFault h) [.hoists] := by
  unfold Chip.clearFault
  extract_lets phaseAt q
  split <;> (intro x out; cases x <;> simp at out <;> rfl)

/-- A hoist that neither travels nor approaches has the reference 0 at the end of an event (R93, R152). -/
theorem Chip.keptHoist_speedRef_of_standing (notTravel : (p.hoist h).phase ≠ .travel)
    (notApproach : (p.hoist h).phase ≠ .approach) : (p.keptHoist h).speedRef = 0 :=
  if_pos (p.brakeLaw_of_standing h notTravel notApproach)

/-! ### The command -/

theorem clearFault_outOfRange {number : Nat} (far : 3 < number) : (clearFault number p).2 = refuse .range := by
  simp [clearFault, (hoistOf_eq_none_iff number).mpr far]

theorem clearFault_refused (bad : (p.hoist h).phase ≠ .faulted ∨ (p.link h).state ≠ .up) :
    (clearFault h.val p).2 = refuse .state := by
  simp only [clearFault, hoistOf_val, if_pos bad]

theorem clearFault_val (faulted : (p.hoist h).phase = .faulted) (up : (p.link h).state = .up) :
    ∃ fields, clearFault h.val p = (p.clearFault h, answerDone fields) := by
  have passes : ¬((p.hoist h).phase ≠ .faulted ∨ (p.link h).state ≠ .up) := by simp [faulted, up]
  simp only [clearFault, hoistOf_val, if_neg passes]
  exact ⟨_, rfl⟩

end

/-- Settles O42: the fault record is emptied but for its count, and the hoist is HALTED with its trip or IDLE without. -/
theorem clearFaultCompletes : Obligations.ClearFaultCompletes := by
  intro s h phaseAt number
  refine ⟨fun hands faulted up entered => ?cleared, fun hands far => hands.command_refused (clearFault_outOfRange far),
    fun hands bad => hands.command_refused (clearFault_refused bad)⟩
  obtain ⟨fields, made⟩ := clearFault_val faulted up
  obtain ⟨t, next, pending, parts, others, ended, replied⟩ := hands.onTrips made rfl .clearFault
    (Chip.unchangedBut_mono Chip.clearFault_unchangedBut
      (by decide : ∀ x ∈ _, x ∈ [Part.hoists, .selector, .power, .port])) (by decide)
  obtain ⟨fault, latch, withdrawal, notTravel, notApproach⟩ := Chip.clearFault_items entered
  refine ⟨t, next, pending, parts, others, ?_, ?_, ?_, ?_, fun untripped => ?_, fun tr active => ?_, _, replied, rfl⟩ <;>
    rw [ended.hoist]
  · exact fault
  · exact latch
  · exact withdrawal
  · exact Chip.keptHoist_speedRef_of_standing notTravel notApproach
  · rw [Chip.keptHoist_phase, Chip.keptHoist_active, Chip.clearFault_hoist_of_none untripped]
    exact ⟨rfl, untripped⟩
  · rw [Chip.keptHoist_phase, Chip.keptHoist_active, Chip.clearFault_hoist_of_trip active entered, Chip.clearedCause,
      apply_ite some]
    exact ⟨rfl, rfl⟩

end Sys2Proof.Machine
end

section
/-! SUPPORT. The events of a Hoist Link (spec/08): what an event on one link, with what follows from it for the hoist's trips, leaves of the
part; and LINK_TIMEOUT (R159, R160, R165, R166). -/

namespace Sys2Proof.Machine

/-! ### What an event on one hoist's link leaves -/

/-- An event on hoist `h`'s link, and on its trips: what it may touch of the part. -/
structure Chip.LinkStep (h : HoistId) (p q : Chip) : Prop where
  parts : p.unchangedBut q [.masses, .bays, .hoists, .selector, .orders, .links]
  hoists : p.otherHoistsSame q h
  links : p.otherLinksSame q h

namespace Chip.LinkStep

variable {h : HoistId} {p q r : Chip}

theorem trans (x : LinkStep h p q) (y : LinkStep h q r) : LinkStep h p r where
  parts := Chip.unchangedBut_trans x.parts y.parts
  hoists k ne := (y.hoists k ne).trans (x.hoists k ne)
  links k ne := (y.links k ne).trans (x.links k ne)

theorem of_frame (frame : TripFrame h p q) : LinkStep h p q where
  parts := Chip.unchangedBut_mono frame.unchangedBut (by decide)
  hoists := frame.others
  links k _ := congrArg (Quad.get · k) frame.links

theorem updLink (f : LinkPort → LinkPort) : LinkStep h p (p.updLink h f) where
  parts := fun x out => by cases x <;> simp at out <;> rfl
  hoists _ _ := rfl
  links k ne := p.updLink_link_of_ne h k f ne

/-- The end of the event adds the allocator and the port to what is touched, and no other hoist or link. -/
theorem finished (step : LinkStep h p q) (kept : p.Kept) :
    p.unchangedBut (p.finish q) [.masses, .bays, .hoists, .selector, .orders, .power, .links, .port] ∧
    p.otherLinksSame (p.finish q) h ∧ p.otherHoistsSame (p.finish q) h :=
  ⟨Chip.unchangedBut_mono (Chip.unchangedBut_append step.parts (Chip.finish_unchangedBut p q)) (by decide),
    fun k ne => (Chip.finish_link p q k).trans (step.links k ne),
    kept.finish_otherHoistsSame step.hoists step.links
      (fun k _ => congrArg (Quad.get · k) (step.parts .units (by decide)))
      (Chip.interlock_of_sensors (step.parts .sensors (by decide)))⟩

end Chip.LinkStep

/-! ### The end of an event that finds a link not UP -/

section
variable {p : Chip} {h : HoistId} (before : Chip)

/-- A hoist whose link is not UP is not able, and stands with its brake SET (R89, R93, R152). -/
theorem Chip.finish_notUp (notUp : (p.link h).state ≠ .up) : ((before.finish p).hoist h).able = false ∧
    ((before.finish p).hoist h).brake = .set ∧ ((before.finish p).hoist h).speedRef = 0 := by
  have brake : ((before.finish p).hoist h).brake = .set := by
    rw [Chip.finish_brake, Chip.finish_brakeLaw]
    exact if_neg fun released => notUp released.2.1
  refine ⟨?_, brake, Chip.finish_stopped before p h brake⟩
  rw [Chip.finish_able, Chip.finish_ableLaw]
  exact decide_eq_false fun able => notUp able.1

/-- A LOST link is a condition of the attention set after the event (R190). -/
theorem Chip.finish_linkLost (lost : (p.link h).state = .lost) : (before.finish p).port.attention.linkLost = true := by
  rw [Chip.finish_attention, Chip.finish_conditions]
  exact List.any_eq_true.mpr ⟨h, mem_hoistList h, decide_eq_true lost⟩

end

/-! ### The fault record of a FAULTED hoist (R166) -/

theorem HoistCtl.faultTaken_joined (c : HoistCtl) (cause : FaultCause) (detail : Option Nat) (faulted : c.phase = .faulted) :
    (c.faultTaken cause detail).fault =
      { c.fault with further := some (addCause (c.fault.further.getD 0) cause) } := by
  rw [HoistCtl.faultTaken, if_pos faulted]

/-! ### The closing of the segment taken by itself (log 6) -/

/-- The part in which hoist `h`'s segment has been closed on its link, before a fault. -/
def Chip.segmentLost (p : Chip) (h : HoistId) : Chip := p.updLink h fun l => l.closeSegment p.params.linkTimeout

/-- The part that LINK_TIMEOUT makes. -/
def Chip.timedOut (p : Chip) (h : HoistId) : Chip := (p.closeSegment h).updLink h fun l => { l with closedAhead := true }

section
variable {p : Chip} {h : HoistId} (reached : p.timeoutReached h = true)
include reached

/-- What the missed reply at LINK_TIMEOUT makes of an UP link (R159). -/
theorem Chip.segmentLost_link : (p.segmentLost h).link h = { p.link h with
    state := .lost, missed := satInc 255 (p.link h).missed, linkLosses := satInc16 (p.link h).linkLosses } := by
  obtain ⟨up, noReply, enough, _⟩ := of_decide_eq_true reached
  rw [Chip.segmentLost, Chip.updLink_link_self]
  simp [LinkPort.closeSegment, LinkPort.leaveDown, LinkPort.closedMissed, LinkPort.raiseMissed, up, noReply, enough]

/-- The LINK fault comes with the loss wherever the hoist is not IDLE (R160). -/
theorem Chip.closeSegment_of_timeout : p.closeSegment h =
    if (p.hoist h).phase = .idle then p.segmentLost h else (p.segmentLost h).takeFault h .link none := by
  obtain ⟨up, _⟩ := of_decide_eq_true reached
  have lost : ((p.segmentLost h).link h).state = .lost := by rw [Chip.segmentLost_link reached]
  have taken : p.closeSegment h = if (p.link h).state = .up ∧ ((p.segmentLost h).link h).state = .lost ∧
      ((p.segmentLost h).hoist h).phase ≠ .idle then (p.segmentLost h).takeFault h .link none else p.segmentLost h := rfl
  have hoist : (p.segmentLost h).hoist h = p.hoist h := rfl
  rw [taken, hoist]
  by_cases idle : (p.hoist h).phase = .idle
  · rw [if_pos idle, if_neg fun faults => faults.2.2 idle]
  · rw [if_neg idle, if_pos ⟨up, lost, idle⟩]

theorem Chip.timedOut_step : Chip.LinkStep h p (p.timedOut h) := by
  have closed : Chip.LinkStep h p (p.closeSegment h) := by
    rw [Chip.closeSegment_of_timeout reached]
    split
    · exact .updLink _
    · exact (Chip.LinkStep.updLink _).trans (.of_frame (.takeFault _ _))
  exact closed.trans (.updLink _)

theorem Chip.timedOut_link : (p.timedOut h).link h = { p.link h with
    state := .lost, missed := satInc 255 (p.link h).missed, linkLosses := satInc16 (p.link h).linkLosses
    closedAhead := true } := by
  have closed : (p.closeSegment h).link h = (p.segmentLost h).link h := by
    rw [Chip.closeSegment_of_timeout reached]
    split
    · rfl
    · exact Chip.takeFault_link _ h h _ _
  rw [Chip.timedOut, Chip.updLink_link_self, closed, Chip.segmentLost_link reached]

theorem Chip.timedOut_hoist : (p.timedOut h).hoist h =
    if (p.hoist h).phase = .idle then p.hoist h else (p.hoist h).faultTaken .link none := by
  rw [Chip.timedOut, Chip.updLink_hoist, Chip.closeSegment_of_timeout reached]
  split
  · rfl
  · exact Chip.takeFault_hoist _ h _ _

/-- The fault entry drops the staged trip; the link it comes from has no part in that (R165). -/
theorem Chip.stagedDropped_timedOut (notIdle : (p.hoist h).phase ≠ .idle) (notFaulted : (p.hoist h).phase ≠ .faulted) :
    p.stagedDropped (p.timedOut h) h := by
  have dropped : (p.segmentLost h).stagedDropped ((p.segmentLost h).takeFault h .link none) h :=
    Chip.stagedDropped_takeFault .link none notFaulted
  rw [Chip.timedOut, Chip.closeSegment_of_timeout reached, if_neg notIdle]
  exact dropped

end

/-- Settles O54: the closing makes the UP link LOST, and a hoist that is not IDLE takes the LINK fault. -/
theorem linkTimeoutCompletes : Obligations.LinkTimeoutCompletes := by
  intro s h kept due up noReply enough notAhead
  have reached : s.chip.timeoutReached h = true := decide_eq_true ⟨up, noReply, enough, notAhead⟩
  have next : exec (.linkTimeout h) s = .next { s with chip := s.chip.finish (s.chip.timedOut h) } :=
    s.event_of _ _ (by rw [due, reached]; rfl)
  have link := Chip.timedOut_link reached
  have lost : ((s.chip.timedOut h).link h).state = .lost := by rw [link]
  have hoist := Chip.timedOut_hoist reached
  obtain ⟨parts, otherLinks, otherHoists⟩ := (Chip.timedOut_step reached).finished kept
  obtain ⟨able, brake, stopped⟩ := Chip.finish_notUp s.chip (by rw [lost]; decide)
  refine ⟨_, next, rfl, parts, otherLinks, otherHoists, (Chip.finish_link _ _ h).trans link, able, brake, stopped,
    Chip.finish_linkLost s.chip lost, fun idle => ?idle, fun notIdle notFaulted => ?entered, fun faulted => ?joined⟩
  case idle =>
    rw [if_pos idle] at hoist
    rw [Chip.finish_hoist, Chip.keptHoist_phase, Chip.keptHoist_fault, hoist]
    exact ⟨idle, rfl⟩
  case entered =>
    rw [if_neg notIdle] at hoist
    have faulted : ((s.chip.timedOut h).hoist h).phase = .faulted := by rw [hoist, HoistCtl.faultTaken_phase]
    refine ⟨?_, Chip.stagedDropped_finish s.chip (Chip.stagedDropped_timedOut reached notIdle notFaulted), ?_,
      Chip.finish_faultedHoist s.chip faulted⟩ <;> rw [Chip.finish_hoist]
    · exact faulted
    · rw [Chip.keptHoist_fault, hoist]
      exact (HoistCtl.faultTaken_entry _ _ _ notFaulted).2
  case joined =>
    rw [if_neg (by rw [faulted]; decide)] at hoist
    rw [Chip.finish_hoist, Chip.keptHoist_fault, hoist, HoistCtl.faultTaken_joined _ _ _ faulted]
    rfl

end Sys2Proof.Machine
end

section
/-! SUPPORT. The bytes and the replies of a Hoist Link (spec/08 R158, R159, R161, R197): the check of a reply, the events that touch one
link only, and the reply that is taken and handed on. -/

namespace Sys2Proof.Machine

/-! ### The check of a reply (R197) -/

theorem foldl_add_toNat (l : List Byte) (b : Byte) :
    (l.foldl (· + ·) b).toNat = (b.toNat + (l.map BitVec.toNat).sum) % 256 := by
  induction l generalizing b with
  | nil => simpa using (Nat.mod_eq_of_lt b.isLt).symm
  | cons x xs ih =>
    rw [List.foldl_cons, ih, BitVec.toNat_add, List.map_cons, List.sum_cons, Nat.mod_add_mod, Nat.add_assoc]

theorem byteSum_eq_zero_iff (l : List Byte) : byteSum l = 0 ↔ (l.map BitVec.toNat).sum % 256 = 0 := by
  have sum : (byteSum l).toNat = (l.map BitVec.toNat).sum % 256 := by
    rw [byteSum, foldl_add_toNat]
    simp
  rw [← sum, BitVec.toNat_eq]
  rfl

theorem driveReplyOf_eq_none_iff (l : List Byte) : driveReplyOf l = none ↔
    (l.map BitVec.toNat).sum % 256 ≠ 0 ∨ 1 < (⟨l⟩ : Frame).byte 0 ∨ 15 < (⟨l⟩ : Frame).byte 1 ∨
      (⟨l⟩ : Frame).byte 2 ≠ 0 := by
  unfold driveReplyOf
  simp only [ite_eq_right_iff, reduceCtorEq, imp_false, not_and_or, byteSum_eq_zero_iff, Nat.not_le, ne_eq]

/-- A reply that passes its check has its fields read from their bytes. -/
theorem driveReplyOf_fields {l : List Byte} {r : DriveReply} (good : driveReplyOf l = some r) :
    (r.ready = true ↔ (⟨l⟩ : Frame).byte 0 = 1) ∧ r.code = (⟨l⟩ : Frame).byte 1 ∧
    r.load = 65536 * (⟨l⟩ : Frame).byte 3 + 256 * (⟨l⟩ : Frame).byte 4 + (⟨l⟩ : Frame).byte 5 := by
  obtain ⟨_, e⟩ := Option.ite_none_right_eq_some.mp good
  obtain rfl := Option.some.inj e
  refine ⟨decide_eq_true_iff, rfl, ?_⟩
  simp only [Frame.number, Nat.reduceAdd]
  omega

/-! ### Events that touch one link only -/

/-- `q` is `p` but for hoist `h`'s link, which has become `l` in the state and the service it was in. -/
structure Chip.LinkNoted (h : HoistId) (p q : Chip) (l : LinkPort) : Prop where
  parts : p.unchangedBut q [.links]
  links : p.otherLinksSame q h
  link : q.link h = l
  state : l.state = (p.link h).state
  enabled : l.enabled = (p.link h).enabled

namespace Chip.LinkNoted

variable {h : HoistId} {p q : Chip} {l : LinkPort}

theorem refl (h : HoistId) (p : Chip) : LinkNoted h p p (p.link h) :=
  ⟨p.unchangedBut_refl _, fun _ _ => rfl, rfl, rfl, rfl⟩

theorem updLink (noted : LinkNoted h p q l) (f : LinkPort → LinkPort) (state : (f l).state = l.state)
    (enabled : (f l).enabled = l.enabled) : LinkNoted h p (q.updLink h f) (f l) where
  parts := Chip.unchangedBut_trans noted.parts fun x out => by cases x <;> simp at out <;> rfl
  links k ne := (q.updLink_link_of_ne h k f ne).trans (noted.links k ne)
  link := by rw [Chip.updLink_link_self, noted.link]
  state := state.trans noted.state
  enabled := enabled.trans noted.enabled

variable (noted : LinkNoted h p q l)
include noted

theorem hoist (k : HoistId) : q.hoist k = p.hoist k := congrArg (Quad.get · k) (noted.parts .hoists (by decide))

theorem step : LinkStep h p q :=
  ⟨Chip.unchangedBut_mono noted.parts (by decide), fun k _ => noted.hoist k, noted.links⟩

theorem stateOf (k : HoistId) : (q.link k).state = (p.link k).state := by
  by_cases own : k = h
  · rw [own, noted.link, noted.state]
  · rw [noted.links k own]

theorem enabledOf (k : HoistId) : (q.link k).enabled = (p.link k).enabled := by
  by_cases own : k = h
  · rw [own, noted.link, noted.enabled]
  · rw [noted.links k own]

/-- Items true to the records stay so: neither able, nor the brake command, nor a condition reads more of a link. -/
theorem kept (kept : p.Kept) : q.Kept where
  able k := by
    have unit : q.unit k = p.unit k := congrArg (Quad.get · k) (noted.parts .units (by decide))
    rw [noted.hoist, kept.able]
    exact (Chip.ableLaw_congr (noted.stateOf k) (noted.enabledOf k) (by rw [unit]) (by rw [noted.hoist]) (by rw [noted.hoist])
      (by rw [noted.hoist]) (by rw [noted.hoist])).symm
  brake k := by
    rw [noted.hoist, kept.brake]
    exact (Chip.brakeLaw_congr (noted.stateOf k) (Chip.interlock_of_sensors (noted.parts .sensors (by decide)))
      (by rw [noted.hoist]) (by rw [noted.hoist]) (by rw [noted.hoist])).symm
  stopped k := by
    rw [noted.hoist]
    exact kept.stopped k
  attention := by
    have port : q.port = p.port := noted.parts .port (by decide)
    have power : q.power = p.power := noted.parts .power (by decide)
    have params : q.params = p.params := noted.parts .params (by decide)
    rw [port, kept.attention]
    exact (Chip.conditions_congr (noted.parts .masses (by decide)) (noted.parts .bays (by decide)) (by rw [power])
      (by rw [params]) (fun k => by rw [noted.hoist]) noted.stateOf).symm

/-- The end of such an event changes nothing more. -/
theorem finish_eq (isKept : p.Kept) : p.finish q = q :=
  Chip.finish_of_kept (noted.kept isKept) fun k differs => absurd (by rw [noted.hoist]) differs

end Chip.LinkNoted

/-- An event that touches one link only, where it comes about. -/
theorem State.event_noted {s : State} {h : HoistId} {q : Chip} {l : LinkPort} {arises : Bool} (kept : s.chip.Kept)
    (noted : Chip.LinkNoted h s.chip q l) (yes : arises = true) :
    ∃ t, s.event arises q = .next t ∧ t.pending = s.pending ∧ s.chip.unchangedBut t.chip [.links] ∧
      s.chip.otherLinksSame t.chip h ∧ t.chip.link h = l := by
  refine ⟨_, s.event_of _ _ yes, rfl, ?_⟩
  rw [noted.finish_eq kept]
  exact ⟨noted.parts, noted.links, noted.link⟩

section
variable {p : Chip} {h : HoistId} {byte : Byte} {r : DriveReply}

theorem LinkPort.partialExpired_iff (l : LinkPort) : l.partialExpired = true ↔ l.buffer ≠ [] ∧ 50 ≤ l.gap := by
  simp [LinkPort.partialExpired]

theorem Chip.clearReply_noted : Chip.LinkNoted h p (p.clearReply h) { p.link h with buffer := [], gap := 0 } :=
  (Chip.LinkNoted.refl h p).updLink _ rfl rfl

/-- A reply discarded, whole or partial, is counted (R158, R197). -/
theorem Chip.discardPartial_noted : Chip.LinkNoted h p (p.discardPartial h)
    { p.link h with buffer := [], gap := 0, replyErrors := satInc16 (p.link h).replyErrors } := by
  rw [Chip.discardPartial, Chip.failReply]
  exact Chip.clearReply_noted.updLink _ rfl rfl

theorem Chip.takeReplyByte_of_running (running : ¬(p.link h).partialExpired = true) :
    Chip.LinkNoted h p (p.takeReplyByte h byte) { p.link h with buffer := (p.link h).buffer ++ [byte], gap := 0 } := by
  rw [Chip.takeReplyByte, if_neg running]
  exact (Chip.LinkNoted.refl h p).updLink _ rfl rfl

theorem Chip.takeReplyByte_of_expired (expired : (p.link h).partialExpired = true) :
    Chip.LinkNoted h p (p.takeReplyByte h byte)
      { p.link h with buffer := [byte], gap := 0, replyErrors := satInc16 (p.link h).replyErrors } := by
  rw [Chip.takeReplyByte, if_pos expired]
  exact Chip.discardPartial_noted.updLink _ rfl rfl

/-! ### The seventh byte (R158) -/

theorem Chip.completeReply_of_bad (bad : driveReplyOf ((p.link h).buffer ++ [byte]) = none) :
    Chip.LinkNoted h p (p.completeReply h byte)
      { p.link h with buffer := [], gap := 0, replyErrors := satInc16 (p.link h).replyErrors } := by
  rw [Chip.completeReply, bad]
  exact Chip.discardPartial_noted

/-- A good reply after the first of its segment is dropped. -/
theorem Chip.completeReply_of_later (good : driveReplyOf ((p.link h).buffer ++ [byte]) = some r)
    (later : (p.link h).segmentReply = true) :
    Chip.LinkNoted h p (p.completeReply h byte) { p.link h with buffer := [], gap := 0 } := by
  have answered : ((p.clearReply h).link h).segmentReply = true := by rw [Chip.clearReply_noted.link]; exact later
  rw [Chip.completeReply, good]
  simp only [Chip.takeReply, if_pos answered]
  exact Chip.clearReply_noted

/-- The link that has taken the first good reply of its segment. -/
def LinkPort.taken (l : LinkPort) (r : DriveReply) : LinkPort :=
  { ({ l with buffer := [], gap := 0 } : LinkPort).answered with last := some r, segmentReply := true }

theorem Chip.replyTaken_link : (p.replyTaken h r).link h = (p.link h).taken r := by
  rw [Chip.replyTaken, Chip.updLink_link_self, Chip.clearReply_noted.link]
  rfl

theorem LinkPort.taken_items (l : LinkPort) : (l.taken r).buffer = [] ∧ (l.taken r).gap = 0 ∧
    (l.taken r).last = some r ∧ (l.taken r).segmentReply = true := by
  unfold LinkPort.taken LinkPort.answered
  cases l.state <;> exact ⟨rfl, rfl, rfl, rfl⟩

theorem LinkPort.taken_of_down {l : LinkPort} (down : l.state = .down) :
    l.taken r = { l with buffer := [], gap := 0, last := some r, segmentReply := true } := by
  simp [LinkPort.taken, LinkPort.answered, down]

/-- The column "Good reply taken" of R159. -/
theorem LinkPort.taken_moves (l : LinkPort) :
    (l.state = .down → (l.taken r).state = .down) ∧
    (l.state = .proving → (l.taken r).proving = l.proving + 1 ∧
      (l.taken r).state = if 4 ≤ l.proving + 1 then .up else .proving) ∧
    (l.state = .up → (l.taken r).state = .up ∧ (l.taken r).missed = 0) ∧
    (l.state = .lost → (l.taken r).state = .proving ∧ (l.taken r).proving = 1) := by
  refine ⟨fun down => ?_, fun proving => ?_, fun up => ?_, fun lost => ?_⟩
  · simp [LinkPort.taken_of_down down, down]
  · simp [LinkPort.taken, LinkPort.answered, proving]
  · simp [LinkPort.taken, LinkPort.answered, up]
  · simp [LinkPort.taken, LinkPort.answered, lost]

theorem Chip.replyTaken_step : Chip.LinkStep h p (p.replyTaken h r) :=
  (Chip.LinkStep.updLink _).trans (.updLink _)

section
variable (good : driveReplyOf ((p.link h).buffer ++ [byte]) = some r) (fresh : (p.link h).segmentReply = false)
include good fresh

/-- At a DOWN link the first good reply of a segment is taken and not handed on. -/
theorem Chip.completeReply_of_down (down : (p.link h).state = .down) : p.completeReply h byte = p.replyTaken h r := by
  have cleared : ((p.clearReply h).link h).segmentReply = false := by rw [Chip.clearReply_noted.link]; exact fresh
  have stays : ((p.replyTaken h r).link h).state = .down := by
    rw [Chip.replyTaken_link]
    exact (LinkPort.taken_moves _).1 down
  rw [Chip.completeReply, good]
  simp only [Chip.takeReply, cleared]
  exact if_pos stays

theorem Chip.completeReply_of_down_noted (down : (p.link h).state = .down) :
    Chip.LinkNoted h p (p.completeReply h byte) ((p.link h).taken r) := by
  rw [Chip.completeReply_of_down good fresh down]
  exact ⟨Chip.replyTaken_unchangedBut, Chip.replyTaken_otherLinksSame, Chip.replyTaken_link,
    by rw [LinkPort.taken_of_down down], by rw [LinkPort.taken_of_down down]⟩

theorem Chip.completeReply_link : (p.completeReply h byte).link h = (p.link h).taken r := by
  by_cases down : (p.link h).state = .down
  · exact (Chip.completeReply_of_down_noted good fresh down).link
  · have links : ((p.replyTaken h r).handOn h r).links = (p.replyTaken h r).links := Chip.TripFrame.handOn.links
    rw [Chip.completeReply_of_good good fresh down, ← Chip.replyTaken_link]
    exact congrArg (Quad.get · h) links

end

/-- The seventh byte touches one link and the trips of its hoist, and empties the buffer. -/
theorem Chip.completeReply_step : Chip.LinkStep h p (p.completeReply h byte) ∧
    ((p.completeReply h byte).link h).buffer = [] ∧ ((p.completeReply h byte).link h).gap = 0 := by
  cases reply : driveReplyOf ((p.link h).buffer ++ [byte]) with
  | none =>
    have noted := Chip.completeReply_of_bad reply
    exact ⟨noted.step, by rw [noted.link], by rw [noted.link]⟩
  | some r =>
    cases segment : (p.link h).segmentReply with
    | true =>
      have noted := Chip.completeReply_of_later reply segment
      exact ⟨noted.step, by rw [noted.link], by rw [noted.link]⟩
    | false =>
      obtain ⟨buffer, gap, _⟩ := LinkPort.taken_items (r := r) (p.link h)
      rw [Chip.completeReply_link reply segment]
      refine ⟨?_, buffer, gap⟩
      by_cases down : (p.link h).state = .down
      · exact (Chip.completeReply_of_down_noted reply segment down).step
      · rw [Chip.completeReply_of_good reply segment down]
        exact Chip.replyTaken_step.trans (.of_frame .handOn)

/-! ### The reply handed on (R161) -/

/-- The drive checks of R161 raise a fault on a hoist in this phase. -/
def DriveReply.faultsIn (r : DriveReply) (phase : Phase) : Prop :=
  r.code ≠ 0 ∨ r.ready = false ∧ (phase = .travel ∨ phase = .approach ∨ phase = .dwell)

/-- The fault has the code as its detail, which is 0 for a drive that is only not ready. -/
theorem Chip.driveChecks_of_fault (faults : r.faultsIn (p.hoist h).phase) :
    p.driveChecks h r = p.takeFault h .drive (some r.code) := by
  unfold Chip.driveChecks
  by_cases coded : r.code = 0
  · rw [if_neg (not_not.mpr coded), if_pos (faults.resolve_left (not_not.mpr coded)), coded]
  · rw [if_pos coded]

theorem Chip.driveChecks_of_clear (clear : ¬r.faultsIn (p.hoist h).phase) : p.driveChecks h r = p := by
  obtain ⟨noCode, ready⟩ := not_or.mp clear
  rw [Chip.driveChecks, if_neg noCode, if_neg ready]

/-- Neither the phase reply nor the completion of a phase touches the fault record. -/
theorem Chip.handOn_fault : ((p.handOn h r).hoist h).fault = ((p.driveChecks h r).hoist h).fault := by
  rw [Chip.handOn, (Chip.completionTest_keeps _ h).2, Chip.updHoist_hoist_self]

theorem Chip.handOn_fault_of_clear (clear : ¬r.faultsIn (p.hoist h).phase) :
    ((p.handOn h r).hoist h).fault = (p.hoist h).fault := by rw [Chip.handOn_fault, Chip.driveChecks_of_clear clear]

/-- A hoist that the drive checks fault completes no phase by the reply. -/
theorem Chip.handOn_of_fault (faults : r.faultsIn (p.hoist h).phase) : ((p.handOn h r).hoist h).phase = .faulted ∧
    ((p.handOn h r).hoist h).fault = ((p.hoist h).faultTaken .drive (some r.code)).fault := by
  have checked : (p.driveChecks h r).hoist h = (p.hoist h).faultTaken .drive (some r.code) := by
    rw [Chip.driveChecks_of_fault faults, Chip.takeFault_hoist]
  have faulted : (((p.driveChecks h r).updHoist h fun c => { c with phaseReply := some r.load }).hoist h).phase = .faulted := by
    rw [Chip.updHoist_hoist_self, checked]
    exact HoistCtl.faultTaken_phase _ _ _
  refine ⟨?_, by rw [Chip.handOn_fault, checked]⟩
  rw [Chip.handOn, Chip.completionTest_of_other (by rw [faulted]; decide) (by rw [faulted]; decide), faulted]

/-- What the drive checks make of a hoist, as the statements describe it. -/
theorem Chip.handOn_record {stopped : Bool} (isStopped : stopped = decide ((p.hoist h).phase ≠ .travel ∧
      (p.hoist h).phase ≠ .approach ∧ (p.hoist h).phase ≠ .dwell)) :
    ((r.code ≠ 0 ∨ r.ready = false ∧ stopped = false) → ((p.handOn h r).hoist h).phase = .faulted ∧
      ((p.hoist h).phase ≠ .faulted → ((p.handOn h r).hoist h).fault = {
        first := some .drive, detail := some r.code, phaseAt := some (p.hoist h).workPhase, further := some 0
        count := satInc 255 (p.hoist h).fault.count }) ∧
      ((p.hoist h).phase = .faulted → ((p.handOn h r).hoist h).fault = { (p.hoist h).fault with
        further := some (((p.hoist h).fault.further.getD 0) ||| 2#9) })) ∧
    (r.code = 0 → (r.ready = true ∨ stopped = true) → ((p.handOn h r).hoist h).fault = (p.hoist h).fault) := by
  have moving : stopped = false ↔
      (p.hoist h).phase = .travel ∨ (p.hoist h).phase = .approach ∨ (p.hoist h).phase = .dwell := by
    rw [isStopped, decide_eq_false_iff_not]
    tauto
  refine ⟨fun faults => ?_, fun noCode spared => ?_⟩
  · obtain ⟨phase, fault⟩ := Chip.handOn_of_fault (p := p) (h := h) (r := r) (faults.imp_right (And.imp_right moving.mp))
    refine ⟨phase, fun notFaulted => ?_, fun faulted => ?_⟩
    · rw [fault, (HoistCtl.faultTaken_entry _ _ _ notFaulted).2]
    · rw [fault, HoistCtl.faultTaken_joined _ _ _ faulted]
      rfl
  · refine Chip.handOn_fault_of_clear ?_
    rintro (coded | ⟨notReady, phase⟩)
    · exact coded noCode
    · simp [notReady, moving.mpr phase] at spared

end

/-- Settles O53: a byte that completes no reply touches one link only; the seventh drops the reply, or takes it and hands it on. -/
theorem hoistLinkBytesAndRepliesComplete : Obligations.HoistLinkBytesAndRepliesComplete := by
  intro s h b kept
  have expires : (s.chip.link h).buffer ≠ [] → 50 ≤ (s.chip.link h).gap → (s.chip.link h).partialExpired = true :=
    fun begun late => (LinkPort.partialExpired_iff _).mpr ⟨begun, late⟩
  have runs : (s.chip.link h).buffer = [] ∨ (s.chip.link h).gap < 50 → ¬(s.chip.link h).partialExpired = true := by
    rw [LinkPort.partialExpired_iff]
    rintro (empty | early) ⟨begun, late⟩
    · exact begun empty
    · omega
  refine ⟨fun bytes _ => ⟨driveReplyOf_eq_none_iff bytes, fun r => driveReplyOf_fields⟩,
    fun short running => State.event_noted kept (Chip.takeReplyByte_of_running (runs running)) (by simp [short]),
    fun begun late => State.event_noted kept (Chip.takeReplyByte_of_expired (expires begun late)) (by simp [expires begun late]),
    fun begun late => State.event_noted kept Chip.discardPartial_noted (expires begun late), fun six early => ?seventh⟩
  obtain ⟨step, buffer, gap⟩ := Chip.completeReply_step (p := s.chip) (h := h) (byte := b)
  obtain ⟨parts, otherLinks, otherHoists⟩ := step.finished kept
  refine ⟨_, s.event_of _ _ (by simp [six, runs (.inr early)]), rfl, parts, otherLinks, otherHoists, ?_, ?_, fun bad => ?_,
    fun r good later => ?_, fun r good fresh => ?fresh⟩
  · rwa [Chip.finish_link]
  · rwa [Chip.finish_link]
  · have noted := Chip.completeReply_of_bad bad
    rw [noted.finish_eq kept]
    exact ⟨noted.parts, noted.link⟩
  · have noted := Chip.completeReply_of_later good later
    rw [noted.finish_eq kept]
    exact ⟨noted.parts, noted.link⟩
  case fresh =>
    obtain ⟨_, _, last, segment⟩ := LinkPort.taken_items (r := r) (s.chip.link h)
    obtain ⟨down, proving, up, lost⟩ := LinkPort.taken_moves (r := r) (s.chip.link h)
    rw [Chip.finish_link, Chip.completeReply_link good fresh]
    refine ⟨last, segment, fun isDown => ⟨down isDown, ?_⟩, proving, up, lost, fun stopped notDown isStopped => ?_⟩
    · have noted := Chip.completeReply_of_down_noted good fresh isDown
      rw [noted.finish_eq kept]
      exact noted.parts .hoists (by decide)
    · rw [Chip.completeReply_of_good good fresh notDown, Chip.finish_hoist, Chip.keptHoist_phase, Chip.keptHoist_fault]
      exact Chip.handOn_record (p := s.chip.replyTaken h r) isStopped

end Sys2Proof.Machine
end

section
/-! SUPPORT. The record of a mass in a reply (spec/11 R193, R194) and its stored energy (spec/09 R171, R172). -/

namespace Sys2Proof.Machine

/-! ### The fields of the record as one byte can carry them (R1, R193) -/

theorem massNumber_lt (m : MassId) : massNumber m < 256 := Nat.lt_of_lt_of_le (Nat.succ_lt_succ m.isLt) (by decide)

theorem MassState.code_lt (x : MassState) : x.code < 256 := by cases x <;> decide

theorem flagCode_le_one (b : Bool) : flagCode b ≤ 1 := by cases b <;> decide

theorem maskOf_lt (bits : List Bool) : maskOf bits < 2 ^ bits.length := by
  induction bits with
  | nil => decide
  | cons b bs ih =>
    have bit := flagCode_le_one b
    rw [maskOf, List.length_cons, Nat.pow_succ]
    omega

/-- The presence byte of five fields, bit 0 first. -/
theorem maskOf_five (a b c d e : Bool) :
    maskOf [a, b, c, d, e] = flagCode a + 2 * flagCode b + 4 * flagCode c + 8 * flagCode d + 16 * flagCode e := by
  simp only [maskOf]
  omega

/-! ### The layout of the record (R194) -/

section
variable {l : List Byte} {i n : Nat} (after : 6 ≤ i)
include after

theorem byte_replyAt : (replyAt l).byte i = (⟨l⟩ : Frame).byte (i - 6) := by
  rw [replyAt, byte_skip (by simpa using after), List.length_replicate]

theorem number_replyAt : (replyAt l).number i n = (⟨l⟩ : Frame).number (i - 6) n := by
  rw [replyAt, number_skip (by simpa using after), List.length_replicate]

end

section
variable (p : Chip) (m : MassId)

/-- The presence bits of a mass record, in the order of R194. -/
def MassRecord.presence (r : MassRecord) : Nat :=
  maskOf [r.nominal.isSome, r.measured.isSome, r.bay.isSome, r.lastBay.isSome, r.hoist.isSome]

theorem MassRecord.presence_lt (r : MassRecord) : r.presence < 256 := (maskOf_lt _).trans (by simp)

/-- The fields of a mass record in the order of R194, with the bytes of 0 that fill the result. -/
def Chip.massRow (p : Chip) (m : MassId) : List Byte :=
  byteField (massNumber m) ++ (byteField (p.mass m).state.code ++ (byteField (p.mass m).presence ++
    (p.field 3 ((p.mass m).nominal.getD 0) ++ (p.field 3 ((p.mass m).measured.getD 0) ++
    (byteField (((p.mass m).bay.map fun b => b.val).getD 0) ++ (byteField (((p.mass m).lastBay.map fun b => b.val).getD 0) ++
    (byteField (((p.mass m).hoist.map fun h => h.val).getD 0) ++ (byteField (flagCode (p.mass m).weighHold) ++
    (p.field 2 (p.mass m).lifts ++ (p.field 6 (p.storedEnergy m) ++ List.replicate 3 0))))))))))

theorem Chip.massResult_length : (p.massResult m).length = 21 := by
  simp [Chip.massResult, p.field_length, byteField_length]

theorem Chip.resultBytes_massResult : resultBytes (p.massResult m) = p.massRow m := by
  have length := p.massResult_length m
  rw [resultBytes_eq _ (by omega), length]
  simp [Chip.massResult, Chip.massRow, MassRecord.presence]

theorem Chip.massRow_head : (replyAt (p.massRow m)).byte 6 = massNumber m ∧
    (replyAt (p.massRow m)).byte 7 = (p.mass m).state.code ∧ (replyAt (p.massRow m)).byte 8 = (p.mass m).presence := by
  refine ⟨?number, ?state, ?presence⟩ <;> rw [byte_replyAt (by decide), Chip.massRow]
  case number => exact byte_byteField (massNumber_lt m)
  case state => simpa [byte_skip, byteField_length] using byte_byteField (p.mass m).state.code_lt
  case presence => simpa [byte_skip, byteField_length] using byte_byteField (p.mass m).presence_lt

theorem Chip.massRow_masses :
    (∀ n, (p.mass m).nominal = some n → n < 16777216 → (replyAt (p.massRow m)).number 9 3 = n) ∧
    (∀ n, (p.mass m).measured = some n → n < 16777216 → (replyAt (p.massRow m)).number 12 3 = n) := by
  refine ⟨fun n nominal fits => ?_, fun n measured fits => ?_⟩ <;> rw [number_replyAt (by decide), Chip.massRow]
  · simpa [number_skip, byteField_length, nominal] using p.number_field (n := 3) fits
  · simpa [number_skip, byteField_length, p.field_length, measured] using p.number_field (n := 3) fits

theorem Chip.massRow_places :
    (∀ b, (p.mass m).bay = some b → (replyAt (p.massRow m)).byte 15 = b.val) ∧
    (∀ b, (p.mass m).lastBay = some b → (replyAt (p.massRow m)).byte 16 = b.val) ∧
    ∀ h, (p.mass m).hoist = some h → (replyAt (p.massRow m)).byte 17 = h.val := by
  have bayFits : ∀ b : BayId, b.val < 256 := fun b => by omega
  have hoistFits : ∀ h : HoistId, h.val < 256 := fun h => by omega
  refine ⟨fun b bay => ?_, fun b lastBay => ?_, fun h hoist => ?_⟩ <;> rw [byte_replyAt (by decide), Chip.massRow]
  · simpa [byte_skip, byteField_length, p.field_length, bay] using byte_byteField (bayFits b)
  · simpa [byte_skip, byteField_length, p.field_length, lastBay] using byte_byteField (bayFits b)
  · simpa [byte_skip, byteField_length, p.field_length, hoist] using byte_byteField (hoistFits h)

theorem Chip.massRow_figures :
    (replyAt (p.massRow m)).byte 18 = flagCode (p.mass m).weighHold ∧
    ((p.mass m).lifts ≤ 65535 → (replyAt (p.massRow m)).number 19 2 = (p.mass m).lifts) ∧
    (p.storedEnergy m < 281474976710656 → (replyAt (p.massRow m)).number 21 6 = p.storedEnergy m) := by
  have flagFits : flagCode (p.mass m).weighHold < 256 := (flagCode_le_one _).trans_lt (by decide)
  refine ⟨?weighHold, fun fits => ?lifts, fun fits => ?energy⟩
  case weighHold =>
    rw [byte_replyAt (by decide), Chip.massRow]
    simpa [byte_skip, byteField_length, p.field_length] using byte_byteField flagFits
  case lifts =>
    rw [number_replyAt (by decide), Chip.massRow]
    simpa [number_skip, byteField_length, p.field_length] using p.number_field (n := 2) (Nat.lt_succ_of_le fits)
  case energy =>
    rw [number_replyAt (by decide), Chip.massRow]
    simpa [number_skip, byteField_length, p.field_length] using p.number_field (n := 6) fits

theorem Chip.massRow_rest {i : Nat} (past : 27 ≤ i) : (replyAt (p.massRow m)).byte i = 0 := by
  have length := p.massResult_length m
  rw [byte_replyAt (by omega), ← p.resultBytes_massResult m, resultBytes_eq _ (by omega), byte_after (by omega)]

end

/-! ### The stored energy (R171, R172) -/

theorem MassRecord.weight_eq {r : MassRecord} {w : Nat}
    (reckoned : r.measured = some w ∨ r.measured = none ∧ r.nominal = some w) : r.weight = w := by
  obtain measured | ⟨unmeasured, nominal⟩ := reckoned
  · rw [MassRecord.weight, measured, Option.getD_some]
  · rw [MassRecord.weight, unmeasured, nominal, Option.getD_none, Option.getD_some]

section
variable {p : Chip} {m : MassId}

theorem Chip.storedEnergy_resting {b : BayId} (bay : (p.mass m).bay = some b)
    (rests : (p.mass m).state = .parked ∨ (p.mass m).state = .assigned ∨ (p.mass m).state = .retiring) :
    p.storedEnergy m = p.energyOf (p.mass m).weight (p.elevationOf b) := by
  obtain state | state | state := rests <;> simp only [Chip.storedEnergy, state, bay]

theorem Chip.storedEnergy_aboard {h : HoistId} (hoist : (p.mass m).hoist = some h) (state : (p.mass m).state = .aboard) :
    p.storedEnergy m = p.energyOf (p.mass m).weight (p.unit h).elevation := by
  simp only [Chip.storedEnergy, state, hoist]

theorem Chip.storedEnergy_away (away : (p.mass m).state = .missing ∨ (p.mass m).state = .absent) : p.storedEnergy m = 0 := by
  obtain state | state := away <;> simp only [Chip.storedEnergy, state]

end

/-- Settles O18: the reply is the row of its fields, each read back at its place; the energy by the state of the mass. -/
theorem massResultLayout : Obligations.MassResultLayout := by
  rintro p m r rfl
  rw [p.resultBytes_massResult m]
  obtain ⟨number, state, presence⟩ := p.massRow_head m
  obtain ⟨nominal, measured⟩ := p.massRow_masses m
  obtain ⟨bay, lastBay, hoist⟩ := p.massRow_places m
  obtain ⟨weighHold, lifts, energy⟩ := p.massRow_figures m
  refine ⟨number, state, presence.trans (maskOf_five ..), nominal, measured, bay, lastBay, hoist, weighHold, lifts, energy,
    p.massRow_rest m (by decide), p.massRow_rest m (by decide), p.massRow_rest m (by decide),
    fun w reckoned => ⟨fun b z inBay elevation rests => ?resting, fun h onHoist aboard => ?aboard⟩, Chip.storedEnergy_away⟩
  case resting =>
    rw [Chip.storedEnergy_resting inBay rests, MassRecord.weight_eq reckoned, Chip.elevationOf, elevation, Option.getD_some,
      Chip.energyOf_eq]
  case aboard => rw [Chip.storedEnergy_aboard onHoist aboard, MassRecord.weight_eq reckoned, Chip.energyOf_eq]

end Sys2Proof.Machine
end

section
/-! SUPPORT. Plant commands put into frames and read back (spec/10 R183; spec/11 R193, R194): the bytes round a payload with their CRC, and the
fields of the payload command by command. -/

namespace Sys2Proof.Machine

/-! ### Fields read back (R193) -/

section
variable {r : List Byte} {v : Nat} {x : Int}

theorem byte_bigEndian (fits : fitsByte v = true) : (⟨bigEndian 1 v ++ r⟩ : Frame).byte 0 = v :=
  byte_byteField (of_decide_eq_true fits)

theorem number_bigEndian (fits : fitsThreeBytes v = true) : (⟨bigEndian 3 v ++ r⟩ : Frame).number 0 3 = v := by
  rw [Frame.number_append_left _ _ _ _ (by simp), Frame.number_bigEndian 3 v (of_decide_eq_true fits)]

theorem signedOf_bigEndianSigned (fits : fitsSignedFourBytes x = true) :
    signedOf 4 ((⟨bigEndianSigned 4 x ++ r⟩ : Frame).number 0 4) = x := by
  obtain ⟨low, high⟩ : -2147483648 ≤ x ∧ x ≤ 2147483647 := by simpa [fitsSignedFourBytes] using fits
  have carried : (x % (2 ^ (8 * 4) : Int)).toNat < 256 ^ 4 := by omega
  rw [Frame.number_append_left _ _ _ _ (by simp), bigEndianSigned, Frame.number_bigEndian 4 _ carried]
  exact signedOf_toNat 4 x (by decide) (by omega) (by omega)

end

/-! ### The frame round a payload (R183, R194) -/

/-- The 30 bytes of a frame before its CRC: the head, the fields of the payload, and 0 in the payload bytes not used. -/
def framed (o : Originator) (code : Nat) (tag : Byte) (fields : List Byte) : List Byte :=
  [0xA5#8, BitVec.ofNat 8 o.code, BitVec.ofNat 8 code, tag] ++ (fields ++ List.replicate (26 - fields.length) 0#8)

theorem encode_eq_framed {i : Instr} {code : Nat} {fields : List Byte} (payload : i.payload = some (code, fields))
    (o : Originator) (tag : Byte) : i.encode o tag = some ⟨withCrc (framed o code tag fields)⟩ := by
  rw [Instr.encode, payload]
  rfl

theorem framed_length {fields : List Byte} (room : fields.length ≤ 26) (o : Originator) (code : Nat) (tag : Byte) :
    (framed o code tag fields).length = 30 := by
  simp only [framed, List.length_append, List.length_cons, List.length_nil, List.length_replicate]
  omega

/-- The CRC written after 30 bytes is the one that is checked. -/
theorem crcAgrees_withCrc {l : List Byte} (length : l.length = 30) : (⟨withCrc l⟩ : Frame).crcAgrees = true := by
  have crc : (⟨withCrc l⟩ : Frame).number 30 2 = (crc16 l).toNat := by
    rw [withCrc, number_skip (by omega), length]
    exact Frame.number_bigEndian 2 _ (crc16 l).isLt
  rw [Frame.crcAgrees, crc, withCrc, List.take_left' length, beq_self_eq_true]

theorem ofCode_code (o : Originator) : Originator.ofCode o.code = some o := by cases o <;> rfl

theorem originator_code_lt (o : Originator) : o.code < 256 := by cases o <;> decide

/-! ### The command read from its code and fields (R194) -/

/-- A frame that carries the code and the fields of a well-formed command reads back as that command, whatever bytes follow the fields. -/
theorem command_of_payload {i : Instr} {code : Nat} {fields rest : List Byte} (payload : i.payload = some (code, fields))
    (wellFormed : i.wellFormed = true) {f : Frame} (isCode : f.byte 2 = code)
    (number : ∀ k n, f.number (4 + k) n = (⟨fields ++ rest⟩ : Frame).number k n) : f.command = some i := by
  have byte : ∀ k, f.byte (4 + k) = (⟨fields ++ rest⟩ : Frame).byte k := fun k => by
    simpa [Frame.number] using number k 1
  have byte4 := byte 0
  have byte5 := byte 1
  have byte6 := byte 2
  have byte8 := byte 4
  have byte9 := byte 5
  have number4 := number 0 4
  have number5 := number 1 3
  have number6 := number 2 4
  cases i with
  | snapshot | restart =>
    cases payload
    simp only [Frame.command, isCode]
  | getMass a | getBay a | getOrder a | getEnergy a | getPlant a | retireMass a | barBay a | unbarBay a | cancelOrder a
  | resume a | abandonTrip a | clearFault a =>
    cases payload
    have read : f.byte 4 = a := byte4.trans (byte_bigEndian wellFormed)
    simp only [Frame.command, isCode, read]
  | nextMass a b | nextBay a b | getHoist a b | getParam a b | foundMass a b | holdHoist a b | retarget a b
  | referenceHoist a b | enableHoist a b =>
    cases payload
    obtain ⟨aFits, bFits⟩ : fitsByte a = true ∧ fitsByte b = true := by simpa [Instr.wellFormed] using wellFormed
    have read : f.byte 4 = a ∧ f.byte 5 = b := by simp [byte4, byte5, byte_skip, byte_bigEndian, aFits, bFits]
    simp only [Frame.command, isCode, read]
  | orderMove a b c =>
    cases payload
    obtain ⟨⟨aFits, bFits⟩, cFits⟩ : (fitsByte a = true ∧ fitsByte b = true) ∧ fitsByte c = true := by
      simpa [Instr.wellFormed] using wellFormed
    have read : f.byte 4 = a ∧ f.byte 5 = b ∧ f.byte 6 = c := by
      simp [byte4, byte5, byte6, byte_skip, byte_bigEndian, aFits, bFits, cFits]
    simp only [Frame.command, isCode, read]
  | amendMass a n =>
    cases payload
    obtain ⟨aFits, nFits⟩ : fitsByte a = true ∧ fitsThreeBytes n = true := by simpa [Instr.wellFormed] using wellFormed
    have read : f.byte 4 = a ∧ f.number 5 3 = n := by
      simp [byte4, number5, number_skip, byte_bigEndian, number_bigEndian, aFits, nFits]
    simp only [Frame.command, isCode, read]
  | admitMass a n b =>
    cases payload
    obtain ⟨⟨aFits, nFits⟩, bFits⟩ : (fitsByte a = true ∧ fitsThreeBytes n = true) ∧ fitsByte b = true := by
      simpa [Instr.wellFormed] using wellFormed
    have read : f.byte 4 = a ∧ f.number 5 3 = n ∧ f.byte 8 = b := by
      simp [byte4, number5, byte8, byte_skip, number_skip, byte_bigEndian, number_bigEndian, aFits, nFits, bFits]
    simp only [Frame.command, isCode, read]
  | surveyBay a n b c =>
    cases payload
    obtain ⟨⟨⟨aFits, nFits⟩, bFits⟩, cFits⟩ :
        ((fitsByte a = true ∧ fitsThreeBytes n = true) ∧ fitsByte b = true) ∧ fitsByte c = true := by
      simpa [Instr.wellFormed] using wellFormed
    have read : f.byte 4 = a ∧ f.number 5 3 = n ∧ f.byte 8 = b ∧ f.byte 9 = c := by
      simp [byte4, number5, byte8, byte9, byte_skip, number_skip, byte_bigEndian, number_bigEndian, aFits, nFits, bFits, cFits]
    simp only [Frame.command, isCode, read]
  | setPower x =>
    cases payload
    have read : signedOf 4 (f.number 4 4) = x := by rw [number4, signedOf_bigEndianSigned wellFormed]
    simp only [Frame.command, isCode, read]
  | setParam a b x =>
    cases payload
    obtain ⟨⟨aFits, bFits⟩, xFits⟩ : (fitsByte a = true ∧ fitsByte b = true) ∧ fitsSignedFourBytes x = true := by
      simpa [Instr.wellFormed] using wellFormed
    have read : f.byte 4 = a ∧ f.byte 5 = b ∧ signedOf 4 (f.number 6 4) = x := by
      simp [byte4, byte5, number6, byte_skip, number_skip, byte_bigEndian, signedOf_bigEndianSigned, aFits, bFits, xFits]
    simp only [Frame.command, isCode, read]
  | powerOnReset | millisecondMark | segmentEvent | linkTimeout | hoistLinkReply | replyPartialTimeout | filterSampleInstant
  | interlockClosedAcceptance | interlockHalt | interlockClosedTaken | markerPulse | encoderEdge | phaseTimerExpiry
  | dwellLimitExpiry | servingStart | tryHoist | eligibilityReevaluation | endTripsOfAnotherKind | frameComplete
  | frameGapTimeout | characterError | replyEnd | restartOrderQueue | restartPowerAllocator | restartHoist | plantLinkByte
  | hoistLinkReplyByte => cases payload

/-- A command's code is one byte and its fields fit a frame's payload. -/
theorem payload_fits (i : Instr) : Laws.Frame.Statement i := by
  cases i with
  | getMass | nextMass | getBay | nextBay | getHoist | getOrder | getEnergy | getParam | getPlant | snapshot | admitMass
  | amendMass | retireMass | foundMass | surveyBay | barBay | unbarBay | orderMove | cancelOrder | setPower | holdHoist
  | resume | abandonTrip | retarget | referenceHoist | clearFault | enableHoist | setParam | restart =>
    exact Laws.Frame.of_some rfl (by decide) (by simp)
  | powerOnReset | millisecondMark | segmentEvent | linkTimeout | hoistLinkReply | replyPartialTimeout | filterSampleInstant
  | interlockClosedAcceptance | interlockHalt | interlockClosedTaken | markerPulse | encoderEdge | phaseTimerExpiry
  | dwellLimitExpiry | servingStart | tryHoist | eligibilityReevaluation | endTripsOfAnotherKind | frameComplete
  | frameGapTimeout | characterError | replyEnd | restartOrderQueue | restartPowerAllocator | restartHoist | plantLinkByte
  | hoistLinkReplyByte => exact Laws.Frame.of_none rfl

/-- Settles O12: the frame is its head, the fields of the payload and its CRC, and each is read where it was written. -/
theorem decodeOfEncode : Obligations.DecodeOfEncode := by
  intro i o tag wellFormed isCommand
  obtain ⟨⟨code, fields⟩, payload⟩ := Option.isSome_iff_exists.mp isCommand
  obtain ⟨codeFits, room⟩ := payload_fits i code fields payload
  have length := framed_length room o code tag
  have originator : (⟨withCrc (framed o code tag fields)⟩ : Frame).byte 1 = o.code := Nat.mod_eq_of_lt (originator_code_lt o)
  refine ⟨_, encode_eq_framed payload o tag, by rw [withCrc_length, length], rfl, crcAgrees_withCrc length, ?command,
    by rw [originator, ofCode_code], rfl⟩
  refine command_of_payload payload wellFormed (Nat.mod_eq_of_lt codeFits)
    (rest := List.replicate (26 - fields.length) 0#8 ++ bigEndian 2 (crc16 (framed o code tag fields)).toNat) fun k n => ?_
  rw [withCrc, framed, List.append_assoc, number_skip (Nat.le_add_right 4 k), List.append_assoc]
  simp

end Sys2Proof.Machine
end

section
/-! SUPPORT. The Plant Link Port's events (spec/10 R181 to R184): the bytes of a frame, the gap and the character error that break one, the check
and the placing of a complete frame, the port's own checks of a frame that it takes, and the end of a reply. -/

namespace Sys2Proof.Machine

/-! ### Events that touch the port only -/

section
variable {s : State} {p q : Chip}

theorem Chip.setPort_unchangedBut (p : Chip) (x : PlantPort) : p.unchangedBut { p with port := x } [.port] := by
  intro part out
  cases part <;> simp at out <;> rfl

/-- The end of an event that changes the port only, and leaves the items true to the records, changes nothing more. -/
theorem State.event_of_port (keptAfter : q.Kept) (frame : s.chip.unchangedBut q [.port]) {arises : Bool} (yes : arises = true) :
    s.event arises q = .next { s with chip := q } := by
  have hoists : q.hoists = s.chip.hoists := frame .hoists (by decide)
  have told : ∀ h, (s.chip.hoist h).powerView ≠ (q.hoist h).powerView → q.power.handed.get h = true := fun h moved => by
    unfold Chip.hoist at moved
    rw [hoists] at moved
    exact absurd rfl moved
  rw [s.event_of _ _ yes, Chip.finish_of_kept keptAfter told]

/-- An event that gives the port other items than its attention set: the port takes them, and nothing else changes. -/
theorem State.event_setPort (kept : s.chip.Kept) {x : PlantPort} (attention : x.attention = s.chip.port.attention) {arises : Bool}
    (yes : arises = true) : ∃ t, s.event arises { s.chip with port := x } = .next t ∧ t.pending = s.pending ∧
      s.chip.unchangedBut t.chip [.port] ∧ t.chip.port = x :=
  ⟨_, State.event_of_port (kept.port x attention) (s.chip.setPort_unchangedBut x) yes, rfl, s.chip.setPort_unchangedBut x, rfl⟩

end

/-! ### The line (R181, R182) -/

section
variable {q : PlantPort}

theorem PlantPort.gapReached_iff : q.gapReached = true ↔ q.buffer ≠ [] ∧ 6 ≤ q.gap := by simp [PlantPort.gapReached]

theorem PlantPort.gapReached_eq_false (inTime : q.buffer = [] ∨ q.gap < 6) : q.gapReached = false := by
  rw [Bool.eq_false_iff, ne_eq, PlantPort.gapReached_iff]
  rintro ⟨underWay, gap⟩
  exact inTime.elim underWay (Nat.not_lt.mpr gap)

end

section
variable {p : Chip}

theorem Chip.settleGap_of_reached (reached : p.port.gapReached = true) : p.settleGap = p.discardForGap := if_pos reached

theorem Chip.settleGap_of_inTime (inTime : p.port.gapReached = false) : p.settleGap = p := by
  rw [Chip.settleGap, inTime]
  rfl

/-- The port with a byte received that is not the 32nd of its frame (R182). -/
def PlantPort.received (q : PlantPort) (b : Byte) : PlantPort :=
  if q.buffer = [] ∧ b ≠ 0xA5#8 then q else { q with buffer := q.buffer ++ [b], gap := 0 }

theorem PlantPort.received_attention (q : PlantPort) (b : Byte) : (q.received b).attention = q.attention := by
  unfold PlantPort.received
  split <;> rfl

theorem Chip.receiveByte_eq (p : Chip) (b : Byte) : p.receiveByte b = { p with port := p.port.received b } := by
  unfold Chip.receiveByte PlantPort.received
  by_cases ignored : p.port.buffer = [] ∧ b ≠ 0xA5#8
  · rw [if_pos ignored, if_pos (by simpa using ignored)]
  · rw [if_neg ignored, if_neg (by simpa using ignored)]

/-- The port with the frame in progress discarded for its gap (R182). -/
def PlantPort.gapDiscarded (q : PlantPort) : PlantPort :=
  { q with buffer := [], gap := 0, lengthErrors := satInc16 q.lengthErrors }

theorem Chip.discardForGap_eq (p : Chip) : p.discardForGap = { p with port := p.port.gapDiscarded } := rfl

theorem PlantPort.gapDiscarded_received (q : PlantPort) (b : Byte) : q.gapDiscarded.received b =
    { q with buffer := if b = 0xA5#8 then [b] else [], gap := 0, lengthErrors := satInc16 q.lengthErrors } := by
  by_cases begins : b = 0xA5#8 <;> simp [PlantPort.received, PlantPort.gapDiscarded, begins]

/-- The port with a character discarded for want of its stop bit (R181). -/
def PlantPort.characterDiscarded (q : PlantPort) : PlantPort :=
  { q with buffer := [], gap := 0, characterErrors := satInc16 q.characterErrors }

theorem Chip.discardCharacter_eq (p : Chip) : p.discardCharacter = { p with port := p.port.characterDiscarded } := rfl

end

/-- Settles O13: each event is the port's items as it leaves them, a frame whose sixth mark has come being discarded first. -/
theorem plantLinkBytesAreFramed : Obligations.PlantLinkBytesAreFramed := by
  intro s b kept
  have onByte : exec (.plantLinkByte b) s = execPlantLinkByte b s := rfl
  have onError : exec .characterError s = s.event true s.chip.settleGap.discardCharacter := rfl
  refine ⟨fun short inTime => ?byte, fun underWay gap => ?late, fun underWay gap => ?gap, ?character⟩
  case byte =>
    rw [onByte, execPlantLinkByte, Chip.settleGap_of_inTime (PlantPort.gapReached_eq_false inTime), Chip.receiveByte_eq]
    exact State.event_setPort kept (s.chip.port.received_attention b) (by simp [short])
  case late =>
    have reached := PlantPort.gapReached_iff.mpr ⟨underWay, gap⟩
    rw [onByte, execPlantLinkByte, Chip.settleGap_of_reached reached, Chip.discardForGap_eq, Chip.receiveByte_eq,
      ← PlantPort.gapDiscarded_received]
    exact State.event_setPort kept (s.chip.port.gapDiscarded.received_attention b) (by simp [reached])
  case gap =>
    exact State.event_setPort kept (x := s.chip.port.gapDiscarded) rfl (PlantPort.gapReached_iff.mpr ⟨underWay, gap⟩)
  case character =>
    by_cases broken : s.chip.port.buffer ≠ [] ∧ 6 ≤ s.chip.port.gap
    · rw [onError, Chip.settleGap_of_reached (PlantPort.gapReached_iff.mpr broken), Chip.discardCharacter_eq, if_pos broken]
      exact State.event_setPort kept (x := s.chip.port.gapDiscarded.characterDiscarded) rfl rfl
    · have inTime : s.chip.port.gapReached = false := by rwa [Bool.eq_false_iff, ne_eq, PlantPort.gapReached_iff]
      rw [onError, Chip.settleGap_of_inTime inTime, Chip.discardCharacter_eq, if_neg broken]
      exact State.event_setPort kept (x := s.chip.port.characterDiscarded) rfl rfl

/-! ### The port's own checks (R184, R185) -/

section
variable {f : Frame} {o : Originator} {i : Instr}

theorem portRefusal_origin (noOriginator : Originator.ofCode (f.byte 1) = none) : portRefusal f = some .origin := by
  rw [portRefusal, noOriginator]

theorem portRefusal_unknown (named : Originator.ofCode (f.byte 1) = some o) (noCommand : f.command = none) :
    portRefusal f = some .unknown := by
  simp only [portRefusal, named, noCommand]

theorem portRefusal_denied (named : Originator.ofCode (f.byte 1) = some o) (command : f.command = some i)
    (barred : o.permits i = false) : portRefusal f = some .denied := by
  simp [portRefusal, named, command, barred]

theorem portRefusal_none (named : Originator.ofCode (f.byte 1) = some o) (command : f.command = some i)
    (permitted : o.permits i = true) : portRefusal f = none := by
  simp [portRefusal, named, command, permitted]

end

/-! ### A frame taken (R184) -/

section
variable {p : Chip} {f : Frame}

/-- The part with a frame in hand. -/
def Chip.withInHand (p : Chip) (f : Frame) : Chip := { p with port := { p.port with inHand := some f } }

theorem Chip.takeFrame_of_refused {reason : Reason} (refused : portRefusal f = some reason) :
    p.takeFrame f = (p.withInHand f).reply (refuse reason) := by
  simp only [Chip.takeFrame, refused]
  rfl

theorem Chip.takeFrame_of_passed (passed : portRefusal f = none) : p.takeFrame f = p.withInHand f := by
  simp only [Chip.takeFrame, passed]
  rfl

/-- What a frame taken is: the frame in hand, answered where the port itself refuses it. -/
theorem Chip.takeFrame_cases (p : Chip) (f : Frame) : p.takeFrame f = p.withInHand f ∨
    ∃ reason, p.takeFrame f = (p.withInHand f).reply (refuse reason) := by
  cases checks : portRefusal f with
  | none => exact .inl (Chip.takeFrame_of_passed checks)
  | some reason => exact .inr ⟨reason, Chip.takeFrame_of_refused checks⟩

theorem Chip.Kept.takeFrame (kept : p.Kept) (f : Frame) : (p.takeFrame f).Kept := by
  have inHand : (p.withInHand f).Kept := kept.port _ rfl
  obtain passed | ⟨reason, refused⟩ := p.takeFrame_cases f
  · rwa [passed]
  · rw [refused]
    exact inHand.reply _

theorem Chip.takeFrame_unchangedBut (p : Chip) (f : Frame) : p.unchangedBut (p.takeFrame f) [.port] := by
  have inHand : p.unchangedBut (p.withInHand f) [.port] := p.setPort_unchangedBut _
  obtain passed | ⟨reason, refused⟩ := p.takeFrame_cases f
  · rwa [passed]
  · rw [refused]
    exact Chip.unchangedBut_trans inHand (Chip.reply_unchangedBut _ _)

/-- The frame in hand after a frame has been taken, and the items that the taking leaves. -/
theorem Chip.takeFrame_port (p : Chip) (f : Frame) : (p.takeFrame f).port.inHand = some f ∧
    (p.takeFrame f).port.buffer = p.port.buffer ∧ (p.takeFrame f).port.gap = p.port.gap ∧
    (p.takeFrame f).port.nextFrame = p.port.nextFrame ∧ (p.takeFrame f).port.restart = p.port.restart := by
  obtain passed | ⟨reason, refused⟩ := p.takeFrame_cases f
  · rw [passed]
    exact ⟨rfl, rfl, rfl, rfl, rfl⟩
  · rw [refused, Chip.reply_inHand, Chip.reply_buffer, Chip.reply_gap, Chip.reply_nextFrame, Chip.reply_restart]
    exact ⟨rfl, rfl, rfl, rfl, rfl⟩

/-- With no reply being sent, a frame taken is answered where the port refuses it, and not answered where it does not. -/
theorem Chip.takeFrame_sending (f : Frame) (quiet : p.port.sending = none) :
    (p.takeFrame f).port.sending = (portRefusal f).map fun reason => replyOf f (refuse reason) := by
  cases checks : portRefusal f with
  | none => rw [Chip.takeFrame_of_passed checks]; exact quiet
  | some reason =>
    rw [Chip.takeFrame_of_refused checks, Chip.reply_of_some _ _ f rfl]
    rfl

end

/-! ### A complete frame (R182, R183) -/

section
variable {p : Chip} {b : Byte} {f : Frame}

theorem Chip.completeFrame_of_bad (isFrame : f = ⟨p.port.buffer ++ [b]⟩) (fails : f.crcAgrees = false) :
    p.completeFrame b =
      { p with port := { p.port with buffer := [], gap := 0, checkErrors := satInc16 p.port.checkErrors } } := by
  subst isFrame
  rw [Chip.completeFrame, fails]
  rfl

theorem Chip.completeFrame_of_good (isFrame : f = ⟨p.port.buffer ++ [b]⟩) (agrees : f.crcAgrees = true) :
    p.completeFrame b = p.clearBuffer.placeFrame f := by
  subst isFrame
  exact if_pos agrees

theorem Chip.placeFrame_inHand (f : Frame) (empty : p.port.inHand = none) : p.placeFrame f = p.takeFrame f := by
  simp only [Chip.placeFrame, empty]

theorem Chip.placeFrame_pending (f : Frame) (occupied : p.port.inHand ≠ none) (empty : p.port.nextFrame = none) :
    p.placeFrame f = { p with port := { p.port with nextFrame := some f } } := by
  obtain ⟨g, inHand⟩ := Option.ne_none_iff_exists'.mp occupied
  simp only [Chip.placeFrame, inHand, empty]

theorem Chip.placeFrame_overrun (f : Frame) (occupied : p.port.inHand ≠ none) (waiting : p.port.nextFrame ≠ none) :
    p.placeFrame f = { p with port := { p.port with overruns := satInc16 p.port.overruns } } := by
  obtain ⟨g, inHand⟩ := Option.ne_none_iff_exists'.mp occupied
  obtain ⟨g', nextFrame⟩ := Option.ne_none_iff_exists'.mp waiting
  simp only [Chip.placeFrame, inHand, nextFrame]

end

section
variable {s : State} {b : Byte} {f : Frame}

/-- FRAME_COMPLETE comes about at the 32nd byte, where the sixth mark has not come. -/
theorem exec_frameComplete (full : s.chip.port.buffer.length = 31) (inTime : s.chip.port.gap < 6) :
    exec (.frameComplete b) s = s.event true (s.chip.completeFrame b) := by
  show execFrameComplete b s = _
  rw [execFrameComplete, PlantPort.gapReached_eq_false (.inr inTime), full]
  rfl

/-- A frame that finds none in hand is taken, and nothing but the port's items changes. -/
theorem exec_frameComplete_taken (kept : s.chip.Kept) (full : s.chip.port.buffer.length = 31) (inTime : s.chip.port.gap < 6)
    (isFrame : f = ⟨s.chip.port.buffer ++ [b]⟩) (agrees : f.crcAgrees = true) (empty : s.chip.port.inHand = none) :
    exec (.frameComplete b) s = .next { s with chip := s.chip.clearBuffer.takeFrame f } := by
  have keptCleared : s.chip.clearBuffer.Kept := kept.port _ rfl
  have cleared : s.chip.unchangedBut s.chip.clearBuffer [.port] := s.chip.setPort_unchangedBut _
  rw [exec_frameComplete full inTime, Chip.completeFrame_of_good isFrame agrees,
    Chip.placeFrame_inHand (p := s.chip.clearBuffer) f empty]
  exact State.event_of_port (keptCleared.takeFrame f)
    (Chip.unchangedBut_trans cleared (s.chip.clearBuffer.takeFrame_unchangedBut f)) rfl

end

/-- Settles O14: a frame that is not taken in hand leaves the port's items written out; one that is, those of `Chip.takeFrame`. -/
theorem completeFramesArePlaced : Obligations.CompleteFramesArePlaced := by
  intro s b f kept full inTime isFrame
  have placed := exec_frameComplete (b := b) full inTime
  cases agrees : f.crcAgrees with
  | false =>
    obtain ⟨t, next, pending, frame, port⟩ := State.event_setPort (arises := true) kept
      (x := { s.chip.port with buffer := [], gap := 0, checkErrors := satInc16 s.chip.port.checkErrors }) rfl rfl
    rw [placed, Chip.completeFrame_of_bad isFrame agrees]
    exact ⟨t, next, pending, frame, by simp [port]⟩
  | true =>
    rw [Chip.completeFrame_of_good isFrame agrees] at placed
    by_cases empty : s.chip.port.inHand = none
    · obtain ⟨inHand, buffer, gap, -, -⟩ := s.chip.clearBuffer.takeFrame_port f
      have frame : s.chip.unchangedBut (s.chip.clearBuffer.takeFrame f) [.port] :=
        Chip.unchangedBut_trans (s.chip.setPort_unchangedBut _) (s.chip.clearBuffer.takeFrame_unchangedBut f)
      exact ⟨_, exec_frameComplete_taken kept full inTime isFrame agrees empty, rfl, frame, buffer, gap, by simp, fun _ _ => inHand,
        fun _ occupied => absurd empty occupied, fun _ occupied => absurd empty occupied⟩
    by_cases free : s.chip.port.nextFrame = none
    · obtain ⟨t, next, pending, frame, port⟩ := State.event_setPort (arises := true) kept
        (x := { s.chip.port with buffer := [], gap := 0, nextFrame := some f }) rfl rfl
      rw [placed, Chip.placeFrame_pending (p := s.chip.clearBuffer) f empty free]
      exact ⟨t, next, pending, frame, by simp [port, empty, free]⟩
    · obtain ⟨t, next, pending, frame, port⟩ := State.event_setPort (arises := true) kept
        (x := { s.chip.port with buffer := [], gap := 0, overruns := satInc16 s.chip.port.overruns }) rfl rfl
      rw [placed, Chip.placeFrame_overrun (p := s.chip.clearBuffer) f empty free]
      exact ⟨t, next, pending, frame, by simp [port, empty, free]⟩

/-- The frame in hand, with no reply to it being sent and no RESTART under way, hands its command to the owner. -/
theorem Chip.handedCommand_of {p : Chip} {f : Frame} (inHand : p.port.inHand = some f) (quiet : p.port.sending = none)
    (noRestart : p.port.restart = none) : p.handedCommand = f.command := by
  simp only [Chip.handedCommand, inHand, quiet, noRestart]

/-- Settles O15: a good frame that finds none in hand is taken, and what `portRefusal` says of it is the reply that begins. -/
theorem portChecksAreMadeInOrder : Obligations.PortChecksAreMadeInOrder := by
  intro s b f kept full inTime isFrame agrees empty quiet noRestart
  have sending := s.chip.clearBuffer.takeFrame_sending f quiet
  refine ⟨_, exec_frameComplete_taken kept full inTime isFrame agrees empty, fun noOriginator => ?origin,
    fun o named noCommand => ?unknown, fun o i named command barred => ?denied, fun o i named command permitted => ?passed⟩
  case origin => rw [sending, portRefusal_origin noOriginator]; rfl
  case unknown => rw [sending, portRefusal_unknown named noCommand]; rfl
  case denied => rw [sending, portRefusal_denied named command barred]; rfl
  case passed =>
    rw [portRefusal_none named command permitted] at sending
    obtain ⟨inHand, -, -, -, restart⟩ := s.chip.clearBuffer.takeFrame_port f
    exact ⟨sending, (Chip.handedCommand_of inHand sending (restart.trans noRestart)).trans command⟩

/-! ### The end of a reply (R184) -/

/-- The part with no frame in hand, none pending, and no reply being sent. -/
def Chip.withoutFrames (p : Chip) : Chip :=
  { p with port := { p.port with sending := none, inHand := none, nextFrame := none } }

section
variable {p : Chip}

theorem Chip.endReply_of_none (empty : p.port.nextFrame = none) : p.endReply = p.withoutFrames := by
  simp only [Chip.endReply, empty]
  rfl

theorem Chip.endReply_of_some {f : Frame} (waiting : p.port.nextFrame = some f) : p.endReply = p.withoutFrames.takeFrame f := by
  simp only [Chip.endReply, waiting]
  rfl

end

/-- Settles O16: without a pending frame the port's items are written out, and a pending frame is taken with none left behind it. -/
theorem replyEndTakesThePendingFrame : Obligations.ReplyEndTakesThePendingFrame := by
  intro s r kept sending
  have ends : s.chip.port.sending.isSome = true := by rw [sending]; rfl
  have onEnd : exec .replyEnd s = s.event s.chip.port.sending.isSome s.chip.endReply := rfl
  have keptEnded : s.chip.withoutFrames.Kept := kept.port _ rfl
  have ended : s.chip.unchangedBut s.chip.withoutFrames [.port] := s.chip.setPort_unchangedBut _
  cases waiting : s.chip.port.nextFrame with
  | none =>
    rw [onEnd, Chip.endReply_of_none waiting, State.event_of_port keptEnded ended ends]
    refine ⟨_, rfl, rfl, ended, rfl, fun _ => ?_, by simp⟩
    rw [← waiting]
    simp [Chip.withoutFrames, waiting]
  | some f =>
    obtain ⟨inHand, -, -, nextFrame, -⟩ := s.chip.withoutFrames.takeFrame_port f
    have answered := s.chip.withoutFrames.takeFrame_sending f rfl
    have frame := Chip.unchangedBut_trans ended (s.chip.withoutFrames.takeFrame_unchangedBut f)
    rw [onEnd, Chip.endReply_of_some waiting, State.event_of_port (keptEnded.takeFrame f) frame ends]
    refine ⟨_, rfl, rfl, frame, nextFrame, by simp, fun g isNext => ?_⟩
    obtain rfl := Option.some.inj isNext
    exact ⟨inHand, answered⟩

end Sys2Proof.Machine
end

section
/-! SUPPORT. Results laid out row by row (spec/11 R193, R195, section 11.5): the items of a result in their order, the bytes that carry them, and that
each is read where the widths before it put it; with them GET_HOIST and GET_PARAM (spec/10 R186, R188; spec/11 R196). -/

namespace Sys2Proof.Machine

/-! ### Rows of items -/

/-- An item of a result: a code or flag of one byte; one that may be absent; a number of some bytes; one that may be absent; a signed number. -/
inductive ResultItem where
  | byte (v : Nat)
  | shownByte (field : Option Nat)
  | number (n v : Nat)
  | shownNumber (n : Nat) (field : Option Nat)
  | signed (n : Nat) (x : Int)

/-- The bytes an item takes. -/
def ResultItem.width (x : ResultItem) : Nat :=
  match x with
  | .byte _ | .shownByte _ => 1
  | .number n _ | .shownNumber n _ | .signed n _ => n

/-- The bytes that carry an item; an absent one is carried as 0. -/
def ResultItem.bytes (p : Chip) (x : ResultItem) : List Byte :=
  match x with
  | .byte v => byteField v
  | .shownByte field => byteField (field.getD 0)
  | .number n v => p.field n v
  | .shownNumber n field => p.field n (field.getD 0)
  | .signed n v => p.signedField n v

/-- The item is read from byte `i` of a reply. -/
def ResultItem.readAt (r : Frame) (i : Nat) (x : ResultItem) : Prop :=
  match x with
  | .byte v => standsAt r i 1 v
  | .shownByte field => shownAt r i 1 field
  | .number n v => standsAt r i n v
  | .shownNumber n field => shownAt r i n field
  | .signed n v => signedAt r i n v

/-- The bytes of a row of items. -/
def rowBytes (p : Chip) (row : List ResultItem) : List Byte := row.flatMap (ResultItem.bytes p)

/-- The items of a row are read one after the other from byte `i` of a reply, and its bytes after them are 0. -/
def rowReadAt (r : Frame) (i : Nat) (row : List ResultItem) : Prop :=
  match row with
  | [] => ∀ k ∈ List.range' i (30 - i), r.byte k = 0
  | x :: rest => x.readAt r i ∧ rowReadAt r (i + x.width) rest

section
variable (p : Chip) (l r : List Byte) {i : Nat} (place : l.length = i)
include place

theorem standsAt_byteField (v : Nat) : standsAt ⟨l ++ (byteField v ++ r)⟩ i 1 v := by
  refine standsAt_byte ?_
  rw [List.getD_append_right _ _ _ _ place.le, place, Nat.sub_self]
  rfl

theorem Chip.standsAt_field (n v : Nat) : standsAt ⟨l ++ (p.field n v ++ r)⟩ i n v := by
  intro fits
  rw [number_skip place.le, place, Nat.sub_self, p.number_field fits]

/-- An item is read where its bytes were put; a signed one has some bytes. -/
theorem ResultItem.readAt_bytes (x : ResultItem) (wide : 0 < x.width) : x.readAt ⟨l ++ (x.bytes p ++ r)⟩ i := by
  cases x with
  | byte v => exact standsAt_byteField l r place v
  | shownByte field =>
    rintro v rfl
    exact standsAt_byteField l r place v
  | number n v => exact p.standsAt_field l r place n v
  | shownNumber n field =>
    rintro v rfl
    exact p.standsAt_field l r place n v
  | signed n x => exact p.signedAt_signedField x wide l r place

end

theorem ResultItem.bytes_length (p : Chip) (x : ResultItem) : (x.bytes p).length = x.width := by
  cases x with
  | byte | shownByte => exact byteField_length
  | number | shownNumber => exact p.field_length _ _
  | signed => exact p.signedField_length _ _

theorem rowReadAt_rowBytes (p : Chip) (row : List ResultItem) (wide : ∀ x ∈ row, 0 < x.width) (l : List Byte) (zeros : Nat)
    {i : Nat} (place : l.length = i) :
    rowReadAt ⟨l ++ (rowBytes p row ++ List.replicate zeros 0)⟩ i row := by
  induction row generalizing l i with
  | nil =>
    intro k within
    rw [byte_skip (by rw [place]; exact (List.mem_range'_1.mp within).1)]
    exact byte_zeros _ _
  | cons x rest ih =>
    have bytes : l ++ (rowBytes p (x :: rest) ++ List.replicate zeros 0) =
        l ++ (x.bytes p ++ (rowBytes p rest ++ List.replicate zeros 0)) := by
      rw [rowBytes, List.flatMap_cons, List.append_assoc]
      rfl
    rw [bytes]
    refine ⟨x.readAt_bytes p l _ place (wide x List.mem_cons_self), ?_⟩
    rw [← List.append_assoc]
    exact ih (fun y mem => wide y (List.mem_cons_of_mem _ mem)) _ (by rw [List.length_append, place, x.bytes_length])

theorem rowBytes_length (p : Chip) (row : List ResultItem) : (rowBytes p row).length = (row.map ResultItem.width).sum := by
  rw [rowBytes, List.length_flatMap]
  simp only [ResultItem.bytes_length]

/-- Every item of the row has some bytes, and together they fit the 24 of a result. -/
def rowFits (row : List ResultItem) : Bool := (row.all fun x => decide (0 < x.width)) && decide ((row.map ResultItem.width).sum ≤ 24)

/-- A row that fits a result is read from byte 6 of the reply. -/
theorem rowReadAt_result (p : Chip) {row : List ResultItem} (fits : rowFits row = true) {l : List Byte} (bytes : l = rowBytes p row) :
    rowReadAt (replyAt (resultBytes l)) 6 row := by
  obtain ⟨wide, room⟩ := Bool.and_eq_true_iff.mp fits
  rw [bytes, resultBytes_eq _ (by rw [rowBytes_length]; exact of_decide_eq_true room)]
  exact rowReadAt_rowBytes p row (fun x mem => of_decide_eq_true (List.all_eq_true.mp wide x mem)) (List.replicate 6 0) _ rfl

/-! ### The pages of GET_HOIST (R195, R196) -/

theorem maskOf_four (a b c d : Bool) : maskOf [a, b, c, d] = flagCode a + 2 * flagCode b + 4 * flagCode c + 8 * flagCode d := by
  simp only [maskOf]
  omega

theorem secondsLeft_eq (t : Option Timer) : secondsLeft t = (t.map fun x => x.limit - x.counted).getD 0 := by cases t <;> rfl

section
variable (p : Chip) (h : HoistId)

/-- Page 0. -/
def Chip.hoistRow (p : Chip) (h : HoistId) : List ResultItem :=
  let c := p.hoist h
  [.byte c.phase.code, .byte c.holdMode.code, .byte (flagCode c.able), .byte c.withdrawal.code, .signed 2 c.speedRef,
    .byte c.brake.code, .byte c.latchCommand.code, .shownByte (c.latchLevel.map Latch.code), .byte (interlockCode p.interlock),
    .byte (flagCode c.latchLevel.isSome + 2 * flagCode c.phaseReply.isSome + 4 * flagCode c.phaseTimer.isSome +
      8 * flagCode c.dwellTimer.isSome),
    .shownNumber 3 c.phaseReply, .shownNumber 1 (c.phaseTimer.map fun x => x.limit - x.counted),
    .shownNumber 2 (c.dwellTimer.map fun x => x.limit - x.counted), .byte (flagCode c.noBay), .number 2 c.lateApproach]

theorem Chip.hoistPage_eq : p.hoistPage h = rowBytes p (p.hoistRow h) := by
  simp [Chip.hoistPage, Chip.hoistRow, rowBytes, ResultItem.bytes, maskOf_four, secondsLeft_eq]

theorem Chip.hoistLaidOut_hoistPage : p.hoistLaidOut h (replyAt (resultBytes (p.hoistPage h))) :=
  rowReadAt_result p (row := p.hoistRow h) (by simp [Chip.hoistRow, rowFits, ResultItem.width]) (p.hoistPage_eq h)

/-- Pages 1 and 2: a trip. -/
def Trip.row (t : Trip) : List ResultItem :=
  [.byte (1 + 2 * flagCode t.orderTag.isSome + 4 * flagCode t.measured.isSome + 8 * flagCode t.resumePhase.isSome +
      16 * flagCode t.haltCause.isSome),
    .byte t.kind.code, .byte (massNumber t.mass), .byte t.source.val, .byte t.destination.val, .byte t.leg.code,
    .byte t.direction.code, .shownByte (t.orderTag.map BitVec.toNat), .shownNumber 3 t.measured, .number 1 t.retargets,
    .shownByte (t.resumePhase.map Phase.code), .shownByte (t.haltCause.map HaltCause.code)]

theorem byteField_tag (tag : Option Byte) : [tag.getD 0] = byteField ((tag.map BitVec.toNat).getD 0) := by
  cases tag <;> simp [byteField]

theorem Chip.tripResult_eq (t : Trip) : p.tripResult (some t) = rowBytes p t.row := by
  simp [Chip.tripResult, Trip.row, rowBytes, ResultItem.bytes, maskOf_five, flagCode, ← byteField_tag]

theorem Chip.tripLaidOut_tripResult (t : Option Trip) : tripLaidOut t (replyAt (resultBytes (p.tripResult t))) := by
  refine ⟨?none, ?some⟩
  case none =>
    rintro rfl
    exact rowReadAt_result p (row := []) rfl rfl
  case some =>
    rintro t rfl
    exact rowReadAt_result p (row := t.row) (by simp [Trip.row, rowFits, ResultItem.width]) (p.tripResult_eq t)

/-- Page 3. -/
def Chip.positionRow (p : Chip) (h : HoistId) : List ResultItem :=
  let u := p.unit h
  [.signed 4 u.count, .signed 4 u.offset, .signed 4 u.drift, .number 3 u.elevation, .signed 4 u.speed,
    .byte (flagCode u.referenced), .number 1 u.missRun]

theorem Chip.positionPage_eq : p.positionPage h = rowBytes p (p.positionRow h) := by
  simp [Chip.positionPage, Chip.positionRow, rowBytes, ResultItem.bytes]

theorem Chip.positionLaidOut_positionPage : p.positionLaidOut h (replyAt (resultBytes (p.positionPage h))) :=
  rowReadAt_result p (row := p.positionRow h) (by simp [Chip.positionRow, rowFits, ResultItem.width]) (p.positionPage_eq h)

/-- Page 4. -/
def Chip.ropeRow (p : Chip) (h : HoistId) : List ResultItem :=
  let u := p.unit h
  let l := ropeLength (p.hp h) u.count
  [.signed 5 l, .signed 5 (stretch (p.hp h) (p.loadM h) l), .number 4 (p.loadM h), .number 2 u.encoderErrors,
    .number 2 u.rangeCount, .number 2 u.slipWarnings, .number 2 u.missedMarkers]

theorem Chip.ropePage_eq : p.ropePage h = rowBytes p (p.ropeRow h) := by
  simp [Chip.ropePage, Chip.ropeRow, rowBytes, ResultItem.bytes]

theorem Chip.ropeLaidOut_ropePage : p.ropeLaidOut h (replyAt (resultBytes (p.ropePage h))) :=
  rowReadAt_result p (row := p.ropeRow h) (by simp [Chip.ropeRow, rowFits, ResultItem.width]) (p.ropePage_eq h)

/-- Page 5. -/
def Chip.linkRow (p : Chip) (h : HoistId) : List ResultItem :=
  let l := p.link h
  [.byte (flagCode l.enabled), .byte l.state.code, .number 1 l.proving, .number 1 l.missed, .byte (flagCode l.segmentReply),
    .byte (flagCode l.last.isSome), .shownByte (l.last.map fun x => flagCode x.ready),
    .shownNumber 1 (l.last.map DriveReply.code), .shownNumber 3 (l.last.map DriveReply.load), .number 2 l.replyErrors,
    .number 2 l.linkLosses, .number 2 (p.hoist h).checkSpeed, .number 1 (p.hoist h).overspeedRun]

theorem flagCode_ready (last : Option DriveReply) :
    flagCode ((last.map DriveReply.ready).getD false) = (last.map fun x => flagCode x.ready).getD 0 := by
  cases last <;> rfl

theorem Chip.linkPage_eq : p.linkPage h = rowBytes p (p.linkRow h) := by
  simp only [Chip.linkPage, flagCode_ready]
  simp [Chip.linkRow, rowBytes, ResultItem.bytes]

theorem Chip.linkLaidOut_linkPage : p.linkLaidOut h (replyAt (resultBytes (p.linkPage h))) :=
  rowReadAt_result p (row := p.linkRow h) (by simp [Chip.linkRow, rowFits, ResultItem.width]) (p.linkPage_eq h)

/-- Page 6. -/
def Chip.faultRow (p : Chip) (h : HoistId) : List ResultItem :=
  let c := p.hoist h
  let f := c.fault
  [.byte (flagCode f.first.isSome + 2 * flagCode f.detail.isSome + 4 * flagCode f.phaseAt.isSome + 8 * flagCode f.further.isSome),
    .shownByte (f.first.map FaultCause.code), .shownNumber 1 f.detail, .shownByte (f.phaseAt.map Phase.code),
    .shownNumber 2 (f.further.map BitVec.toNat), .number 1 f.count, .number 2 (p.power.share.get h),
    .byte (flagCode (p.power.eligible.get h)), .number 2 c.shareRead, .number 2 c.served, .number 2 c.vLim,
    .number 2 (p.hp h).gearLimit, .number 2 (p.hp h).aStep, .signed 2 c.speedRef]

theorem further_toNat (further : Option (BitVec 9)) : (further.getD 0).toNat = (further.map BitVec.toNat).getD 0 := by
  cases further <;> rfl

theorem Chip.faultPage_eq : p.faultPage h = rowBytes p (p.faultRow h) := by
  simp only [Chip.faultPage, further_toNat, maskOf_four]
  simp [Chip.faultRow, rowBytes, ResultItem.bytes]

theorem Chip.faultLaidOut_faultPage : p.faultLaidOut h (replyAt (resultBytes (p.faultPage h))) :=
  rowReadAt_result p (row := p.faultRow h) (by simp [Chip.faultRow, rowFits, ResultItem.width]) (p.faultPage_eq h)

end

/-! ### GET_PARAM (R188, section 11.5) -/

section
variable (p : Chip) (identifier hoist value : Nat) (range : Nat × Nat)

/-- A GET_PARAM result. -/
def paramRow (identifier hoist value : Nat) (range : Nat × Nat) : List ResultItem :=
  [.byte identifier, .byte hoist, .signed 4 value, .signed 4 range.1, .number 2 (min range.2 65535)]

theorem Chip.paramResult_eq : p.paramResult identifier hoist value range = rowBytes p (paramRow identifier hoist value range) := by
  simp [Chip.paramResult, paramRow, rowBytes, ResultItem.bytes]

theorem Chip.paramLaidOut_paramResult : paramLaidOut identifier hoist value range
    (replyAt (resultBytes (p.paramResult identifier hoist value range))) := by
  obtain ⟨isIdentifier, isHoist, isValue, lower, upper, rest⟩ :=
    rowReadAt_result p (by simp [paramRow, rowFits, ResultItem.width]) (p.paramResult_eq identifier hoist value range)
  have upper : (replyAt (resultBytes (p.paramResult identifier hoist value range))).number 16 2 = min range.2 65535 :=
    upper (by omega)
  exact ⟨isIdentifier, isHoist, isValue, lower, fun fits => by omega, fun beyond => by omega, rest⟩

end

section
variable {p : Chip} {identifier hoist : Nat}

theorem getParam_plant {x : PlantParam} (known : plantParamOf identifier = some x) : getParam identifier hoist p =
    answerDone (p.paramResult identifier 0 (p.params.get x) (p.plantRange x)) := by
  simp only [getParam, known]

theorem getParam_hoist {x : HoistParam} {k : HoistId} (known : hoistParamOf identifier = some x) :
    getParam identifier k.val p =
      answerDone (p.paramResult identifier k.val ((p.hp k).get x) ((p.hp k).reportedRange x)) := by
  simp only [getParam, (hoistParamOf_fits known).2, known, hoistOf_val]

theorem getParam_noHoist {x : HoistParam} (known : hoistParamOf identifier = some x) (beyond : 3 < hoist) :
    getParam identifier hoist p = refuse .range := by
  have noHoist : hoistOf hoist = none := dif_neg (by omega)
  simp only [getParam, (hoistParamOf_fits known).2, known, noHoist]

theorem getParam_unknown (noPlant : plantParamOf identifier = none) (noHoist : hoistParamOf identifier = none) :
    getParam identifier hoist p = refuse .range := by
  simp only [getParam, noPlant, noHoist]

theorem getHoist_beyond (h : HoistId) {page : Nat} (beyond : 6 < page) : getHoist h.val page p = refuse .range := by
  match page with
  | n + 7 => simp only [getHoist, hoistOf_val]

end

/-- Settles O20: both queries answer from the records as they stand, and each result is the row of its items. -/
theorem hoistAndParameterQueriesAnswer : Obligations.HoistAndParameterQueriesAnswer := by
  intro s h page identifier hoist
  refine ⟨fun hands => ?hoist, fun hands => ?param, s.chip.hoistLaidOut_hoistPage h, s.chip.tripLaidOut_tripResult,
    s.chip.positionLaidOut_positionPage h, s.chip.ropeLaidOut_ropePage h, s.chip.linkLaidOut_linkPage h,
    s.chip.faultLaidOut_faultPage h, s.chip.paramLaidOut_paramResult identifier hoist⟩
  case hoist =>
    obtain ⟨t, next, pending, frame, replied⟩ := hands.query (getHoist h.val page s.chip)
    refine ⟨t, _, next, pending, frame, replied, ?_, ?_, ?_, ?_, ?_, ?_, ?_, getHoist_beyond h⟩ <;>
    · rintro rfl
      simp only [getHoist, hoistOf_val]
  case param =>
    obtain ⟨t, next, pending, frame, replied⟩ := hands.query (getParam identifier hoist s.chip)
    refine ⟨t, _, next, pending, frame, replied, fun x known => getParam_plant known, ?_, fun x known => getParam_noHoist known,
      getParam_unknown⟩
    rintro x k known rfl
    exact getParam_hoist known

end Sys2Proof.Machine
end

section
/-! SUPPORT. Refused commands (spec/10 R184): what an owner answers is a refusal with result bytes of 0, or a command carried out; and a command that
is refused changes nothing but the port's own items. -/

namespace Sys2Proof.Machine

/-- What an owner answers: a refusal for a reason, or a command carried out, with the value it was given or with another. -/
inductive Answer.Formed : Answer → Prop
  | refused (reason : Reason) : Answer.Formed (refuse reason)
  | done (fields : List Byte) : Answer.Formed (answerDone fields)
  | taken (adjusted : Bool) (fields : List Byte) : Answer.Formed (answerTaken adjusted fields)

theorem Answer.Formed.eq_refuse {a : Answer} (formed : a.Formed) (refused : a.status.isRefusal = true) :
    ∃ reason, a = refuse reason := by
  cases formed with
  | refused reason => exact ⟨reason, rfl⟩
  | done fields => exact absurd refused Bool.false_ne_true
  | taken adjusted fields =>
    rw [answerTaken_isRefusal] at refused
    exact absurd refused Bool.false_ne_true

/-! ### What the commands do leaves the port -/

section
variable (p : Chip) (h : HoistId) (b : BayId) (m : MassId)

@[simp] theorem Chip.massAbsent_port : (p.massAbsent m).port = p.port := p.massAbsent_unchangedBut m .port (by decide)

@[simp] theorem Chip.massRetiring_port : (p.massRetiring m).port = p.port :=
  p.updMass_notifyOrders_unchangedBut m _ .port (by decide)

@[simp] theorem Chip.survey_port (elevation : Nat) (access : BitVec 4) (service : Bool) :
    (p.survey b elevation access service).port = p.port := by
  obtain ⟨q, isPruned, frame, _⟩ := p.survey_eq b elevation access service
  rw [isPruned]
  exact (q.pruned_unchangedBut .port (by decide)).trans (frame .port (by decide))

@[simp] theorem Chip.liftBarring_port : (p.liftBarring b).port = p.port := by
  unfold Chip.liftBarring
  split <;> rfl

@[simp] theorem Chip.removeOrder_port : (p.removeOrder m).port = p.port := rfl

@[simp] theorem Chip.cancelStaged_port : (p.cancelStaged h).port = p.port := Chip.TripFrame.cancelStaged.port

@[simp] theorem Chip.abandon_port (fate : OrderFate) : (p.abandon h fate).port = p.port := (Chip.TripFrame.abandon fate).port

@[simp] theorem Chip.setSetpoint_port (x : Int) : (p.setSetpoint x).port = p.port :=
  p.setSetpoint_unchangedBut x .port (by decide)

@[simp] theorem Chip.resumeHoist_port : (p.resumeHoist h).port = p.port := Chip.TripFrame.resumeHoist.port

@[simp] theorem Chip.abandonTrip_port (t : Trip) : (p.abandonTrip h t).port = p.port := (Chip.TripFrame.abandonTrip t).port

@[simp] theorem Chip.takeDestination_port (t : Trip) (z : Nat) (kind : TripKind) :
    (p.takeDestination h t z b kind).port = p.port := (Chip.TripFrame.takeDestination t z b kind).port

@[simp] theorem Chip.referenceAt_port (e : Nat) : (p.referenceAt h e).port = p.port :=
  Chip.referenceAt_unchangedBut e .port (by decide)

@[simp] theorem Chip.clearFault_port : (p.clearFault h).port = p.port := Chip.TripFrame.clearFault.port

@[simp] theorem Chip.setPlant_port (x : PlantParam) (v : Nat) : (p.setPlant x v).port = p.port :=
  Chip.setPlant_unchangedBut .port (by decide)

@[simp] theorem Chip.setHoistParam_port (x : HoistParam) (v : Nat) : (p.setHoistParam h x v).port = p.port :=
  Chip.setHoistParam_unchangedBut .port (by decide)

end

/-! ### A command that is refused -/

/-- A command that a frame carries is no event. -/
theorem payload_isSome_of_command {f : Frame} {i : Instr} (command : f.command = some i) : i.payload.isSome = true := by
  unfold Frame.command at command
  split at command
  all_goals cases command
  all_goals rfl

section
variable {s t : State} {i : Instr} {r : Reply}

/-- The reply that answers the frame in hand has the answer's status. -/
theorem State.Hands.status_of_reply (hands : s.Hands i) {a : Answer} (sending : (s.chip.reply a).port.sending = some r) :
    r.status = a.status := by
  obtain ⟨f, inHand⟩ := hands.frame
  rw [Chip.reply_of_some _ a f inHand] at sending
  cases sending
  rfl

variable (hands : s.Hands i) (sending : t.chip.port.sending = some r) (refused : r.status.isRefusal = true)
include hands sending refused

theorem State.Hands.query_refused {a : Answer} (next : s.query i a = .next t) (formed : a.Formed) :
    ∃ reason, t = { s with chip := s.chip.reply (refuse reason) } := by
  rw [s.query_of i a hands.handed] at next
  obtain rfl := Host.Outcome.next.inj next
  obtain ⟨reason, rfl⟩ := formed.eq_refuse (hands.status_of_reply sending ▸ refused)
  exact ⟨reason, rfl⟩

theorem State.Hands.command_isRefused {taken : Chip × Answer} (next : s.command i taken = .next t)
    (port : taken.1.port = s.chip.port) (formed : taken.2.Formed) :
    ∃ reason, t = { s with chip := s.chip.reply (refuse reason) } := by
  obtain ⟨t', next', f, inHand, replied⟩ := hands.command_answered port
  obtain rfl := Host.Outcome.next.inj (next.symm.trans next')
  obtain rfl : replyOf f taken.2 = r := Option.some.inj (by rw [← sending, replied])
  obtain ⟨reason, isRefuse⟩ := formed.eq_refuse refused
  rw [s.command_of_refused i taken hands.handed refused, isRefuse] at next
  exact ⟨reason, (Host.Outcome.next.inj next).symm⟩

/-- A command that is refused is answered with the refusal, and nothing else is done. -/
theorem State.Hands.exec_refused (next : exec i s = .next t) : ∃ reason, t = { s with chip := s.chip.reply (refuse reason) } := by
  obtain ⟨f, inHand, command, quiet, _⟩ := Chip.handedCommand_eq_some _ _ hands.handed
  have isCommand := payload_isSome_of_command command
  cases i with
  | getMass | nextMass | getBay | nextBay | getHoist | getOrder | getEnergy | getParam | snapshot =>
    refine hands.query_refused sending refused next ?_
    simp only [getMass, nextMass, getBay, nextBay, getHoist, getOrder, getEnergy, getParam, takeSnapshot]
    repeat' split
    all_goals constructor
  | getPlant page =>
    change execGetPlant page s = .next t at next
    by_cases inside : page ≤ 2
    · rw [execGetPlant, getPlant_eq s.chip inside, if_neg (by simp [Status.isRefusal]), if_pos hands.handed] at next
      obtain rfl := Host.Outcome.next.inj next
      rw [hands.status_of_reply sending] at refused
      exact absurd refused Bool.false_ne_true
    · rw [execGetPlant, getPlant_outOfRange s.chip (by omega), if_pos (refuse_isRefusal _)] at next
      exact hands.query_refused sending refused next (.refused _)
  | admitMass | amendMass | foundMass | barBay | orderMove | holdHoist | enableHoist =>
    refine hands.command_isRefused sending refused next ?port ?formed <;>
      simp only [admitMass, amendMass, foundMass, barBay, orderMove, holdHoist, enableHoist]
    case port =>
      repeat' split
      all_goals rfl
    case formed =>
      repeat' split
      all_goals constructor
  | retireMass | surveyBay | unbarBay | cancelOrder | setPower | resume | abandonTrip | retarget | referenceHoist | clearFault
  | setParam =>
    refine hands.command_isRefused sending refused next ?port ?formed <;>
      simp only [retireMass, surveyBay, unbarBay, cancelOrder, setPower, Machine.resume, abandonTrip, retarget, referenceHoist,
        clearFault, setParam]
    case port =>
      repeat' split
      all_goals simp [Chip.resumeAll_port]
    case formed =>
      repeat' split
      all_goals constructor
  | restart =>
    change execRestart s = .next t at next
    rw [execRestart, if_pos hands.handed] at next
    obtain rfl := Host.Outcome.next.inj next
    exact absurd (quiet.symm.trans sending) (by simp)
  | powerOnReset | millisecondMark | segmentEvent | linkTimeout | hoistLinkReply | replyPartialTimeout | filterSampleInstant
  | interlockClosedAcceptance | interlockHalt | interlockClosedTaken | markerPulse | encoderEdge | phaseTimerExpiry
  | dwellLimitExpiry | servingStart | tryHoist | eligibilityReevaluation | endTripsOfAnotherKind | frameComplete
  | frameGapTimeout | characterError | replyEnd | restartOrderQueue | restartPowerAllocator | restartHoist | plantLinkByte
  | hoistLinkReplyByte => exact absurd isCommand Bool.false_ne_true

end

/-- Settles O23: a command that is refused is answered with the refusal, and all that a reply changes is the port's. -/
theorem refusedCommandsChangeOnlyThePort : Obligations.RefusedCommandsChangeOnlyThePort := by
  intro i s t r hands next sending refused
  obtain ⟨reason, rfl⟩ := hands.exec_refused sending refused next
  obtain ⟨f, inHand⟩ := hands.frame
  have reply := Chip.reply_of_some s.chip (refuse reason) f inHand
  obtain rfl : replyOf f (refuse reason) = r := Option.some.inj (by rw [← sending, reply])
  refine ⟨rfl, s.chip.reply_unchangedBut _, rfl, ?_⟩
  rw [reply]
  rfl

end Sys2Proof.Machine
end

section
/-! SUPPORT. When the event of each command comes about, and what every meaning does: it answers a next state with the queue as it
stands, and changes nothing where its event has not come about (logs 1 and 34). -/

namespace Sys2Proof.Machine

/-! ### A step and the queue -/

section
variable {s : State}

theorem step_of_empty (empty : s.pending = []) : step s = .next s := by
  unfold step
  rw [empty]

theorem step_of_front {i : Instr} {rest : List Instr} (front : s.pending = i :: rest) :
    step s = exec i (s.withPending rest) := by
  unfold step
  rw [front]

end

/-! ### The ends of a meaning -/

/-- The outcome is a next state with the queue of `s`, and `s` itself unless the condition holds. -/
structure State.ActsOnlyIf (s : State) (condition : Prop) (outcome : Host.Outcome State Fault Refusal) : Prop where
  next : ∃ p, outcome = s.act p
  idle : ¬condition → outcome = .next s

section
variable {s : State} {condition : Prop} {p : Chip}

theorem State.act_actsOnlyIf (holds : condition) : s.ActsOnlyIf condition (s.act p) := ⟨⟨p, rfl⟩, fun no => absurd holds no⟩

theorem State.idle_actsOnlyIf : s.ActsOnlyIf condition (.next s) := ⟨⟨s.chip, rfl⟩, fun _ => rfl⟩

theorem State.event_actsOnlyIf {arises : Bool} (sound : arises = true → condition) :
    s.ActsOnlyIf condition (s.event arises p) := by
  unfold State.event
  split
  · exact act_actsOnlyIf (sound ‹_›)
  · exact idle_actsOnlyIf

theorem State.query_actsOnlyIf {i : Instr} {a : Answer} :
    s.ActsOnlyIf (s.chip.handedCommand = some i) (s.query i a) := by
  unfold State.query
  split
  · exact act_actsOnlyIf ‹_›
  · exact idle_actsOnlyIf

theorem State.command_actsOnlyIf {i : Instr} {taken : Chip × Answer} :
    s.ActsOnlyIf (s.chip.handedCommand = some i) (s.command i taken) := by
  unfold State.command
  split
  · split <;> exact act_actsOnlyIf ‹_›
  · exact idle_actsOnlyIf

/-- A RESTART is under way that the owner has still to take (R189). -/
def Chip.restartAwaits (p : Chip) (due : RestartWork → Bool) : Prop := ∃ w, p.port.restart = some w ∧ due w = true

theorem Chip.not_restartAwaits_of_none {due : RestartWork → Bool} (noRestart : p.port.restart = none) :
    ¬p.restartAwaits due := by
  rintro ⟨w, underWay, _⟩
  cases noRestart.symm.trans underWay

theorem State.restartPart_actsOnlyIf {due : RestartWork → Bool} :
    s.ActsOnlyIf (s.chip.restartAwaits due) (s.restartPart due p) := by
  unfold State.restartPart
  split
  · exact idle_actsOnlyIf
  · rename_i w underWay
    split
    · exact act_actsOnlyIf ⟨w, underWay, ‹_›⟩
    · exact idle_actsOnlyIf

theorem execGetPlant_actsOnlyIf (page : Nat) :
    s.ActsOnlyIf (s.chip.handedCommand = some (.getPlant page)) (execGetPlant page s) := by
  unfold execGetPlant
  split
  · exact State.query_actsOnlyIf
  · split
    · exact State.act_actsOnlyIf ‹_›
    · exact State.idle_actsOnlyIf

theorem execRestart_actsOnlyIf : s.ActsOnlyIf (s.chip.handedCommand = some .restart) (execRestart s) := by
  unfold execRestart
  split
  · exact State.act_actsOnlyIf ‹_›
  · exact State.idle_actsOnlyIf

end

/-! ### When the event of a command comes about -/

/-- The event that the command stands for has come about; a plant command has where the port has handed it over (logs 1 and 34). -/
def Chip.comesAbout (p : Chip) (i : Instr) : Prop :=
  match i with
  | .powerOnReset _ _ | .markerPulse _ | .encoderEdge _ _ | .characterError => True
  | .millisecondMark _ => p.settled = true
  | .segmentEvent h => p.segmentOpen h = true
  | .linkTimeout h => p.segmentOpen h = true ∧ p.timeoutReached h = true
  | .hoistLinkReply h _ => (p.link h).buffer.length = 6 ∧ (p.link h).partialExpired = false
  | .hoistLinkReplyByte h _ => (p.link h).buffer.length < 6 ∨ (p.link h).partialExpired = true
  | .replyPartialTimeout h => (p.link h).partialExpired = true
  | .filterSampleInstant sample => p.sampleOpen sample = true
  | .interlockClosedAcceptance => p.sensors.closingComplete = true
  | .interlockHalt h => p.interlock = .opened ∧ (p.hoist h).interlockSeen = .closed
  | .interlockClosedTaken h => p.interlock = .closed ∧ (p.hoist h).interlockSeen = .opened
  | .phaseTimerExpiry h => expired (p.hoist h).phaseTimer = true
  | .dwellLimitExpiry h => expired (p.hoist h).dwellTimer = true
  | .servingStart => p.selector.request = true ∧ p.selector.serving = []
  | .tryHoist => p.selector.serving ≠ []
  | .eligibilityReevaluation h => p.power.handed.get h = true
  | .endTripsOfAnotherKind h => p.power.modeRequests.get h ≠ []
  | .frameComplete _ => p.port.buffer.length = 31 ∧ p.port.gapReached = false
  | .plantLinkByte _ => p.port.buffer.length < 31 ∨ p.port.gapReached = true
  | .frameGapTimeout => p.port.buffer ≠ [] ∧ 6 ≤ p.port.gap
  | .replyEnd => p.port.sending ≠ none
  | .restartOrderQueue => p.restartAwaits RestartWork.queueDue
  | .restartPowerAllocator => p.restartAwaits RestartWork.powerDue
  | .restartHoist h => p.restartAwaits fun w => w.hoistDue.get h
  | i => p.handedCommand = some i

/-- A command that a frame carries comes about by being handed over, and in no other way (R184). -/
theorem Chip.comesAbout_plantCommand {p : Chip} {i : Instr} (isCommand : i.payload.isSome = true) :
    p.comesAbout i ↔ p.handedCommand = some i := by
  cases i with
  | powerOnReset | millisecondMark | segmentEvent | linkTimeout | hoistLinkReply | replyPartialTimeout | filterSampleInstant
  | interlockClosedAcceptance | interlockHalt | interlockClosedTaken | markerPulse | encoderEdge | phaseTimerExpiry
  | dwellLimitExpiry | servingStart | tryHoist | eligibilityReevaluation | endTripsOfAnotherKind | frameComplete
  | frameGapTimeout | characterError | replyEnd | restartOrderQueue | restartPowerAllocator | restartHoist | plantLinkByte
  | hoistLinkReplyByte => exact absurd isCommand Bool.false_ne_true
  | getMass | nextMass | getBay | nextBay | getHoist | getOrder | getEnergy | getParam | getPlant | snapshot | admitMass
  | amendMass | retireMass | foundMass | surveyBay | barBay | unbarBay | orderMove | cancelOrder | setPower | holdHoist | resume
  | abandonTrip | retarget | referenceHoist | clearFault | enableHoist | setParam | restart => exact Iff.rfl

/-- Every command acts only where its event has come about, and answers a next state in any case. -/
theorem exec_actsOnlyIf (i : Instr) (s : State) : s.ActsOnlyIf (s.chip.comesAbout i) (exec i s) := by
  cases i with
  | powerOnReset | markerPulse | encoderEdge | characterError => exact State.act_actsOnlyIf trivial
  | millisecondMark | segmentEvent | replyPartialTimeout | filterSampleInstant | interlockClosedAcceptance | phaseTimerExpiry
  | dwellLimitExpiry | eligibilityReevaluation => exact State.event_actsOnlyIf id
  | linkTimeout => exact State.event_actsOnlyIf (Bool.and_eq_true _ _).mp
  | interlockHalt | interlockClosedTaken => exact State.event_actsOnlyIf of_decide_eq_true
  | hoistLinkReply | hoistLinkReplyByte | frameComplete | plantLinkByte =>
    exact State.event_actsOnlyIf (by simp [Chip.comesAbout])
  | servingStart => exact State.event_actsOnlyIf (by simp [Chip.servingReady, Chip.comesAbout])
  | tryHoist | endTripsOfAnotherKind => exact State.event_actsOnlyIf (by simp [Chip.comesAbout])
  | frameGapTimeout => exact State.event_actsOnlyIf PlantPort.gapReached_iff.mp
  | replyEnd => exact State.event_actsOnlyIf Option.isSome_iff_ne_none.mp
  | restartOrderQueue | restartPowerAllocator | restartHoist => exact State.restartPart_actsOnlyIf
  | getPlant page => exact execGetPlant_actsOnlyIf page
  | restart => exact execRestart_actsOnlyIf
  | getMass | nextMass | getBay | nextBay | getHoist | getOrder | getEnergy | getParam | snapshot =>
    exact State.query_actsOnlyIf
  | admitMass | amendMass | retireMass | foundMass | surveyBay | barBay | unbarBay | orderMove | cancelOrder | setPower
  | holdHoist | resume | abandonTrip | retarget | referenceHoist | clearFault | enableHoist | setParam =>
    exact State.command_actsOnlyIf

theorem exec_of_not_comesAbout {s : State} {i : Instr} (no : ¬s.chip.comesAbout i) : exec i s = .next s :=
  (exec_actsOnlyIf i s).idle no

/-! ### Obligations about the step and its events -/

/-- Settles O1, by the equation of `step` for a queue with a front. -/
theorem stepTakesTheFront : Obligations.StepTakesTheFront := fun _ _ _ front => step_of_front front

/-- Settles O2: a step is the meaning of the command at the front, which acts on the part alone. -/
theorem everyStepAnswersNext : Obligations.EveryStepAnswersNext := by
  refine fun s => ⟨?_, step_of_empty⟩
  cases queue : s.pending with
  | nil => exact ⟨s, step_of_empty queue, queue⟩
  | cons i rest =>
    obtain ⟨p, next⟩ := (exec_actsOnlyIf i (s.withPending rest)).next
    exact ⟨_, (step_of_front queue).trans next, rfl⟩

/-- Settles O3: in each clause something is wanting that the event needs to come about. -/
theorem eventsNotComeAboutChangeNothing : Obligations.EventsNotComeAboutChangeNothing := by
  intro s h b line sample
  refine ⟨?mark, ?segment, ?timeout, ?reply, ?replyByte, ?partialReply, ?sample, ?acceptance, ?halt, ?closed, ?phaseTimer, ?dwell,
    ?serving, ?tryHoist, ?eligibility, ?mode, ?frame, ?byte, ?gap, ?replyEnd, ?restart, ?plantCommand⟩
  case mark | partialReply | sample | acceptance | phaseTimer | dwell | eligibility =>
    exact fun no => exec_of_not_comesAbout (ne_true_of_eq_false no)
  case segment =>
    exact fun no => ⟨exec_of_not_comesAbout (ne_true_of_eq_false no),
      exec_of_not_comesAbout fun ⟨isOpen, _⟩ => ne_true_of_eq_false no isOpen⟩
  case timeout => exact fun no => exec_of_not_comesAbout fun ⟨_, reached⟩ => ne_true_of_eq_false no reached
  case reply | frame =>
    rintro (short | late) <;> refine exec_of_not_comesAbout fun ⟨full, inTime⟩ => ?_
    · exact short full
    · exact ne_true_of_eq_false inTime late
  case replyByte | byte =>
    intro full inTime
    refine exec_of_not_comesAbout ?_
    rintro (short | late)
    · exact Nat.not_lt.mpr full short
    · exact ne_true_of_eq_false inTime late
  case halt | closed =>
    rintro (level | seen) <;> refine exec_of_not_comesAbout fun ⟨level', seen'⟩ => ?_
    · cases level.symm.trans level'
    · cases seen.symm.trans seen'
  case serving =>
    rintro (noRequest | underWay) <;> refine exec_of_not_comesAbout fun ⟨requested, empty⟩ => ?_
    · exact ne_true_of_eq_false noRequest requested
    · exact underWay empty
  case tryHoist | mode | replyEnd => exact fun nothing => exec_of_not_comesAbout (not_not_intro nothing)
  case gap =>
    rintro (empty | early) <;> refine exec_of_not_comesAbout fun ⟨underWay, reached⟩ => ?_
    · exact underWay empty
    · exact Nat.not_lt.mpr reached early
  case restart =>
    intro noRestart
    have idle {due : RestartWork → Bool} : ¬s.chip.restartAwaits due := Chip.not_restartAwaits_of_none noRestart
    exact ⟨exec_of_not_comesAbout idle, exec_of_not_comesAbout idle, exec_of_not_comesAbout idle⟩
  case plantCommand =>
    exact fun i isCommand notHanded => exec_of_not_comesAbout ((Chip.comesAbout_plantCommand isCommand).not.mpr notHanded)

end Sys2Proof.Machine
end

section
/-! SUPPORT. The part after power-on reset meets the laws that the steps keep, whatever its straps and its first encoder samples are
(spec/01 R7, spec/02 R46, spec/04 R63, spec/11 section 11.5). -/

namespace Sys2Proof.Machine

theorem BayRecord.unsurveyed_shape : BayRecord.unsurveyed.Shape := by
  constructor <;> simp [BayRecord.unsurveyed]

theorem PositionUnit.initial_inRange (first : Channels) : (PositionUnit.initial first).InRange := by
  constructor <;> simp [PositionUnit.initial]

theorem PlantParams.powerOn_inRange : PlantParams.powerOn.InRange := by constructor <;> decide

theorem HoistParams.powerOn_inRange : HoistParams.powerOn.InRange := by constructor <;> decide

section
variable (rate : LineRate) (first : Quad Channels)

theorem Chip.powerOn_orderPlaces : (Chip.powerOn rate first).OrderPlaces :=
  (Chip.orderPlaces_iff _).mpr (show OrderQueue.initial.places ≤ 16 by decide)

/-- The setpoint 0 has nothing to share out (R137, R142). -/
theorem Chip.powerOn_powerRecords : (Chip.powerOn rate first).PowerRecords :=
  ⟨Nat.zero_le _, rfl, (sharesOf_zero _ _).symm, rfl, rfl⟩

theorem Chip.powerOn_paramsInRange : (Chip.powerOn rate first).ParamsInRange where
  plant := PlantParams.powerOn_inRange
  hoist h := by
    rw [Chip.powerOn_hp]
    exact HoistParams.powerOn_inRange
  drift h referenced := by
    rw [Chip.powerOn_unit] at referenced
    exact absurd referenced Bool.false_ne_true

theorem Chip.powerOn_unit_inRange (h : HoistId) : ((Chip.powerOn rate first).unit h).InRange := by
  rw [Chip.powerOn_unit]
  exact PositionUnit.initial_inRange _

theorem Chip.powerOn_bay_shape (b : BayId) : ((Chip.powerOn rate first).bay b).Shape := by
  rw [Chip.powerOn_bay]
  exact BayRecord.unsurveyed_shape

/-- No level is accepted on any bay line, and no sensor field is present (R46, R52). -/
theorem Chip.powerOn_sensorsAgree : (Chip.powerOn rate first).SensorsAgree := by
  intro b
  rw [Chip.powerOn_bay]
  simp [Chip.powerOn, SensorBank.initial, LineFilter.initial, BayRecord.unsurveyed]

end

/-- Settles O5: reset is power-on with the strap setting and the samples of log 4, and each law holds after any power-on. -/
theorem resetMeetsTheLaws : Obligations.ResetMeetsTheLaws :=
  ⟨rfl, Chip.Kept.powerOn _ _ 0, Chip.powerOn_orderPlaces _ _, Chip.powerOn_powerRecords _ _, Chip.powerOn_paramsInRange _ _,
    Chip.powerOn_unit_inRange _ _, Chip.powerOn_bay_shape _ _, Chip.powerOn_sensorsAgree _ _⟩

end Sys2Proof.Machine
end
